-- ==== Sys2Proof/Word.lean ====
section
/-! DEFINITION. The word types of the register bus and of the memory images (00 R11, R12): a register is
32 bits, bit 0 least significant; bytes are the unit of every image and frame, least significant first. -/
namespace Sys2Proof

/-- A byte of a frame or an image. -/
abbrev Byte := BitVec 8
/-- A register word (19, opening). -/
abbrev Word := BitVec 32
/-- A codeword's data in a protected memory (01 R27). -/
abbrev Line := BitVec 128

/-- A sparse table: keys strictly rising, no entry equal to what an unlisted key reads as. -/
abbrev Table (α : Type) := List (Nat × α)

/-- A field of a register: its address, lowest bit and width (00 R12). -/
structure Fld where
  addr : Nat
  lo : Nat
  width : Nat
  deriving DecidableEq, Repr

end Sys2Proof
end

