-- ==== Sys2Proof/Types.lean ====
section
/-! DEFINITION. The data that commands carry and the state holds: records, graph banks, plan images, string
entries, journal entries, dictionary values. Each type follows one table of the spec. -/
namespace Sys2Proof

/-- One edge record (05 R151, Table MOD-5). `frac` is in 1/32 counts; `typ` is 0b01 in every record that is formed. -/
structure EdgeRec where
  gate : Nat
  level : Bool
  frac : Nat
  stamp : Nat
  parity : Nat
  gen : Nat
  seq : Nat
  typ : Nat := 1
  deriving DecidableEq, Repr

/-- The coverage of one pair in an edge frame (08 R241, R242, Table NRW-8). -/
structure Cover where
  pair : Nat
  fromPar : Nat
  fromSt : Nat
  toPar : Nat
  toSt : Nat
  deriving DecidableEq, Repr

/-- An edge frame's body: the records of one run of one pair group for one node (08 R241); `waited`: held once by rule 5 of
R225. -/
structure EdgeFrame where
  node : Nat
  cover : List Cover
  recs : List EdgeRec
  waited : Bool := false
  deriving DecidableEq, Repr

/-- A tide frame's body (08 Table NRW-3); `ring`: the ring number of its header. `launch` in 1/16 ns. -/
structure TideHdr where
  ring : Nat
  time : Nat
  tick : Nat
  epoch : Nat
  tc : Nat
  launch : Nat
  master : Bool
  paired : Bool
  local_ : Bool
  en : Nat
  byp : Nat
  halt : Nat
  deriving DecidableEq, Repr

/-- A block before scrambling (07 R186): a control or a data block, with its payload. -/
structure LBlk where
  ctrl : Bool
  pay : BitVec 64
  deriving DecidableEq, Repr

/-- A block as the line carries it (07 R186): sync header, payload. -/
structure LineBlk where
  hdr : BitVec 2
  pay : BitVec 64
  deriving DecidableEq, Repr

/-- A ring's frame as it arrived (08 Table NRW-1): the fields of its header, its CRC-16, the blocks that it filled, and whether it was marked errored
(07 R189). -/
structure FrameHdr where
  typ : Nat
  version : Nat
  node : Nat
  ring : Nat
  bcast : Bool
  par : Nat
  len : Nat
  seq : Nat
  crc : Nat
  blocks : Nat
  errored : Bool
  deriving DecidableEq, Repr

/-- A service request (08 Table NRW-11): code, node, broadcast, R, the argument bytes 4 to 15, tag. -/
structure SvcReq where
  code : Nat
  node : Nat
  bcast : Bool
  rlen : Nat
  args : List Byte
  tag : Nat := 0
  deriving DecidableEq, Repr

/-- The tag and the reply length R of a service request (08 Table NRW-11). -/
structure SvcHead where
  tag : Nat
  rlen : Nat
  deriving DecidableEq, Repr

/-- What a sample record carries: eight tick averages, eight instantaneous values, the status word
(03 Table ISL-5, 08 R237). -/
structure SampleRec where
  avg : List Int
  inst : List Int
  status : Nat
  deriving DecidableEq, Repr

/-- A mailbox slot (03 R67, Table ISL-5). -/
structure Slot where
  valid : Bool := false
  tick : Nat := 0
  smp : SampleRec := ⟨[], [], 0⟩
  ring : Nat := 0
  node : Nat := 0
  stamp : Nat := 0
  deriving DecidableEq, Repr

/-- A law-graph node (04 R104, Table CTL-1). Source codes are kept as the 16-bit words of Table CTL-2. -/
structure NodeDef where
  typ : Nat := 0
  ctx : Nat := 0
  leadOnly : Bool := false
  efBind : Bool := false
  bumpless : Bool := false
  slot : Nat := 0
  srcs : List Nat := [0, 0, 0, 0]
  par : Nat := 0
  nPar : Nat := 0
  st : Nat := 256
  nSt : Nat := 0
  hold : Nat := 0
  deriving DecidableEq, Repr

/-- A channel table entry (04 R111, Table CTL-5). -/
structure ChanDef where
  base : Word := 0
  lo : Int := 0
  hi : Int := 0
  ac : Nat := 0
  persist : Nat := 1
  checked : Nat := 0
  act : Nat := 0
  freeze : Nat := 0
  fact : Nat := 0
  deriving DecidableEq, Repr

/-- A pair group of the edge-former set (05 R131, Table MOD-2). -/
structure GroupDef where
  period : Nat := 0
  theta0 : Nat := 0
  span : Nat := 0
  reload : Nat := 0
  psc : Bool := false
  dither : Bool := false
  deriving DecidableEq, Repr

/-- A pair of the edge-former set (05 R131, Table MOD-3). -/
structure PairDef where
  group : Nat := 0
  square : Bool := false
  slot : Nat := 0
  mapping : Nat := 0
  td : Nat := 0
  tmin : Nat := 0
  off : Nat := 0
  swap : Bool := false
  inv : Bool := false
  deriving DecidableEq, Repr

/-- The edge-former set (05 R131, Table MOD-1). -/
structure EfSet where
  groups : List GroupDef := []
  pairs : List PairDef := []
  compat : Bool := false
  eMax : Nat := 1
  lead : Nat := 80
  init : List Int := []
  deriving DecidableEq, Repr

/-- A graph bank: its 2,048 bytes, whether no word of it has been damaged since it was written, and what an isle reads in it (03 R66,
Table ISL-4). -/
structure Bank where
  gen : Nat := 0
  law : Nat := 0
  modn : Nat := 0
  cost : Nat := 0
  nCtx : Nat := 1
  nodes : List NodeDef := []
  params : List Nat := []
  chans : List ChanDef := []
  ef : EfSet := {}
  carry : List Byte := []
  bytes : List Byte := []
  sound : Bool := false
  deriving DecidableEq, Repr

/-- An isle entry of the cell map (03 R77, Table ISL-10). Role: 0 unused, 1 cell, 2 LV-bridge, 3 port. -/
structure IsleEntry where
  role : Nat := 0
  ring : Nat := 0
  node : Nat := 0
  string : Nat := 0
  segPos : Nat := 0
  gPos : Nat := 0
  phase : Nat := 0
  port : Nat := 0
  law : Nat := 0
  modn : Nat := 0
  deriving DecidableEq, Repr

/-- A law-parameter override of a variant (06 Table BAL-7): node, word within the node's parameters, value. -/
structure Ovr where
  node : Nat
  word : Nat
  value : Nat
  deriving DecidableEq, Repr

/-- A prepared variant (06 R178, Table BAL-7). κ is a coefficient: mantissa and shift word. -/
structure Variant where
  nv : Nat
  delta16 : Nat
  kMant : Int
  kShift : Int
  lambda : Int
  ovrs : List Ovr
  deriving DecidableEq, Repr

/-- A string entry of the cell map (03 R79, Table ISL-11). `order` gives the phase slot of each global position;
`devices` the fabric addresses of the string's devices by segment. -/
structure StringEntry where
  nlc : Bool := false
  head : Nat := 0
  segIdx : Nat := 0
  segs : Nat := 1
  n : Nat := 0
  spares : Nat := 0
  variants : List Variant := []
  order : List Nat := []
  devices : List Nat := []
  deriving DecidableEq, Repr

/-- The driver configuration that an image carries for one node (09 R280, R281): the writes and the check value
expected after them. -/
structure DrvConf where
  ring : Nat
  node : Nat
  writes : List (Nat × Nat × Word)
  check : Word
  deriving DecidableEq, Repr

/-- One isle of a plan image: its number, its entry and the 2,048 bytes of its graph bank. -/
structure ImgIsle where
  num : Nat
  entry : IsleEntry
  bytes : List Byte
  deriving DecidableEq, Repr

/-- One string of a plan image. -/
structure ImgString where
  num : Nat
  entry : StringEntry
  deriving DecidableEq, Repr

/-- A plan image as Baraskug builds it (03 R84, R85). `sound` says that its outer format and CRC-32C hold; the manual
gives the outer format no layout. -/
structure PlanImage where
  sound : Bool
  isles : List ImgIsle
  strings : List ImgString
  drivers : List DrvConf
  deriving DecidableEq, Repr

/-- An image held by the supervisor, with the generation it was given (03 R83, R84). -/
structure Plan where
  gen : Nat
  isles : List (Nat × IsleEntry × Bank)
  strings : List (Nat × StringEntry)
  drivers : List DrvConf
  deriving DecidableEq, Repr

/-- An entry of a string fault queue (06 R172). -/
structure FqEntry where
  cause : Nat
  pos : Nat
  tick : Nat
  stamp : Nat
  deriving DecidableEq, Repr

/-- The string word (04 R126). -/
structure StrWord where
  fields : List Int
  integ : List Int
  tick : Nat
  deriving DecidableEq, Repr

/-- One cell of a partial list (06 R167): sort value, raw key, global position. -/
structure CellKey where
  sortv : Int
  key : Int
  gPos : Nat
  deriving DecidableEq, Repr

/-- What a partial list tells of its segment's keys (06 R167, 11 Table FTR-8): active cells, sum, sum of store15(key·key), lowest, highest. -/
structure CwTot where
  act : Nat := 0
  sum : Int := 0
  sq : Int := 0
  least : Int := 0
  most : Int := 0
  deriving DecidableEq, Repr

/-- A partial list of a segment (06 R167). -/
structure PartList where
  seg : Nat
  cells : List CellKey
  tick : Nat
  gen : Nat
  variant : Nat
  tot : CwTot := {}
  deriving DecidableEq, Repr

/-- The head of a Causeway message (11 Tables FTR-8, FTR-9): tick, low bits of G, variant, segment index, head address, string
number at the head. -/
structure CwHead where
  tick : Nat
  gen : Nat
  variant : Nat
  seg : Nat
  head : Nat
  string : Nat
  deriving DecidableEq, Repr

/-- Who sent a request: channel code of Table DIC-12 and source word of Table JRN-1. -/
structure Origin where
  chan : Nat
  source : Nat
  deriving DecidableEq, Repr

/-- A journal entry (18 R530, Table JRN-1). Kind: 1 WRITE, 2 TX, 3 EVENT, 4 MASK. State: 0 PENDING, 1 DONE, 2 CUT. `mask` holds the
32 bytes of a MASK entry. -/
structure JEntry where
  seq : Nat := 0
  epoch : Nat := 0
  time : Nat := 0
  fabEpoch : Nat := 0
  chan : Nat := 0
  valueRef : Bool := false
  txMember : Bool := false
  mirrored : Bool := false
  source : Nat := 0
  txId : Nat := 0
  index : Nat := 0
  sub : Nat := 0
  typ : Nat := 0
  value : List Byte := []
  mask : List Byte := []
  result : Word := 0
  st : Nat := 0
  maskRef : Nat := 0
  kind : Nat := 0
  origSeq : Nat := 0
  origEpoch : Nat := 0
  damaged : Bool := false
  deriving DecidableEq, Repr

/-- A HELLO (10 Table FTP-2). -/
structure Hello where
  uid : Nat
  fab : Nat
  addr : Nat
  prio : Nat
  port : Nat
  pair : Bool
  solitary : Bool
  run : Bool
  merging : Bool
  rootUid : Nat
  rootPrio : Nat
  hops : Nat
  epoch : Nat
  heard : Nat
  lsaSeq : Nat
  deriving DecidableEq, Repr

/-- A link-state advertisement (10 Table FTP-4). -/
structure Lsa where
  uid : Nat
  seq : Nat
  addr : Nat
  prio : Nat
  run : Bool
  solitary : Bool
  isRoot : Bool
  merging : Bool
  lease : Nat
  nbrs : List Nat
  deriving DecidableEq, Repr

/-- A sync ferry (02 R37, R43, 10 R298): tick, epoch, departure in 1/16 ns of TIME64, T in ns, the root it names. -/
structure SyncMsg where
  tick : Nat
  epoch : Nat
  tx : Nat
  period : Nat
  rootUid : Nat
  rootPrio : Nat
  deriving DecidableEq, Repr

/-- An EPOCH ferry (10 R302): epoch, k0, T in ns, root key. -/
structure EpochMsg where
  epoch : Nat
  k0 : Nat
  period : Nat
  prio : Nat
  uid : Nat
  deriving DecidableEq, Repr

/-- A MERGE ferry (10 R312, R314): a measured offset in ns; a start with offset, tick and mode; a completion with its tick and the
winner's epoch, k0 and T in ns. -/
inductive MergeMsg where
  | measure (delta : Int)
  | start (delta : Int) (km : Nat) (slew : Bool)
  | done (kd epoch k0 period : Nat)
  deriving DecidableEq, Repr

/-- One string segment in a heartbeat (12 Table RED-1): state, variant, low bits of G, excluded positions. -/
structure HbString where
  sstate : Nat
  variant : Nat
  gen : Nat
  ex1 : Nat
  ex2 : Nat
  deriving DecidableEq, Repr

/-- A partner heartbeat (12 Table RED-1); rings as enable, bypass and halt bits. -/
structure Heartbeat where
  tick : Nat
  mode : Nat
  run : Bool
  relinquish : Bool
  pause : Bool
  preferred : Bool
  takeReady : Bool
  side : Nat
  rings : List (Nat × Nat × Nat)
  strings : List HbString
  deriving DecidableEq, Repr

/-- An entry of a Harbour message (17 R499); `image`: what the value of 0x2000:10 spells. -/
structure Ent where
  index : Nat
  sub : Nat
  typ : Nat
  value : List Byte
  image : Option PlanImage := none
  deriving DecidableEq, Repr

/-- A Harbour datagram (17 R498, Table DIC-6) from an IP address; its message type is that of the command that carries it.
`lenField`: the body length it states. -/
structure HbMsg where
  ip : Nat
  version : Nat := 1
  session : Nat
  seq : Nat
  req : Nat
  target : Nat := 0
  lenField : Nat
  tx : Nat := 0
  first : Bool := true
  last : Bool := true
  body : List Byte
  tag : List Byte
  deriving DecidableEq, Repr

/-- An access on the register bus (19 R544, R550). Initiators: 0 to 3 supervisor cores, 4 safety core, 5 JTAG. Size in bytes: 1, 2, 4, 8. -/
structure Access where
  init : Nat
  addr : Nat
  size : Nat
  write : Bool
  data : Nat
  deriving DecidableEq, Repr

/-- A configuration image (20 R581): object writes in list order, then the cell map. -/
structure ConfigImage where
  writes : List Ent
  plan : Option PlanImage
  deriving DecidableEq, Repr

/-- What a clock monitor measured (01 Table ARC-6), Hz: REF_CLK against AOSC, the PLL's lock detector, a core clock (0 ICLK, 1 PCLK,
2 SVCLK) against REF_CLK. -/
inductive ClockMon where
  | ref (hz : Nat)
  | pll (locked : Bool)
  | core (clk : Fin 3) (hz : Nat)
  deriving DecidableEq, Repr

/-- What reaches a bank of a protected memory in one cycle (01 R28, R30, R31): the scrubber's slot, that slot beside a functional access to
a word, a functional access alone. -/
inductive BankCycle where
  | scrub
  | both (word : Nat) (write : Bool)
  | access (word : Nat) (write : Bool)
  deriving DecidableEq, Repr

/-- How a stage of Table MPT-3 ended (20 R575 to R581): the fuse words that read corrected and those (bank, word) that did not; the
lock of the PLL; PD_2 and PD_3; BIST; the journal words that the sweep corrected (one bit, two bits) and those it found damaged; what the two firmware slots hold; the supervisor; the configuration image; the commit; the reference, with the PAIR_PREF strap. -/
inductive BootEvent where
  | fuses (corrected : Nat) (bad : List (Nat × Nat))
  | clock
  | power
  | bist (ok : Bool)
  | sweep (one two : Nat) (damaged : List Nat)
  | firmware (a b : List Byte)
  | supervisor
  | config (i : Option ConfigImage)
  | commit
  | done (strap : Bool)
  deriving DecidableEq, Repr

/-- What a Shoal word holds (01 Table ARC-9): a free buffer, the record of an isle's mailbox, edge records on their way to a ring, the ferry at a
place of the queues, a capture set. -/
inductive ShoalUse where
  | free
  | sample (isle : Nat)
  | edges (ring : Nat)
  | ferry (place : Nat)
  | capture (set : Nat)
  deriving DecidableEq, Repr

/-- An Ethernet frame that carries no Harbour message (17 R497, Table DIC-5): a request of ARP, ICMP echo, NDP or ICMPv6 echo for an address, and
any other frame, fragments among them. An IPv4 address has the form of HBR_IP4; byte i of an IPv6 address stands in bits 8i + 7 to 8i. -/
inductive EthFrame where
  | arp (target : BitVec 32)
  | icmp (dst : BitVec 32)
  | icmp6 (dst : BitVec 128)
  | ndp (target : BitVec 128)
  | other
  deriving DecidableEq, Repr

/-- What a MIR_CFG ferry carries, in journal order (12 R359): an entry with its value, a staged image with its G, a commit request. -/
inductive MirItem where
  | entry (e : JEntry) (value : List Byte)
  | image (gen : Nat) (image : PlanImage)
  | commit (gen kc : Nat)
  deriving DecidableEq, Repr

/-- What a ferry carries (11 Table FTR-2). -/
inductive Msg where
  | hello (h : Hello)
  | lsa (l : Lsa)
  | sync (m : SyncMsg)
  | delayReq (t1 : Nat)
  | delayResp (t2 t3 : Nat)
  | epoch (m : EpochMsg)
  | leaseReq (uid : Nat)
  | lease (uid addr time : Nat)
  | merge (m : MergeMsg)
  /-- A part of a partial list (06 R167, 11 Table FTR-8): part, parts, the totals of part 0. -/
  | cwList (h : CwHead) (part parts : Nat) (tot : CwTot) (cells : List CellKey)
  /-- The string word with the head's string state (04 R126, 11 R340). -/
  | cwWord (h : CwHead) (word : StrWord) (sstate : Nat)
  /-- A cell fault, or SAFE (06 R176, R161). -/
  | cwFault (h : CwHead) (safe : Bool) (cause pos stamp : Nat)
  | capTrig (kt epoch : Nat)
  | capData (set kt offset total : Nat) (data : List Byte)
  | pairHb (h : Heartbeat)
  | pairDig (tick first : Nat) (digests : List Nat)
  | mirCfg (items : List MirItem)
  | revertReq (kh : Nat)
  | revertAck (kh : Nat)
  /-- A forwarded request (11 R346): identifier, message type of 17 Table DIC-7, transaction ID, number of the part, whether it is the first or last. -/
  | dicReq (id typ tx seq : Nat) (first last : Bool) (body : List Byte)
  | dicRsp (id seq : Nat) (first last : Bool) (body : List Byte)
  | pub (body : List Byte)
  | other (body : List Byte)
  deriving DecidableEq, Repr

/-- A ferry (11 Table FTR-1); `port`: a link-local one bound for that port; `stomp`: sent on with a complemented trailer (R323). -/
structure Ferry where
  dest : Nat
  cls : Nat
  src : Nat
  typ : Nat
  hops : Nat
  len : Nat
  seq : Nat
  epoch : Nat
  time : Nat
  port : Option Nat
  stomp : Bool
  msg : Msg
  deriving DecidableEq, Repr

/-- Where a message goes: the neighbour on a port, an address, the root, everyone. -/
inductive Scope where
  | port (p : Nat)
  | addr (a : Nat)
  | root
  | all
  deriving DecidableEq, Repr

/-- What the block sends out in one step: to the rings, the fabric, the partner, the hosts. -/
inductive Out where
  /-- A message given to the fabric: type code and payload length (11 Table FTR-2). -/
  | send (dest : Scope) (typ len : Nat) (m : Msg)
  /-- A ferry starts on a Strait port (11 R325). -/
  | ferry (port : Nat) (f : Ferry)
  /-- A CREDIT or CSYNC block (11 Table FTR-4): port, class, value. -/
  | credit (port cls limit : Nat)
  | csync (port cls consumed : Nat)
  /-- Blocks on a lane, in order; then FILLER blocks (07 R186, R191, 08 R220). -/
  | blocks (lane : Nat) (l : List LineBlk)
  | fill (lane n : Nat)
  /-- TRAIN blocks of a payload on a lane, with FILLER in place of every 4,096th block (07 R195). -/
  | train (lane : Nat) (pay : BitVec 64) (n fillers : Nat)
  /-- Bits of a test pattern on a lane, from a position of its sequence on (07 R213). -/
  | pattern (lane pat : Nat) (inv : Bool) (pos bits : Nat)
  /-- What a node sends on to its downstream neighbour on a position, before that hop's scrambler (08 R218, R219): the blocks that a command brings
it. Its own TRAIN blocks while its receiver is not READY (07 R198). -/
  | nodeForward (ring place : Nat) (b : Bool) (l : List LBlk)
  | nodeTrain (ring place : Nat) (b : Bool)
  /-- A transmitted bit is flipped or a sync header corrupted: 0 one bit, 1 by rate, 2 payload, 3 sync header (07 R215). -/
  | laneFlip (lane kind : Nat)
  /-- An SSI clock frame of a feedback interface (15 R442): falling edges, clock in 0.1 MHz. -/
  | ssiClock (enc clocks rate : Nat)
  /-- A 2-wire access to a module (07 R208). -/
  | mod2w (lane req : Nat)
  /-- A HALT block on a ring (09 R271, 08 Table NRW-10). -/
  | halt (ring node : Nat) (bypass : Bool)
  /-- The tide frame of a ring (08 R226). -/
  | tideFrame (ring : Nat) (hdr : TideHdr)
  /-- The sample train of a ring (08 R237). -/
  | sampleTrain (ring nodes : Nat)
  /-- An edge frame on a ring (08 R241). -/
  | edgeFrame (ring : Nat) (frame : EdgeFrame)
  /-- A service frame on a ring (08 R260). -/
  | service (ring : Nat) (req : SvcReq)
  /-- What a node writes in the reply area of a service frame (08 R219, R261): position, bytes from the offset given on. -/
  | nodeReply (ring place : Nat) (b : Bool) (offset : Nat) (data : List Byte)
  /-- A node's ALERT on a position: it takes the place of the next block that is no ORDERED block (08 R250, R251). -/
  | nodeAlert (ring place : Nat) (b : Bool) (blk : LBlk)
  /-- The container that a node writes in the sample train of a position (08 R238). -/
  | nodeSample (ring place : Nat) (b : Bool) (container : List Byte)
  /-- A Harbour message to an IP address (17 R498): header, body, tag; on port 47130, or 47131 for a publication. -/
  | harbour (ip port : Nat) (message : List Byte)
  /-- An answer of the network layer: the frame answered, the MAC address answered from (17 R497). -/
  | eth (f : EthFrame) (mac : List Byte)
  /-- A CAN FD frame: COB-ID and data (17 R514). -/
  | can (cob : Nat) (data : List Byte)
  /-- A USDO response (17 R515): result and data; the transfer's own framing is that of CiA 1301. -/
  | usdo (result : Word) (data : List Byte)
  /-- A register access ends (19 R545): initiator, the cause of its bus error (0 none), data read. -/
  | bus (init cause data : Nat)
  /-- A broadcast HALT with BYPASS on a ring (08 R252). -/
  | haltAll (ring : Nat)
  /-- A read through the register window ends (17 R519): its result, its data. -/
  | window (result : Word) (data : List Byte)
  /-- The result of a command that a host channel gave: channel, code. -/
  | result (chan : Nat) (code : Word)
  deriving DecidableEq, Repr

end Sys2Proof
end

