-- ==== Sys2Proof/Syntax.lean ====
section
/-! DEFINITION. The commands of the block: one constructor per row of spec/opcode_table.json, each with the
operands its event carries. Times of arrival within a tick are stamps in counts of 2.5 ns; a number of a unit is a
`Fin` of the unit's count; wall-clock spans that a timer measured are operands in the unit of the register that
limits them. -/
namespace Sys2Proof

inductive Instr where
  /-- MAIN_CLOCK_FAULT (R19): A monitor finds REF_CLK, the main PLL or a core clock outside its window for the detection time; the device forces outputs off, stops all lanes and holds itself in reset. -/
  | mainClockFault (m : ClockMon) (elapsed : Nat)
  /-- MAIN_CLOCK_RELEASE (R19): REF_CLK has stayed inside its window with the PLL locked for 1 ms after a main clock fault, and the device enters BOOT. -/
  | mainClockRelease (elapsed : Nat)
  /-- CLASS_A_CLOCK_FAULT (R20): The SCCLK and SKOSC cross-check fails for 20 µs; both class A channels drive STO inactive on all ports. -/
  | classAClockFault (scc sk elapsed : Nat)
  /-- REFERENCE_LOSS_OF_LOCK (R21): NREF_0, NREF_1 or SREF loses lock, and only the lanes that reference feeds go silent. -/
  | referenceLossOfLock (ref : Fin 3)
  /-- SCRUB_ACCESS (R28): The scrubber takes its slot, reads the next word of a bank and corrects it in place. -/
  | scrubAccess (mem : Fin 5) (bank : Nat) (c : BankCycle) (bits : Fin 4) (use : ShoalUse) (at_ : Nat)
  /-- ECC_WRITE_BACK (R30): A corrected word is written back at the bank's next free slot, unless a functional write reached it first. -/
  | eccWriteBack (mem : Fin 5) (bank word : Nat)
  /-- SUPERVISOR_RESTART_DONE (R32): The supervisor restart completes; Harbour, dictionary and mirroring resume and pending journal steps are performed. -/
  | supervisorRestartDone
  /-- SUPERVISOR_WATCHDOG (R393): The 10 ms supervisor watchdog expires and triggers a supervisor restart. -/
  | supervisorWatchdog
  /-- TICK_EDGE (R604): The tick counter reaches T; the tick number increments and the edge is settled in the order of Table COI-2. -/
  | tickEdge (rival : Bool) (hm : BitVec 16)
  /-- TIDE_PERIOD_WRITE (R36): A write of TIDE_PERIOD is accepted if the device is idle and the ratio rule holds, taking effect at the second edge, or is refused with PER_REJ. -/
  | tidePeriodWrite (t : BitVec 15)
  /-- TIDE_GUARD_WRITE (R54): A write of the tick guard takes effect at the next tick edge. -/
  | tideGuardWrite (g : BitVec 11)
  /-- STEP_REQ (R44): Host requests a step of TIME64 to the parent's time at the next tick edge; ignored while a string is in RUN. -/
  | stepReq
  /-- SYNC_FERRY_RX (R45): A sync ferry is received, validated, its offset computed and the servo and tide state updated. -/
  | syncFerryRx (p : Fin 4) (m : SyncMsg) (rx : Nat) (crcOk : Bool)
  /-- ACQUIRE_TIMEOUT (R45): In ACQUIRE, 16 ticks pass without a valid sync and the tide unit returns to FREE. -/
  | acquireTimeout
  /-- LOCKED_SYNC_TIMEOUT (R45): In LOCKED, 4 ticks pass without a valid sync and the tide unit enters HOLDOVER. -/
  | lockedSyncTimeout
  /-- HOLDOVER_EXP (R45): In HOLDOVER, 64 ticks pass without a valid sync; the tide unit enters FREE and HOLDOVER_EXP is set. -/
  | holdoverExp
  /-- DELAY_REQUEST_TIMER (R48): Every 1 ms each Strait port sends a delay request to its neighbour. -/
  | delayRequestTimer (p : Fin 4)
  /-- DELAY_REQ_RX (R48): A delay request is received and time-stamped, and a delay response is returned. -/
  | delayReqRx (p : Fin 4) (t2 : Nat)
  /-- DELAY_RESP_RX (R49): A delay response is received; the measured delay is accepted or discarded and d_link updated. -/
  | delayRespRx (p : Fin 4) (t2 t3 t4 : Nat)
  /-- TICK_GUARD_EXPIRY (R55): T − guard is reached and every isle that has not completed is abandoned. -/
  | tickGuardExpiry
  /-- ISLE_STALL (R74): CONSEC_OVR reaches STALL_LIMIT; the isle enters STOPPED with STALLED and its role reaction follows. -/
  | isleStall (n : Fin 256) (at_ : Nat)
  /-- SAMPLE_CONTAINER_RX (R240): A sample container arrives at Narrows ingress and is checked for FILLED, CRC and parity. -/
  | sampleContainerRx (r : Fin 16) (i : Fin 16) (filled crcOk : Bool) (parity : Fin 4) (rec : SampleRec) (at_ : Nat) (ue : Bool)
  /-- NODE_SILENT (R240): A cell node's record is missing for NS_LIMIT consecutive ticks and NODE_SILENT is entered into the fault queue. -/
  | nodeSilent (r : Fin 16) (i : Fin 16) (at_ : Nat)
  /-- ISLE_WAKE (R71): VALID of the isle's current slot is set; the isle runs its channel checks and law graph in table order. -/
  | isleWake (n : Fin 256) (at_ : Nat) (injFail : Bool)
  /-- CH_RANGE (R112): A channel range violation persists for p ticks and is declared, with COUNT, HOLD or FAULT action. -/
  | chRange (n : Fin 256) (c : Fin 8) (at_ : Nat)
  /-- CH_STALE (R113): A channel's values stay bit-identical for F ticks; the freeze is declared and its action applies. -/
  | chStale (n : Fin 256) (c : Fin 8) (at_ : Nat)
  /-- OSC_WINDOW_END (R123): An OSC node's window of W runs ends and detection is set or cleared by the transition count. -/
  | oscWindowEnd (n : Fin 256) (j : Fin 16) (at_ : Nat)
  /-- SW_STALE (R127): The newest string word is older than its age limit; the STRR flag is set and SW_STALE entered. -/
  | swStale (n : Fin 256) (j : Fin 16) (at_ : Nat)
  /-- LAT_RST (R94): Writing LAT_RST resets the running mean of ISL_LAT[n]. -/
  | latRst (n : Fin 256)
  /-- PLAN_IMAGE_WRITE (R85): An image written to 0x2000:10 is checked, assigned a G and passed to the loader, or refused. -/
  | planImageWrite (o : Origin) (bytes : List Byte) (i : PlanImage)
  /-- ISLE_LOAD_DONE (R85): The loader finishes writing and verifying, or fails, one affected isle's pending bank. -/
  | isleLoadDone (n : Fin 256) (ok : Bool)
  /-- ABORT (R84): ABORT discards the staged image and any load in progress, unless a commit is in progress. -/
  | abort
  /-- COMMIT (R86): A commit request is judged by the seven checks and, if accepted, fixes k_c and enters COMMITTING. -/
  | commit
  /-- EF_OVERRIDE_WRITE (R150): A write to ISL_EF_OVR[n] or 0x3100:08 is accepted under the mode and lock conditions or refused with OVR_REJ. -/
  | efOverrideWrite (n : Fin 256) (w : Word) (f : Nat)
  /-- STRING_CMD_OFF (R158): Host command OFF takes a SAFE string to OFF at the next edge. -/
  | stringCmdOff (x : Fin 64)
  /-- STRING_CMD_PRECHARGE (R159): Host command PRECHARGE clears exclusions, returns the variant and enters PRECHARGE, or is refused. -/
  | stringCmdPrecharge (x : Fin 64) (hops : Nat) (others : Bool)
  /-- STRING_CMD_RUN (R158): Host command RUN takes a PRECHARGE string with PRE_DONE to RUN. -/
  | stringCmdRun (x : Fin 64) (others : Bool)
  /-- STRING_CMD_SAFE (R160): Host command SAFE takes a PRECHARGE or RUN string to SAFE with cause HOST_SAFE. -/
  | stringCmdSafe (x : Fin 64)
  /-- BYPASS_REQUEST (R181): A host bypass request enters HOST_BYP for a global position, or is refused. -/
  | bypassRequest (x : Fin 64) (pos : BitVec 9) (at_ : Nat)
  /-- BARRIER_DEADLINE (R166): t_B expires before all keys are posted; the barrier closes using the last posted keys. -/
  | barrierDeadline (x : Fin 64) (at_ : Nat)
  /-- RANKING_DELIVERED (R165): The sorter delivers ranks and string values and isles in BARRIER return to RUN. -/
  | rankingDelivered (x : Fin 64) (at_ : Nat)
  /-- RESPREAD_COMPLETE (R177): Every surviving isle has reached DONE at or after k_a and the re-spread ends. -/
  | respreadComplete (x : Fin 64)
  /-- PRE_DONE (R159): The minimum key has been at or above V_pre for 16 consecutive ticks and PRE_DONE is set. -/
  | preDone (x : Fin 64)
  /-- PRE_TMO (R159): The precharge timeout expires without PRE_DONE and the string goes to SAFE. -/
  | preTmo (x : Fin 64) (at_ : Nat)
  /-- SEG_LOST (R168): A segment's list is missing for the segment age limit and SEG_LOST is entered. -/
  | segLost (x : Fin 64) (at_ : Nat)
  /-- CW_LIST_RX (R167): A Causeway partial list is received and merged, or treated as missing. -/
  | cwListRx (h : CwHead) (part parts : Fin 4) (tot : CwTot) (cells : List CellKey) (at_ : Nat)
  /-- CW_WORD_RX (R340): A Causeway string word with the head's string state is received and stored if newest. -/
  | cwWordRx (h : CwHead) (sstate : Fin 4) (fields integ : List Int)
  /-- CW_FAULT_RX (R176): A cell-fault or SAFE announcement is received and scheduled for edge k_a. -/
  | cwFaultRx (h : CwHead) (safe : Bool) (cause : BitVec 8) (pos : BitVec 16) (stamp at_ : Nat)
  /-- CAUSEWAY_DEADLINE (R340): The 0.4 T deadline passes and lists not arrived count as missing. -/
  | causewayDeadline
  /-- BLOCK_RX (R186): A 66-bit block is received, descrambled and passed through the elastic buffer. -/
  | blockRx (n : Fin 24) (hdr : Fin 4) (x : BitVec 64) (slip : Int) (at_ : Nat)
  /-- LOS_ASSERT (R204): Received amplitude stays below threshold for 1 µs and LOS asserts. -/
  | losAssert (n : Fin 24) (pin : Bool)
  /-- LOS_CLEAR (R204): Received amplitude stays above threshold for 10 µs, LOS clears and the lane enters CDR. -/
  | losClear (n : Fin 24) (pin : Bool)
  /-- LOL (R205): The recovered clock leaves ±1,000 ppm for 2 µs or loses phase lock. -/
  | lol (n : Fin 24)
  /-- CDR_LOCK (R194): The lane PLL and clock recovery lock and the lane enters BLOCK. -/
  | cdrLock (n : Fin 24)
  /-- BLOCK_LOCK (R194): 64 consecutive valid sync headers give block lock and the lane enters TRAIN. -/
  | blockLock (n : Fin 24)
  /-- BLOCK_LOCK_LOSS (R206): 16 invalid sync headers within 64 blocks lose block lock. -/
  | blockLockLoss (n : Fin 24)
  /-- POLARITY_DETECT (R196): 16 TRAIN blocks or their complements decide receive polarity and RX_READY is set. -/
  | polarityDetect (n : Fin 24) (inverted : Bool)
  /-- HANDSHAKE_COMPLETE (R197): Both lanes of a port have received RX_READY in 16 TRAIN blocks and the port proceeds to data. -/
  | handshakeComplete (p : Fin 4) (id0 id1 : Bool)
  /-- RING_TRAINING_COMPLETE (R198): The device lane receives 64 TRAIN blocks with ORIGIN 0 and the ring lane enters UP. -/
  | ringTrainingComplete (r : Fin 16)
  /-- TRAIN_TMO (R199): The training timeout expires before the handshake and the lane returns to CDR. -/
  | trainTmo (n : Fin 24) (elapsed : Nat)
  /-- MARKER_LOCK (R201): Two ALIGN blocks 16,384 blocks apart give marker lock. -/
  | markerLock (n : Fin 24)
  /-- MARKER_LOCK_LOSS (R201): Four expected markers fail and marker lock is lost. -/
  | markerLockLoss (n : Fin 24)
  /-- DESKEW_COMPLETE (R202): Both lanes are marker-locked within the skew limit and the port enters UP. -/
  | deskewComplete (p : Fin 4) (skew : Nat) (later : Bool)
  /-- LANE_RATE_WRITE (R184): A rate write is accepted for the next CDR entry or refused with CFG_REJ. -/
  | laneRateWrite (n : Fin 24) (v : Fin 4)
  /-- LPM_REQUEST (R209): A low-power request sends EIDLE blocks and stops the transmitter, or is refused. -/
  | lpmRequest (n : Fin 24) (v : Fin 4)
  /-- EIDLE_RX (R210): An EIDLE block is received, so the following LOS enters IDLE_E or IDLE_D without a loss event. -/
  | eidleRx (n : Fin 24) (deep : Bool)
  /-- ELECTRICAL_IDLE_EXIT (R211): LPM = 0 or AUTO_WAKE starts a TRAIN burst and the lane returns to UP. -/
  | electricalIdleExit (n : Fin 24) (host burst : Bool)
  /-- DEEP_IDLE_EXIT (R212): An exit request from deep idle starts full bring-up through CDR. -/
  | deepIdleExit (n : Fin 24)
  /-- PRBS_GEN_EN (R213): Enabling the pattern generator puts the lane into PRBS, or is refused. -/
  | prbsGenEn (n : Fin 24) (on : Bool)
  /-- CHK_LOCK (R214): The checker sees 64 error-free bits and sets CHK_LOCK, or loses it on 64 errors in 1,024. -/
  | chkLock (n : Fin 24) (locked : Bool) (errors : Nat)
  /-- INJ_ONE (R215): INJ_ONE flips a single transmitted bit. -/
  | injOne (n : Fin 24)
  /-- INJ_RATE_FLIP (R215): The INJ_RATE interval elapses and one transmitted bit is flipped. -/
  | injRateFlip (n : Fin 24)
  /-- INJ_PAYLOAD (R215): LANE_INJ bit 0 flips one payload bit of the next data block. -/
  | injPayload (n : Fin 24)
  /-- INJ_SYNC_HEADER (R215): LANE_INJ bit 1 corrupts the sync header of the next block. -/
  | injSyncHeader (n : Fin 24)
  /-- MOD2W_START (R208): START in LANE_MOD2W begins a 2-wire access to the module. -/
  | mod2wStart (n : Fin 24)
  /-- MOD2W_DONE (R208): A 2-wire module access completes, clearing BUSY and setting NACK or data. -/
  | mod2wDone (n : Fin 24) (nack : Bool) (data : BitVec 8)
  /-- MODABS_CHANGE (R208): SL_MODABS changes level after its 10 ms filter. -/
  | modabsChange (n : Fin 24) (absent : Bool)
  /-- LANE_EQ_WRITE (R615): An equalisation code write takes effect within 1 µs without loss of lock, or is refused. -/
  | laneEqWrite (n : Fin 24) (v : Word)
  /-- SAMPLE_TRAIN_TX (R225): At SAMPLE_OFS the device sends the sample train of empty containers. -/
  | sampleTrainTx (r : Fin 16)
  /-- EDGE_FRAME_TX (R225): A queued edge frame is sent if it ends before the next tick edge, otherwise it waits. -/
  | edgeFrameTx (r : Fin 16) (at_ : Nat)
  /-- SERVICE_FRAME_TX (R263): A service frame is sent while no edge frame waits, at most one per ring per tick. -/
  | serviceFrameTx (r : Fin 16) (at_ : Nat)
  /-- TIDE_ECHO_RX (R229): The echo of a tide frame returns and the loop delay is measured and averaged. -/
  | tideEchoRx (r : Fin 16) (delay : Nat) (ok : Bool)
  /-- EDGE_ECHO_RX (R229): An echoed edge frame is compared with the frame sent and ECHO_ERR set on mismatch. -/
  | edgeEchoRx (r : Fin 16) (crcOk : Bool) (f : EdgeFrame)
  /-- ENUM_REPLY_RX (R235): The ENUM reply returns and the ring leaves ENUM if exactly N entries are filled. -/
  | enumReplyRx (r : Fin 16) (filled : Fin 17)
  /-- ENUM_ERR (R234): 16 ticks pass in ENUM without a matching reply and ENUM_ERR is set. -/
  | enumErr (r : Fin 16)
  /-- RING_READY (R234): Every node's configuration requests end OK or CAP_ERR and the ring enters READY. -/
  | ringReady (r : Fin 16)
  /-- SERVICE_REQUEST (R263): Host issues a service request through NRW_SVC_REQ GO or object 0x41xx:07. -/
  | serviceRequest (r : Fin 16) (obj : Option (Fin 16 × List Byte))
  /-- SERVICE_REPLY_RX (R263): A service reply is read from the echo, or retried if unanswered or failing its CRC. -/
  | serviceReplyRx (r : Fin 16) (i : Fin 16) (crcOk : Bool) (l : List Byte) (at_ : Nat)
  /-- SVC_TMO (R263): A request ends unanswered after 3 retries and SVC_TMO is set. -/
  | svcTmo (r : Fin 16) (i : Fin 16) (at_ : Nat)
  /-- ENUM (R235): A node receiving ENUM drops its number and writes its entry into the first free reply slot. -/
  | enum (r : Fin 16) (i : Fin 16) (b : Bool) (hd : FrameHdr) (q : SvcHead) (free : Fin 17)
  /-- IDENT (R261): A node answers IDENT with its identity, latency, t_prep, pairs and capabilities. -/
  | ident (r : Fin 16) (i : Fin 16) (b : Bool) (hd : FrameHdr) (q : SvcHead)
  /-- OFFSET (R231): A node accepts its offset d_i and applies it at its next tick edge. -/
  | offset (r : Fin 16) (i : Fin 16) (b : Bool) (hd : FrameHdr) (q : SvcHead) (v : BitVec 32)
  /-- NODE_CFG (R262): A node accepts one group of pair or node settings for its next tick edge, or answers BAD_ARG. -/
  | nodeCfg (r : Fin 16) (i : Fin 16) (b : Bool) (hd : FrameHdr) (q : SvcHead) (args : List Byte)
  /-- DRV_WR (R280): A node writes a driver address and returns the value read back, or refuses. -/
  | drvWr (r : Fin 16) (i : Fin 16) (b : Bool) (hd : FrameHdr) (q : SvcHead) (g : BitVec 8) (a : BitVec 16) (v : Word)
  /-- DRV_RD (R280): A node reads a driver address and returns its value. -/
  | drvRd (r : Fin 16) (i : Fin 16) (b : Bool) (hd : FrameHdr) (q : SvcHead) (g : BitVec 8) (a : BitVec 16)
  /-- SELFTEST (R285): A node tests the comparators of the masked gates and records the outcome, optionally sending an ALERT. -/
  | selftest (r : Fin 16) (i : Fin 16) (b : Bool) (hd : FrameHdr) (q : SvcHead) (mask : BitVec 12) (alertTest : Bool) (passed : BitVec 12)
  /-- STAT (R261): A node returns its counters. -/
  | stat (r : Fin 16) (i : Fin 16) (b : Bool) (hd : FrameHdr) (q : SvcHead) (code : BitVec 8)
  /-- ALERT_RX (R251): A valid ALERT is received, recorded and passed to the halt matrix. -/
  | alertRx (r : Fin 16) (node cause : BitVec 8) (gates : BitVec 12) (crcOk : Bool) (at_ : Nat)
  /-- HALT_ECHO_RX (R252): The echo of a HALT returns and is counted. -/
  | haltEchoRx (r : Fin 16) (node : BitVec 8) (loop : Nat)
  /-- HALT_ECHO_TIMEOUT (R252): A HALT does not return within D + 100 ns and ECHO_ERR is set. -/
  | haltEchoTimeout (r : Fin 16) (node : BitVec 8)
  /-- HALT_RELEASE (R278): A write to NRW_HREL clears a node's halt bit from the next header, or sets HREL_REJ. -/
  | haltRelease (r : Fin 16) (mask : BitVec 16) (at_ : Option Nat)
  /-- HALT_POLICY_WRITE (R274): A write to NRW_HPOL takes effect only in COMMISSION, otherwise sets POL_REJ. -/
  | haltPolicyWrite (r : Fin 16) (i : Fin 16) (v : Word)
  /-- DRV_CHECK_PERIOD (R282): The check period elapses and DRV_CHECK is read from every node of a READY ring. -/
  | drvCheckPeriod (r : Fin 16)
  /-- NODE_TICK_EDGE (R232): A node reaches its recovered tick edge and applies pending settings, offsets and enable changes. -/
  | nodeTickEdge (r : Fin 16) (i : Fin 16) (lostA lostB : Bool)
  /-- NODE_TIDE_HEADER_RX (R227): A node verifies a tide header, recovers the tick edge and applies safe-direction bits at once. -/
  | nodeTideHeaderRx (r : Fin 16) (i : Fin 16) (b : Bool) (hd : FrameHdr) (h : TideHdr) (arr : Nat)
  /-- NODE_EDGE_FRAME_RX (R243): A node receives an edge frame, checks it and applies its in-time records by coverage. -/
  | nodeEdgeFrameRx (r : Fin 16) (i : Fin 16) (b : Bool) (hd : FrameHdr) (f : EdgeFrame) (at_ : Nat)
  /-- NODE_HALT_RX (R253): A node receives a valid HALT, turns its gates off within 20 ns and enters HALTED. -/
  | nodeHaltRx (r : Fin 16) (i : Fin 16) (b : Bool) (target : BitVec 8) (byp : Bool) (par : Fin 4) (crc : BitVec 8) (at_ : Nat)
  /-- NODE_DRIVER_REPORT (R268): A driver report reaches the node's link logic and the node sends an ALERT. -/
  | nodeDriverReport (r : Fin 16) (i : Fin 16) (causes : Fin 8) (gates : BitVec 12) (stands : Bool)
  /-- NODE_SILENCE (R257): Two consecutive silent tick windows end and the node enters SAFE with cause SILENCE. -/
  | nodeSilence (r : Fin 16) (i : Fin 16)
  /-- NODE_ORPHAN (R259): N_orph windows pass without a MASTER header and the node enters SAFE with cause ORPHAN. -/
  | nodeOrphan (r : Fin 16) (i : Fin 16)
  /-- NODE_BOOTSTRAP_REFRESH (R249): An upper gate has been on for BS_MAX and the node forces a refresh. -/
  | nodeBootstrapRefresh (r : Fin 16) (i : Fin 16) (at_ : Nat)
  /-- HELLO_TIMER (R290): Every 1 ms each port in LINK, ISOLATED or ACTIVE sends a HELLO. -/
  | helloTimer (p : Fin 4)
  /-- HELLO_RX (R290): A HELLO is received and the port state advanced to ACTIVE or ISOLATED. -/
  | helloRx (p : Fin 4) (h : Hello) (crcOk : Bool)
  /-- NEIGHBOUR_TIMEOUT (R290): 3 ms pass without a valid HELLO and an ACTIVE port returns to LINK. -/
  | neighbourTimeout (p : Fin 4) (elapsed : Nat)
  /-- PORT_ADMIN_WRITE (R289): A write of ADMIN_DIS disables or re-enables a Strait port. -/
  | portAdminWrite (p : Fin 4) (v : Word)
  /-- LSA_RX (R303): An LSA is received and flooded if newer, otherwise discarded. -/
  | lsaRx (p : Fin 4) (l : Lsa) (crcOk : Bool)
  /-- LSA_REFRESH (R303): One second passes, or a change occurs, and the device originates its LSA. -/
  | lsaRefresh (second : Bool)
  /-- LSA_WITHDRAW (R303): An LSA not refreshed for 4 s is withdrawn. -/
  | lsaWithdraw (u : BitVec 64)
  /-- ROUTE_RECOMPUTE_DONE (R304): Route recomputation after a link-state change completes and the new table forwards. -/
  | routeRecomputeDone
  /-- LEASE_REQ (R294): A device without an address sends LEASE_REQ to the root once it has an ACTIVE port and a root. -/
  | leaseReq
  /-- LEASE_GRANT (R294): The root receives a LEASE_REQ and grants the lowest free dynamic address. -/
  | leaseGrant (u : BitVec 64)
  /-- LEASE_RX (R294): A device receives a LEASE and takes or keeps its address. -/
  | leaseRx (p : Fin 4) (u : BitVec 64) (a : BitVec 12) (time : Nat) (fromRoot crcOk : Bool)
  /-- LEASE_RENEWAL (R294): Half the lease has run and the holder renews. -/
  | leaseRenewal
  /-- LEASE_LOST (R294): A lease runs out unrenewed and the device is left without an address. -/
  | leaseLost
  /-- BECOME_ROOT (R299): A device is its own candidate at 8 consecutive edges without a root and becomes root. -/
  | becomeRoot
  /-- RESIGN (R301): RESIGN on the root gives up the role and advertises priority 255. -/
  | resign
  /-- EPOCH_RX (R302): An EPOCH ferry from the current root is received and adopted at k0. -/
  | epochRx (p : Fin 4) (m : EpochMsg) (crcOk : Bool)
  /-- PARTITION_HOLD_EXPIRY (R309): The partition hold time ends and the droop values are written, setting DROOP_ACT. -/
  | partitionHoldExpiry (src : BitVec 12) (elapsed at_ : Nat)
  /-- MERGE_RX (R312): A MERGE ferry with Δ, k_m and mode is received by the loser's root or devices. -/
  | mergeRx (p : Fin 4) (m : MergeMsg) (src : BitVec 64) (crcOk : Bool)
  /-- MERGE_COMPLETION (R314): The remainder is zero with 16 syncs within 5 ns and the loser's root broadcasts completion with k_d. -/
  | mergeCompletion (epoch : BitVec 16) (k0 period : Nat) (near : Bool)
  /-- FERRY_RX (R323): A ferry is received, checked and queued for forwarding or local delivery, or discarded. -/
  | ferryRx (p : Fin 4) (f : Ferry) (hdrOk lenOk trailerOk stomp : Bool) (at_ : Nat)
  /-- FERRY_TX_START (R325): At a ferry boundary the egress picks the next eligible ferry with enough credit and starts it. -/
  | ferryTxStart (p : Fin 4) (at_ : Nat)
  /-- CREDIT_RX (R329): A CREDIT block updates the sender's limit for a class. -/
  | creditRx (p c : Fin 4) (limit : BitVec 24) (crcOk : Bool)
  /-- CSYNC_RX (R329): A CSYNC block sets the receiver's received count for a class. -/
  | csyncRx (p c : Fin 4) (consumed : BitVec 24) (crcOk : Bool)
  /-- CREDIT_SEND (R328): The receiver sends CREDIT after freeing units or every 10 µs. -/
  | creditSend (p c : Fin 4) (at_ : Nat)
  /-- CSYNC_TIMER (R328): Every 100 µs the sender sends CSYNC for each class. -/
  | csyncTimer (p : Fin 4) (at_ : Nat)
  /-- CREDIT_TIMEOUT (R330): A waiting class gets no credit within the timeout; CSYNC is sent, or the port returns to LINK. -/
  | creditTimeout (p c : Fin 4) (elapsed at_ : Nat)
  /-- RESIDENCE_EXPIRY (R336): A ferry exceeds its class's residence limit and is discarded. -/
  | residenceExpiry (at_ : Nat)
  /-- CAP_ARM (R342): ARM arms a capture set, or is refused with CAP_REJ. -/
  | capArm (j : Fin 8)
  /-- CAP_TRIG_NOW (R343): TRIG_NOW triggers the capture set immediately. -/
  | capTrigNow (j : Fin 8)
  /-- CAP_RELEASE (R343): RELEASE returns a capture set to IDLE and frees its buffer. -/
  | capRelease (j : Fin 8)
  /-- CAP_TRIG_RX (R344): A CAP_TRIG ferry triggers an ARMED set with source FABRIC. -/
  | capTrigRx (kt : BitVec 48) (epoch : BitVec 16)
  /-- CAPTURE_HELD (R343): The post records are captured and the set enters HELD. -/
  | captureHeld (j : Fin 8)
  /-- CAP_DATA_TX (R345): A HELD set streams its next CAP_DATA ferry while its window has room. -/
  | capDataTx (j : Fin 8) (at_ : Nat)
  /-- CAP_ACK_RX (R345): A CAP_ACK acknowledges contiguous bytes and reopens the window. -/
  | capAckRx (j : Fin 8) (bytes : Nat)
  /-- CAP_RESEND (R345): Data unacknowledged for 100 ms is resent; after 8 fruitless resends STREAM_FAIL is set. -/
  | capResend (j : Fin 8)
  /-- DIC_REQ_RX (R347): A remote dictionary request is reassembled and executed with the target's own checks. -/
  | dicReqRx (src : BitVec 12) (id typ tx seq : Nat) (first last : Bool) (body : List Byte) (image : Option PlanImage) (crcOk : Bool) (at_ : Nat)
  /-- DIC_RSP_RX (R346): A gateway receives the reply to a forwarded request and returns it to the host. -/
  | dicRspRx (src : BitVec 12) (id seq : Nat) (first last : Bool) (body : List Byte) (crcOk : Bool)
  /-- REASSEMBLY_TIMEOUT (R346): More than 100 ms passes between ferries of a message and the partial message is discarded. -/
  | reassemblyTimeout (src : BitVec 12) (reply : Bool) (elapsed : Nat)
  /-- PAIR_HB_RX (R356): A partner heartbeat is received and its values held for the next edge. -/
  | pairHbRx (h : Heartbeat) (crcOk : Bool)
  /-- PAIR_DIG_RX (R358): A digest ferry is received and compared with the standby's own isle digests. -/
  | pairDigRx (tick first : Nat) (digests : List Nat) (crcOk : Bool)
  /-- PAIR_ALIVE_IN_TRANSITION (R362): A filtered transition on PAIR_ALIVE_IN is seen. -/
  | pairAliveInTransition
  /-- PARTNER_LOST (R362): Two windows pass without alive transition or heartbeat, or RELINQUISH arrives, and the partner is declared lost. -/
  | partnerLost
  /-- MIR_CFG_RX (R359): A MIR_CFG ferry is received and its entries, images and commit requests applied in order. -/
  | mirCfgRx (items : List MirItem) (crcOk : Bool) (at_ : Nat)
  /-- MIR_CFG_IDLE_TIMER (R359): With nothing to send for 10 ms the active device sends an empty MIR_CFG. -/
  | mirCfgIdleTimer (at_ : Nat)
  /-- MIRROR_AGE_EXPIRY (R361): The mirror age exceeds its limit and the standby leaves TAKE_READY. -/
  | mirrorAgeExpiry (at_ : Nat)
  /-- REVERT_HOLDOFF_EXPIRY (R365): A preferred standby has been TAKE_READY for the hold-off and sends REVERT_REQ. -/
  | revertHoldoffExpiry
  /-- REVERT_REQ_RX (R365): The active device receives REVERT_REQ and answers REVERT_ACK if conditions hold. -/
  | revertReqRx (kh : BitVec 48) (crcOk : Bool)
  /-- REVERT_ACK_RX (R365): The preferred device receives REVERT_ACK and will take control at k_h. -/
  | revertAckRx (kh : BitVec 48) (crcOk : Bool)
  /-- REVERT_FAIL (R365): No acknowledgement arrives by k_h − 1; the request lapses and the hold-off restarts. -/
  | revertFail
  /-- SWITCH (R367): A host switchover command on the active device runs the hand-back sequence, or is refused. -/
  | switch
  /-- SFI_ACCEPT (R377): A safety input contact holds a new level for the filter time and the level is accepted. -/
  | sfiAccept (ch : Bool) (i : Fin 8) (b lvl : Bool)
  /-- DISCREPANCY_FAULT (R379): The discrepancy window ends without the second contact and a discrepancy fault is declared. -/
  | discrepancyFault (ch : Bool) (i : Fin 8) (elapsed : Nat)
  /-- STO_TEST_PULSE (R374): Every 50 ms an active STO output is pulsed low for 300 ns and read back. -/
  | stoTestPulse (ch : Bool) (p : Fin 4) (stuck : Bool)
  /-- READBACK_MISMATCH (R374): An STO pad reads differently from its command for 1 µs and a class A fault is raised. -/
  | readbackMismatch (elapsed : Nat)
  /-- SS1_TIMER_EXPIRY (R384): t_SS1 expires and the channel drives its STO output inactive. -/
  | ss1TimerExpiry (ch : Bool) (p : Fin 4) (elapsed : Nat)
  /-- SAFETY_SPEED_CHECK (R386): The safety core checks a speed value against v_SLS and the SS1-r ramp and standstill. -/
  | safetySpeedCheck (p : Fin 4) (elapsed : Nat)
  /-- SKERRY_SLS_WINDOW (R386): A 1 ms Skerry window ends and is judged against n_SLS_B. -/
  | skerrySlsWindow (p : Fin 4) (edges : Nat)
  /-- XCHK (R389): The two channels' requests or demands differ for 10 ms and a class A fault is raised. -/
  | xchk (elapsed : Nat)
  /-- WDG (R388): The safety-core heartbeat to Skerry is missing for 2 ms and a class A fault is raised. -/
  | wdg (elapsed : Nat)
  /-- SKERRY_SELF_CHECK (R388): Every 10 ms Skerry checks its timers and counters against SKOSC. -/
  | skerrySelfCheck (failed : Bool)
  /-- LOCKSTEP_MISMATCH (R388): The lockstep comparison in the safety core fails and a class A fault is raised. -/
  | lockstepMismatch
  /-- HOST_RESET (R383): A host reset through 0x5200:0A resets the restart interlock of ports with HOST_RESET, if no stop cause stands. -/
  | hostReset (mask : BitVec 4)
  /-- SPB_WRITE (R399): In COMMISSION an SPB is written and both channels compute its check value. -/
  | spbWrite (l : List Byte)
  /-- CONFIRM (R400): Writing the check value requests confirmation and starts the fuse burn, or is refused. -/
  | confirm (o : Origin) (v : Word)
  /-- FUSE_BURN_DONE (R400): The burn ends, the bank is read back and checked, and the result is returned and journalled. -/
  | fuseBurnDone (taken : List Byte)
  /-- CLASS_B_ACK (R393): Host acknowledges class B fault bits whose cause has cleared. -/
  | classBAck (mask : Word)
  /-- MV_LOSS (R390): The MV monitor slot stays below U_MV_MIN for t_MV and every string is commanded SAFE. -/
  | mvLoss (elapsed : Nat)
  /-- EN_REQ_WRITE (R408): A write of EN_REQ arms or turns off a motor port, or forms part of an enable toggle. -/
  | enReqWrite (p : Fin 4) (en : Bool)
  /-- PORT_SETTING_WRITE (R409): A write to a port setting takes effect only while the port is OFF and valid, else CFG_REJ. -/
  | portSettingWrite (p : Fin 4) (off : Fin 76) (v : Word)
  /-- PORT_WAKE (R428): At WAKE_OFS the port writes its inputs and sets VALID in its port isle's mailbox. -/
  | portWake (p : Fin 4)
  /-- LATCH_EVENT (R412): At R − 64 counts the port samples its slots and computes the compares for reload point R. -/
  | latchEvent (p : Fin 4) (at_ : Nat)
  /-- RELOAD_POINT (R411): A port reload point is reached and the latched compares govern the following transitions. -/
  | reloadPoint (p : Fin 4) (at_ : Nat)
  /-- T_BSC_EXPIRY (R408): t_bsc elapses in CHARGE and the port enters RUN at the next reload point. -/
  | tBscExpiry (p : Fin 4) (elapsed : Nat)
  /-- TRIP_ACCEPT (R425): An enabled trip input is accepted active; gates and enable go low and the port enters FAULT. -/
  | tripAccept (p : Fin 4) (i : Fin 2) (lvl : Bool)
  /-- FAULT_INPUT_ACCEPT (R426): MP_p_FLT is accepted at a new level, readying the port or faulting it. -/
  | faultInputAccept (p : Fin 4) (lvl : Bool) (at_ : Nat)
  /-- READY_TIMEOUT (R426): The ready timeout expires before the fault input is accepted inactive and the port enters FAULT NOT_READY. -/
  | readyTimeout (p : Fin 4) (elapsed : Nat)
  /-- TOGGLE_COMPLETE (R427): t_tog ends after EN_REQ went 0 and back to 1, and a faulted port enters ARMED. -/
  | toggleComplete (p : Fin 4) (elapsed : Nat)
  /-- BOOTSTRAP_REFRESH (R421): A phase's count reaches BS_MAX and a refresh notch is forced at the next valley. -/
  | bootstrapRefresh (p : Fin 4) (x : Fin 3) (at_ : Nat)
  /-- DELAY_LINE_CALIBRATION (R419): Every 100 µs the delay-line calibration runs and writes new tap tables, or sets DL_ERR. -/
  | delayLineCalibration (p : Fin 4) (span : Nat)
  /-- QUAD_EDGE (R437): An A or B change is accepted and counted as a quadrature edge. -/
  | quadEdge (f : Fin 4) (a b : Bool) (at_ : Nat)
  /-- SINCOS_SAMPLE (R439): Every 2 µs the sine/cosine pair is sampled, corrected and interpolated. -/
  | sincosSample (f : Fin 4) (sn cs : BitVec 16) (at_ : Nat)
  /-- AMP_ERR (R441): The amplitude leaves its window for 4 samples and AMP_ERR is set. -/
  | ampErr (f : Fin 4)
  /-- AMP_ERR_CLEAR (R441): 500 consecutive samples inside the window clear AMP_ERR. -/
  | ampErrClear (f : Fin 4)
  /-- CABLE_FLT (R441): The amplitude or RS-422 input falls below its threshold and CABLE_FLT is latched. -/
  | cableFlt (f : Fin 4) (elapsed : Nat)
  /-- SSI_FRAME_START (R444): SSI_LEAD before a due tick edge the device starts an SSI clock frame. -/
  | ssiFrameStart (f : Fin 4) (at_ : Nat)
  /-- SSI_FRAME_END (R443): An SSI frame ends; it is validated and the position loaded, updated or compared. -/
  | ssiFrameEnd (f : Fin 4) (before low : Bool) (data : BitVec 32) (errBit parBit high : Bool)
  /-- SSI_FLT (R446): Three consecutive invalid or rejected frames latch SSI_FLT and clear REF_OK. -/
  | ssiFlt (f : Fin 4)
  /-- INDEX_EVENT (R450): An index event references the position or checks it for slip and corrects it. -/
  | indexEvent (f : Fin 4) (z : Bool)
  /-- REF_ARM (R451): REF_ARM arms referencing at the next index event or SSI load. -/
  | refArm (f : Fin 4)
  /-- SET (R449): SET loads ENC_POS_SET into the counter and sets REF_OK. -/
  | set (f : Fin 4)
  /-- ENC_FLT_CLR (R446): FLT_CLR clears CABLE_FLT and SSI_FLT whose cause is absent. -/
  | encFltClr (f : Fin 4) (cablePresent : Bool)
  /-- ENC_MODE_WRITE (R435): A MODE write is accepted, clearing REF_OK and speed history, or refused. -/
  | encModeWrite (f : Fin 4) (m : Fin 8)
  /-- STANDSTILL (R457): No position change for the standstill time; speed becomes 0 and STANDSTILL is set. -/
  | standstill (f : Fin 4) (at_ : Nat)
  /-- SEQUENCE_START (R470): SEQ_LEAD before the tick edge the ADC sequencer starts its steps. -/
  | sequenceStart (at_ : Nat)
  /-- CONVERSION_END (R473): A conversion completes and its result is averaged and corrected into the slot. -/
  | conversionEnd (n : Fin 32) (code : BitVec 16)
  /-- CONVERSION_TIMEOUT (R472): A conversion does not end within 40 counts; the slot is invalid and the converter reset. -/
  | conversionTimeout (n : Fin 32) (at_ : Nat)
  /-- ADC_STALE (R476): A slot's age reaches AGE_LIM and STALE is set. -/
  | adcStale (n : Fin 32)
  /-- CAL_ZERO (R481): CAL_ZERO starts a zero calibration of the slot. -/
  | calZero (n : Fin 32)
  /-- CAL_FS (R481): CAL_FS with v_fs starts a full-scale calibration of the slot. -/
  | calFs (n : Fin 32) (vfs : BitVec 16)
  /-- CAL_ABORT (R481): CAL_ABORT ends a calibration without change. -/
  | calAbort (n : Fin 32)
  /-- CAL_DONE (R481): 64 valid sequences are averaged and Z or the gain is set, or CAL_ERR. -/
  | calDone (n : Fin 32)
  /-- CAL_TIMEOUT (R481): 256 ticks pass without 64 valid sequences and CAL_ERR is set. -/
  | calTimeout (n : Fin 32)
  /-- ADC_FLT_CLR (R472): FLT_CLR_0 or FLT_CLR_1 clears a converter's CONV_FLT. -/
  | adcFltClr (c0 c1 : Bool)
  /-- REF_SEL_WRITE (R468): A change of REF_SEL takes effect at the next sequence and clears REF_SETTLED. -/
  | refSelWrite (v : Fin 4)
  /-- REF_SETTLED (R468): The reference stays in its window for 1 ms and REF_SETTLED is set. -/
  | refSettled (elapsed : Nat)
  /-- REF_ERR (R468): A settled reference leaves its window; REF_ERR is set and REF_SETTLED cleared. -/
  | refErr
  /-- SESSION_OPEN (R500): A SESSION_OPEN is authenticated and a session with derived key opened, or refused. -/
  | sessionOpen (m : HbMsg) (at_ : Nat)
  /-- SESSION_CLOSE (R502): SESSION_CLOSE closes the session and aborts its open transaction. -/
  | sessionClose (m : HbMsg) (at_ : Nat)
  /-- KEEPALIVE (R498): KEEPALIVE refreshes the session and returns the last tick edge's TIME64. -/
  | keepalive (m : HbMsg) (at_ : Nat)
  /-- READ (R498): A READ returns up to 32 entries with their values. -/
  | read (m : HbMsg) (at_ : Nat)
  /-- WRITE (R491): A WRITE is checked in order, journalled and applied, or refused with its code. -/
  | write (m : HbMsg) (at_ : Nat)
  /-- TX_OPEN (R506): TX_OPEN opens a transaction and returns its ID. -/
  | txOpen (m : HbMsg) (at_ : Nat)
  /-- TX_WRITE (R507): TX_WRITE checks an entry and buffers it in the transaction. -/
  | txWrite (m : HbMsg) (image : Option PlanImage) (at_ : Nat)
  /-- TX_COMMIT (R508): TX_COMMIT rechecks all entries and applies them all or none. -/
  | txCommit (m : HbMsg) (at_ : Nat)
  /-- TX_ABORT (R508): TX_ABORT discards the buffered entries and closes the transaction. -/
  | txAbort (m : HbMsg) (at_ : Nat)
  /-- SESSION_IDLE_EXPIRY (R502): A session's idle time passes without an accepted message and it closes. -/
  | sessionIdleExpiry (sid elapsed : Nat)
  /-- TRANSACTION_TIMEOUT (R507): No message arrives for an open transaction within its timeout and it is aborted. -/
  | transactionTimeout (tx elapsed : Nat)
  /-- LOCKOUT (R501): 16 authentication failures in 1 s ban SESSION_OPEN from that address for 10 s. -/
  | lockout (ip at_ : Nat)
  /-- LOCKOUT_EXPIRY (R501): The 10 s ban ends and LOCKOUT clears. -/
  | lockoutExpiry (ip elapsed : Nat)
  /-- HARBOUR_PART_TIMEOUT (R499): More than 100 ms passes between parts of a value and the partial value is discarded. -/
  | harbourPartTimeout (sid elapsed : Nat)
  /-- REMOTE_TIMEOUT (R505): No DIC_RSP arrives within 1 s and the gateway answers 0x0A10_0008. -/
  | remoteTimeout (id elapsed : Nat)
  /-- PUBLICATION_TX (R510): At a tick with k mod period = 0 a publication is sampled and sent to its destinations. -/
  | publicationTx (p : Fin 64)
  /-- PUB_RX (R512): A PUB ferry is received and its fields written to the subscription targets. -/
  | pubRx (src : BitVec 12) (body : List Byte) (crcOk : Bool) (at_ : Nat)
  /-- SUBSCRIPTION_STALE (R513): A subscription's age limit passes or its route is lost and it holds its values. -/
  | subscriptionStale (q : Fin 64) (periods : Nat)
  /-- SUBSCRIPTION_HOLD_END (R513): The partition hold of a stale subscription ends and its droop values are written. -/
  | subscriptionHoldEnd (q : Fin 64) (elapsed at_ : Nat)
  /-- ETHERNET_FRAME_RX (R497): An Ethernet frame is received and answered by ARP, ICMP or NDP, or discarded. -/
  | ethernetFrameRx (f : EthFrame)
  /-- USDO_REQUEST (R515): A CANopen FD USDO request reads or writes an entry under the dictionary checks. -/
  | usdoRequest (node cob : Nat) (write : Bool) (ix sub typ : Nat) (value : List Byte) (image : Option PlanImage) (at_ : Nat)
  /-- RPDO_RX (R516): An RPDO writes its mapped objects, or is discarded while CAN writes are disabled. -/
  | rpdoRx (cob : Nat) (data : List Byte) (at_ : Nat)
  /-- RPDO_TMO (R517): No RPDO arrives within its event time; RPDO_TMO is set and an EMCY sent. -/
  | rpdoTmo (n : Fin 8) (elapsed : Nat)
  /-- NMT_COMMAND (R514): An NMT command changes the CANopen state of the port. -/
  | nmtCommand (cmd node : Nat)
  /-- SYNC_RX (R514): A CAN SYNC is received and synchronous TPDOs are sent. -/
  | syncRx (at_ : Nat)
  /-- TPDO_EVENT_TIMER (R514): A TPDO event timer expires and the TPDO is sent. -/
  | tpdoEventTimer (n : Fin 8) (elapsed at_ : Nat)
  /-- HEARTBEAT_TX (R514): The CANopen heartbeat time elapses and a heartbeat is produced. -/
  | heartbeatTx (elapsed : Nat)
  /-- BUS_OFF_RECOVERY (R514): The CAN FD port recovers from bus-off as ISO 11898-1 specifies. -/
  | busOffRecovery (occurrences : Nat)
  /-- DEVICE_RESET (R518): A write of 0x5254 to 0x2000:03 resets the device into BOOT after the response. -/
  | deviceReset (v : Word)
  /-- MODE_COMMAND (R571): A mode request through 0x2000:02 is accepted for the next tick edge or refused with MODE_REJ. -/
  | modeCommand (v : BitVec 8)
  /-- DORMANT_REQ (R571): A dormant request takes the device to DORMANT if every string and port is idle. -/
  | dormantReq
  /-- REGISTER_WINDOW_READ (R519): A read of 0x5F00:02 performs a register read at the address in 0x5F00:01. -/
  | registerWindowRead (at_ : Nat)
  /-- REGISTER_WINDOW_WRITE (R519): A write of 0x5F00:02 performs a register write in COMMISSION, or is refused. -/
  | registerWindowWrite (o : Origin) (v : Word) (at_ : Nat)
  /-- FLUSH_TIMER (R535): The flush period elapses, or 64 entries wait, and a journal flush starts. -/
  | flushTimer (elapsed : Nat)
  /-- FLUSH_NOW (R535): FLUSH_NOW starts a journal flush. -/
  | flushNow
  /-- FLUSH_PAGE_DONE (R535): A flash page is programmed and read back, or FLUSH_ERR is set. -/
  | flushPageDone (ok : Bool)
  /-- REGISTER_WRITE (R557): A bus write to a register with no row of its own is checked and stored, or ends in a bus error. -/
  | registerWrite (x : Access) (at_ : Nat)
  /-- RC_READ (R549): A read of an RC field returns its value and clears it in the same access. -/
  | rcRead (x : Access) (at_ : Nat)
  /-- PAIR_LOW_READ (R553): A read of the low word of a designated 64-bit pair latches the high word. -/
  | pairLowRead (x : Access) (at_ : Nat)
  /-- DOMAIN_STALL_TIMEOUT (R559): An access to an unpowered domain stalls 4,096 cycles and ends in DOMAIN_OFF. -/
  | domainStallTimeout (elapsed at_ : Nat)
  /-- CFC_SWEEP_START (R563): Every 1,000th HCLK edge a configuration sweep starts. -/
  | cfcSweepStart
  /-- CFC_SWEEP_DONE (R564): A sweep completes and its CRC is compared with CFC_REF if judged. -/
  | cfcSweepDone (time : Nat)
  /-- CFC_COMMIT (R565): COMMIT captures the next sweep as the configuration reference. -/
  | cfcCommit
  /-- CFC_REF_WRITE (R565): A write of CFC_REF stores the reference and sets REF_VALID. -/
  | cfcRefWrite (v : Word)
  /-- HOLD_TMO (R566): HOLD stands for 100 ms with a valid reference and HOLD_TMO is set. -/
  | holdTmo (elapsed : Nat)
  /-- VDD_AON_UP (R571): VDD_AON reaches its window and the device enters DORMANT. -/
  | vddAonUp
  /-- POWER_GOOD (R575): Every monitored rail is in window for 1 ms with RESET_N high and BOOT begins. -/
  | powerGood (elapsed : Nat)
  /-- BOOT_STAGE_DONE (R575): A boot stage of Table MPT-3 completes and the next begins, or BOOT ends. -/
  | bootStageDone (e : BootEvent)
  /-- BOOT_RETRY (R576): 10 s after a boot failure the device repeats BOOT from power-good. -/
  | bootRetry (elapsed : Nat)
  /-- BROWNOUT (R587): A rail stays outside its window for 2 µs; outputs go off, domains are removed and the device enters DORMANT. -/
  | brownout (elapsed : Nat)
  /-- RESET_N_EDGE (R614): A rising edge on RESET_N after a low of at least 1 µs starts BOOT. -/
  | resetNEdge (low : Nat)
  /-- WAKE_TIMER (R574): The wake timer expires in DORMANT and the device leaves through power-good. -/
  | wakeTimer (elapsed : Nat)
  /-- DOMAIN_REQUEST (R584): A domain request powers or removes PD_4 to PD_11, or is refused with DOM_REJ. -/
  | domainRequest (v : Word) (at_ : Nat)
  /-- DOMAIN_RELEASED (R585): A domain reaches power-good, its memories are initialised and isolation is released. -/
  | domainReleased (at_ : Nat)
  /-- HOUSEKEEPING_ROUND (R588): Every 1 ms the housekeeping round measures temperatures, rails and oscillators. -/
  | housekeepingRound (v : List Int) (vpp : Bool)
  /-- THERMAL_WARNING (R590): Tj reaches T_warn in 2 consecutive rounds, or sensors fail, and the warning is set. -/
  | thermalWarning
  /-- THERMAL_WARNING_CLEAR (R590): Tj stays below T_warn − 5 °C for 10 rounds and the warning clears. -/
  | thermalWarningClear
  /-- THERMAL_SHUTDOWN (R591): A comparator sensor reads 140 °C for 10 µs; outputs go off and a broadcast HALT with BYPASS is sent. -/
  | thermalShutdown (elapsed : Nat)
  /-- THERMAL_LANE_STOP (R591): 2 µs after the thermal trip all lanes stop transmitting. -/
  | thermalLaneStop
  /-- THERMAL_DOMAIN_REMOVE (R591): 5 µs after the thermal trip PD_2 to PD_11 are isolated and removed. -/
  | thermalDomainRemove
  /-- THERMAL_RELEASE (R592): Both comparator sensors read below 120 °C for 1 s and the device enters BOOT with cause THERMAL. -/
  | thermalRelease (elapsed : Nat)
  /-- HARBOUR_KEY_WRITE (R583): In COMMISSION a 32-byte Harbour key is staged for the next confirmation. -/
  | harbourKeyWrite (k : List Byte)
  /-- NODE_SAMPLE_TRAIN_RX (R238): A node receives the sample train and writes its record, status word and CRC into the container bearing its node number, setting FILLED. -/
  | nodeSampleTrainRx (r : Fin 16) (i : Fin 16) (b : Bool) (hd : FrameHdr) (avg inst : List Int) (temp : BitVec 8) (ready : Bool)
  /-- VDD_AON_LOSS (R533): VDD_AON falls below its power-on threshold; the device loses all power and the PD_0 retention latch is cleared, so the next BOOT reinitialises the journal. -/
  | vddAonLoss
  /-- ETHERNET_LINK_CHANGE (R497): The 1000BASE-X link comes up or goes down after Clause 37 auto-negotiation, and HBR_STAT.LINK follows. -/
  | ethernetLinkChange (up : Bool)
  /-- CAN_BUS_OFF (R514): The CAN FD controller's error counters reach the ISO 11898-1 bus-off limit and CAN_BUSOFF is set. -/
  | canBusOff
  /-- JTAG_INSTRUCTION_LOAD (R547): An instruction is loaded into the TAP; EXTEST or CLAMP is accepted only in COMMISSION with every string and port OFF, BYPASS is loaded otherwise, and JTAG_LOCK leaves boundary scan only. -/
  | jtagInstructionLoad (ins : Fin 5)
  /-- RESERVED_ADDRESS_RELEASE (R310): The last advertised remaining lease of an unreachable device runs out at the root, and its reserved dynamic address becomes free for grant. -/
  | reservedAddressRelease (a : BitVec 12)
  deriving DecidableEq, Repr

end Sys2Proof
end

