-- ==== Sys2Proof/Config.lean ====
section
/-! DEFINITION. What one device fixes and the values the spec leaves open. The open values are opaque: nothing can be
proved of them beyond their type, so a statement about the block holds for each of them. -/
namespace Sys2Proof.Config

/-- The n-th value that the spec leaves open (a random draw, a steering figure it gives no rule for). The state
counts the draws (`Dev.draws`); logged as free values. -/
opaque freeValue : Nat → Nat

/-- The deviation of the DAB table from the exact value, for the operands p*, v1, v2 (04 R122: within ±4 LSB). -/
opaque dabDeviation : Int → Int → Int → Int

/-- The deviation of the port sine table from the exact sine, for an angle of 16 bits (14 R414: ±2 LSB). -/
opaque sineDeviation : Nat → Int

/-- The deviation of the sine/cosine interpolation, for the two corrected samples (15 Table FBK-3: ±4 counts). -/
opaque interpDeviation : Int → Int → Int

/-- The rounding of a quotient to which the spec gives none (15 R453, R454): odd for up. -/
opaque speedRounding : Nat → Nat → Nat

/-- The UID that the factory burned (00 R7). -/
opaque uid : Nat

/-- The firmware key hash that the factory burned (20 Table MPT-5), 15 bytes. -/
opaque keyHash : Nat

/-- The 29 identity bytes of the node at a place of a ring (08 Table NRW-12), as one little-endian number. -/
opaque nodeIdent : Nat → Nat

/-- The driver identity and the node-defined status bits of a gate's driver (09 Table GDS-6), by node, gate and address. -/
opaque nodeDriver : Nat → Nat → Nat → Nat

/-- DRV_CHECK of one driver for the configuration it holds (09 Table GDS-6): the driver's maker fixes the bytes it covers. -/
opaque driverCheck : List (Nat × Word) → Nat

/-- The bytes of a ferry's body whose layout the spec does not give (11 Table FTR-2: the types without a payload table), by place. -/
opaque bodyByte : Msg → Nat → BitVec 8

/-- The ASCII code of the silicon revision letter (00 R6, R7). -/
opaque revision : Nat

/-- The bytes of the staged plan image (03 R85: its outer format has no layout here), by its generation. -/
opaque planBytes : Nat → List (BitVec 8)

end Sys2Proof.Config
end

