-- ==== Sys2Proof/Machine/Tables.lean ====
section
/-! DEFINITION. Sparse tables in canonical form and the bit fields of a register word. A table reads
as `dflt k` at a key it does not list; a write of that very value removes the entry, so that two tables that read
alike everywhere are the same data. -/
namespace Sys2Proof.Machine

/-- What the table holds at key `k`. -/
def tget {α : Type} (dflt : Nat → α) : Table α → Nat → α
  | [], k => dflt k
  | (j, v) :: t, k => if k = j then v else tget dflt t k

/-- The table without key `k`. -/
def terase {α : Type} : Table α → Nat → Table α
  | [], _ => []
  | (j, v) :: t, k => if k = j then terase t k else (j, v) :: terase t k

/-- Put `v` at key `k` before the first larger key. -/
def tinsert {α : Type} : Table α → Nat → α → Table α
  | [], k, v => [(k, v)]
  | (j, u) :: t, k, v => if k < j then (k, v) :: (j, u) :: t else (j, u) :: tinsert t k v

/-- Write `v` at key `k`, keeping the canonical form. -/
def tput {α : Type} [DecidableEq α] (dflt : Nat → α) (t : Table α) (k : Nat) (v : α) : Table α :=
  if v = dflt k then terase t k else tinsert (terase t k) k v

/-- Change what key `k` holds. -/
def tmod {α : Type} [DecidableEq α] (dflt : Nat → α) (t : Table α) (k : Nat) (f : α → α) : Table α :=
  tput dflt t k (f (tget dflt t k))

/-- The canonical form: keys strictly rising, no entry equal to the default. -/
def twf {α : Type} [DecidableEq α] (dflt : Nat → α) : Table α → Bool
  | [] => true
  | (j, v) :: t => (v != dflt j) && (t.all fun e => j < e.1) && twf dflt t

/-- The mask of the `n` bits from `lo` up. -/
def fmask (lo n : Nat) : Word := BitVec.ofNat 32 (2 ^ n - 1) <<< lo

/-- The field [lo+n-1:lo] of a word, as a number (00 R12). -/
def fget (w : Word) (lo n : Nat) : Nat := (w >>> lo).toNat % 2 ^ n

/-- The word with the field [lo+n-1:lo] set to `v`, taken modulo the field's width. -/
def fset (w : Word) (lo n v : Nat) : Word :=
  (w &&& ~~~ fmask lo n) ||| (BitVec.ofNat 32 (v % 2 ^ n) <<< lo)

/-- A field read as a signed number (two's complement). -/
def signed (n v : Nat) : Int := if v < 2 ^ (n - 1) then v else (v : Int) - 2 ^ n

/-- A signed number as the two's complement field of `n` bits that holds it, modulo 2^n. -/
def unsigned (n : Nat) (v : Int) : Nat := (v % (2 ^ n : Int)).toNat

/-- A count that stops at the largest value of `n` bits. -/
def satAdd (n a b : Nat) : Nat := min (a + b) (2 ^ n - 1)

/-- A signed value held within `n` bits (04 R99: saturation). -/
def satS (n : Nat) (v : Int) : Int := max (-(2 ^ (n - 1) : Int)) (min v (2 ^ (n - 1) - 1))

/-- 1 for true, 0 for false. -/
def b2n (b : Bool) : Nat := if b then 1 else 0

/-- Apply `f` for each number below `n`, in rising order. -/
def forUpTo {σ : Type} (n : Nat) (f : Nat → σ → σ) (s : σ) : σ := (List.range n).foldl (fun a i => f i a) s

/-- Apply `f` for each member of the list, in its order. -/
def forEach {α σ : Type} (l : List α) (f : α → σ → σ) (s : σ) : σ := l.foldl (fun a x => f x a) s

/-- `f s` where the condition holds, else `s`. -/
def whenDo {σ : Type} (c : Bool) (f : σ → σ) (s : σ) : σ := if c then f s else s

/-- The bit `i` of a number. -/
def nbit (v i : Nat) : Bool := v.testBit i

/-- The number `v` with bit `i` as given. -/
def nsetBit (v i : Nat) (b : Bool) : Nat :=
  if v.testBit i = b then v else if b then v + 2 ^ i else v - 2 ^ i

/-- How many of the first `n` bits of `v` are set. -/
def popCount (n v : Nat) : Nat := (List.range n).countP fun i => v.testBit i

end Sys2Proof.Machine
end

