-- ==== Sys2Proof/Machine/RegMap.lean ====
section
/-! DEFINITION. The register map: the block windows and their decoding (19 R554, Table REG-4), the access codes
(19 R548, Table REG-2), and every register of every chapter's register table with its reset value and the
fields that are not plain RO. -/
namespace Sys2Proof.Machine

/-- The blocks of Table REG-4 (19 R554). -/
inductive Blk where
  | sys | pwr | thm | fuse | cfc | tide | isl | islc | nrw | stp | lane | srt | srts | mpo | enc | adc | adcs
  | saf | jrn | hbr | red
  deriving DecidableEq, Repr

/-- Access codes of Table REG-2 (19 R548). `rx` is RW left out of the configuration check (Table REG-6);
`q` marks a field whose access advances a queue, so that its register is not RMW-safe (R552). -/
inductive Acc where
  | ro | rw | rx | wo | w1c | w1s | wt | rc | q
  deriving DecidableEq, Repr

/-- A field of a register table: code, lowest bit, width. -/
structure RegField where
  acc : Acc
  lo : Nat
  width : Nat
  deriving DecidableEq, Repr

/-- A register: its offset within its instance, its reset value and its fields other than plain RO ones. -/
structure RegDef where
  off : Nat
  reset : Word
  fields : List RegField
  deriving DecidableEq, Repr

/-- Where an address leads: block, instance and register offset (19 R554). -/
structure Loc where
  blk : Blk
  inst : Nat
  off : Nat
  deriving DecidableEq, Repr

def rRw (lo w : Nat) : RegField := ⟨.rw, lo, w⟩
def rRx (lo w : Nat) : RegField := ⟨.rx, lo, w⟩
def rW1c (lo w : Nat) : RegField := ⟨.w1c, lo, w⟩
def rWt (lo w : Nat) : RegField := ⟨.wt, lo, w⟩
def rRc (lo w : Nat) : RegField := ⟨.rc, lo, w⟩

/-- `n` registers of one definition, `stride` apart. -/
def regArr (n stride : Nat) (d : RegDef) : List RegDef :=
  (List.range n).map fun i => { d with off := d.off + i * stride }

/-- SYS: Tables REG-8, ARC-10, ARC-11 and SYS_ECC_ADDR (19 R569, 01 R33, R34). -/
def regsSys : List RegDef :=
  [⟨0x000, 0, []⟩, ⟨0x100, 0, []⟩, ⟨0x104, 0, [rW1c 16 1, rW1c 17 1]⟩,
   ⟨0x108, 0, [rRc 0 16, rRc 16 8, rRc 24 8]⟩, ⟨0x140, 0, [rW1c 0 5, rW1c 8 5]⟩, ⟨0x148, 0, []⟩]
  ++ regArr 5 4 ⟨0x150, 0, [rRc 0 16, rRc 16 8, rRc 24 8]⟩

/-- PWR: Table MPT-9 (20 R594). -/
def regsPwr : List RegDef :=
  [⟨0x000, 0, [rRw 0 1, rWt 1 1]⟩, ⟨0x004, 0, [rW1c 15 1, rW1c 16 1, rW1c 18 1]⟩, ⟨0x008, 0, [rRw 4 8]⟩,
   ⟨0x00C, 3, []⟩, ⟨0x010, 0, [rRw 0 16]⟩, ⟨0x014, 0, []⟩,
   ⟨0x018, 0, [rRc 0 8, rRc 8 8, rRc 16 8, rRc 24 8]⟩]
  ++ regArr 8 4 ⟨0x020, 0, []⟩

/-- THM: Table MPT-11. -/
def regsThm : List RegDef :=
  [⟨0x000, 0x73, [rRw 0 8]⟩, ⟨0x004, 8, [rW1c 1 1, rW1c 4 1, rW1c 5 1, rW1c 6 1]⟩]
  ++ regArr 8 4 ⟨0x008, 0, []⟩
  ++ [⟨0x028, 0, []⟩, ⟨0x02C, 0, []⟩, ⟨0x030, 0x002D0000, [rRw 0 6, rRw 8 16]⟩]
  ++ regArr 4 4 ⟨0x034, 0, [rRw 0 32]⟩
  ++ [⟨0x044, 0, [rRw 0 16]⟩, ⟨0x048, 0, []⟩, ⟨0x04C, 0, [rRc 0 8, rRc 8 8, rRc 16 8]⟩]

/-- FUSE: Table MPT-13. -/
def regsFuse : List RegDef :=
  regArr 4 0x100 ⟨0x000, 0, []⟩ ++ [⟨0x800, 0, []⟩, ⟨0x804, 0, []⟩, ⟨0x808, 0, []⟩, ⟨0x80C, 0, []⟩]

/-- CFC: Table REG-9. -/
def regsCfc : List RegDef :=
  [⟨0x000, 1, [rRw 0 1, rWt 1 1]⟩, ⟨0x004, 0, [rW1c 3 1, rW1c 4 1]⟩, ⟨0x008, 0, [rRw 0 32]⟩, ⟨0x00C, 0, []⟩,
   ⟨0x010, 0, []⟩, ⟨0x014, 0, []⟩, ⟨0x018, 0, [rRc 0 16, rRc 16 8, rRc 24 8]⟩]

/-- TIDE: Table TID-4. -/
def regsTide : List RegDef :=
  [⟨0x000, 0, [rRw 0 1, rWt 1 1]⟩, ⟨0x004, 4000, [rRw 0 15]⟩, ⟨0x008, 400, [rRw 0 11]⟩,
   ⟨0x00C, 0xF000, [rW1c 8 1, rW1c 9 1, rW1c 10 1]⟩, ⟨0x010, 0, []⟩, ⟨0x014, 0, []⟩, ⟨0x018, 0, []⟩,
   ⟨0x01C, 0, []⟩, ⟨0x020, 0, []⟩, ⟨0x024, 0, []⟩, ⟨0x028, 0, []⟩, ⟨0x02C, 0, []⟩]
  ++ regArr 4 4 ⟨0x030, 0, [rRw 0 16]⟩ ++ regArr 4 4 ⟨0x040, 0, []⟩
  ++ [⟨0x050, 0, []⟩, ⟨0x054, 0, [rRc 0 32]⟩]

/-- An isle's registers: Tables ISL-14, CTL-12, MOD-9. -/
def regsIsl : List RegDef :=
  [⟨0x000, 0, [rRx 0 1, rWt 1 1]⟩, ⟨0x004, 0, [rW1c 0 1, rW1c 1 1, rW1c 2 1]⟩, ⟨0x008, 0, []⟩, ⟨0x00C, 0, []⟩,
   ⟨0x010, 0, []⟩, ⟨0x014, 0, [rRc 0 32]⟩, ⟨0x018, 0, []⟩, ⟨0x01C, 0, [rRc 0 16, rRc 16 16]⟩,
   ⟨0x020, 0, [rW1c 0 2, rW1c 4 3, rW1c 12 16]⟩, ⟨0x024, 0, [rRc 0 16, rRc 16 16]⟩, ⟨0x028, 0, [rRc 0 16]⟩,
   ⟨0x02C, 0, [rRc 0 16, rRc 16 16]⟩, ⟨0x030, 0, [rRx 0 30]⟩, ⟨0x034, 0, [rW1c 0 6, rW1c 16 5]⟩,
   ⟨0x038, 0, [rRc 0 8, rRc 8 8, rRc 16 8, rRc 24 8]⟩, ⟨0x03C, 0, [rRc 0 16, rRc 16 16]⟩,
   ⟨0x040, 0, [rRc 0 16, rRc 16 16]⟩, ⟨0x044, 0, []⟩]
  ++ regArr 6 4 ⟨0x048, 0, []⟩ ++ [⟨0x060, 0, [rRc 0 16, rRc 16 16]⟩, ⟨0x064, 0, [rRw 0 5, rW1c 5 1]⟩]

/-- The common cell-map registers: Table ISL-17. -/
def regsIslc : List RegDef :=
  [⟨0x000, 0x00023200, [rWt 0 1, rWt 1 1, rRw 8 8, rRw 16 4]⟩, ⟨0x004, 0, [rW1c 2 1, rW1c 3 1]⟩, ⟨0x008, 0, []⟩,
   ⟨0x00C, 0, []⟩, ⟨0x010, 0, [rRx 0 32]⟩, ⟨0x014, 0, [rRx 0 16]⟩, ⟨0x018, 0, []⟩, ⟨0x01C, 0, [rRx 0 32]⟩]
  ++ regArr 8 4 ⟨0x020, 0, []⟩ ++ [⟨0x040, 0x00011248, [rRw 0 20]⟩]

/-- A ring's registers: Tables NRW-15 and GDS-8. -/
def regsNrw : List RegDef :=
  [⟨0x000, 0x00402002, [rRw 0 2, rRw 4 4, rRw 12 4, rRw 16 10]⟩,
   ⟨0x004, 0, [rW1c 16 10]⟩, ⟨0x008, 0, [rRx 0 16]⟩, ⟨0x00C, 0, []⟩, ⟨0x010, 0, []⟩, ⟨0x014, 0, []⟩, ⟨0x018, 0, []⟩,
   ⟨0x01C, 0, [rRc 0 8, rRc 8 8, rRc 16 8, rRc 24 8]⟩, ⟨0x020, 0, [rRc 0 16, rRc 16 8, rRc 24 8]⟩, ⟨0x024, 0, []⟩,
   ⟨0x028, 0, [rRc 0 16, rRc 16 16]⟩, ⟨0x030, 0, [rRx 0 13, rRx 16 4, rWt 24 1, rW1c 26 2, rRx 28 2]⟩]
  ++ regArr 3 4 ⟨0x034, 0, [rRx 0 32]⟩ ++ regArr 8 4 ⟨0x040, 0, []⟩ ++ regArr 16 4 ⟨0x080, 0, []⟩
  ++ regArr 16 4 ⟨0x100, 0x1A, [rRw 0 6, rRw 8 4]⟩
  ++ [⟨0x140, 0, [rWt 0 16]⟩, ⟨0x144, 0, []⟩, ⟨0x148, 0xA, [rRw 0 7]⟩, ⟨0x14C, 0, [rW1c 0 32]⟩, ⟨0x150, 0, [rW1c 0 6]⟩]
  ++ regArr 17 4 ⟨0x180, 0, [rRw 0 16]⟩

/-- STP: Tables FTP-9, FTP-10, FTR-12, FTR-13. -/
def regsStp : List RegDef :=
  [⟨0x000, 0x8000, [rRw 0 1, rWt 1 1, rRw 8 8]⟩, ⟨0x004, 0, [rRw 0 32]⟩, ⟨0x008, 0, [rRw 0 12]⟩, ⟨0x00C, 0, []⟩,
   ⟨0x010, 0xE10, [rRw 0 17]⟩, ⟨0x014, 0, []⟩, ⟨0x018, 0xA, [rRw 0 10]⟩, ⟨0x020, 0, []⟩, ⟨0x024, 0, []⟩,
   ⟨0x028, 0, []⟩, ⟨0x02C, 0, []⟩, ⟨0x030, 0x0FF000FF, []⟩, ⟨0x034, 0, [rW1c 0 6]⟩, ⟨0x038, 1, []⟩, ⟨0x03C, 0, []⟩,
   ⟨0x040, 0, [rRc 0 16, rRc 16 16]⟩, ⟨0x044, 0, [rRc 0 8, rRc 8 8, rRc 16 8, rRc 24 8]⟩, ⟨0x048, 0, [rRx 0 12]⟩,
   ⟨0x04C, 0, []⟩]
  ++ regArr 4 0x20 ⟨0x100, 0, [rRw 0 2]⟩ ++ regArr 4 0x20 ⟨0x104, 1, [rW1c 4 3]⟩ ++ regArr 4 0x20 ⟨0x108, 0, []⟩
  ++ regArr 4 0x20 ⟨0x10C, 0, []⟩ ++ regArr 4 0x20 ⟨0x110, 0, []⟩ ++ regArr 4 0x20 ⟨0x114, 0, [rRc 0 16, rRc 16 16]⟩
  ++ [⟨0x200, 0x00640A13, [rRw 0 26]⟩, ⟨0x204, 0xA, [rRw 0 7]⟩, ⟨0x208, 0x4000, [rRw 0 17]⟩, ⟨0x20C, 0x32E0, []⟩,
      ⟨0x210, 0x00000020, [rRw 0 12, rRw 16 13]⟩, ⟨0x214, 0x00800080, [rRw 0 12, rRw 16 13]⟩,
      ⟨0x218, 0x04000100, [rRw 0 12, rRw 16 13]⟩, ⟨0x21C, 0x04000100, [rRw 0 12, rRw 16 13]⟩,
      ⟨0x220, 0, [rRc 0 8, rRc 8 8, rRc 16 8, rRc 24 8]⟩, ⟨0x224, 0, [rRc 0 16, rRc 16 8, rRc 24 8]⟩,
      ⟨0x228, 0, [rRc 0 16, rRc 16 8, rRc 24 8]⟩, ⟨0x22C, 0, [rW1c 0 9]⟩, ⟨0x230, 0, [rRc 0 16, rRc 16 16]⟩]
  ++ regArr 4 4 ⟨0x280, 0, []⟩ ++ [⟨0x290, 0, [rRc 0 32]⟩] ++ regArr 4 4 ⟨0x294, 0, [rRc 0 8, rRc 8 8, rRc 16 16]⟩
  ++ regArr 8 0x20 ⟨0x400, 0, [rWt 0 3, rRw 3 3, rRw 6 1, rRw 8 5]⟩ ++ regArr 8 0x20 ⟨0x404, 0x00010000, [rRw 0 32]⟩
  ++ regArr 8 0x20 ⟨0x408, 0x04080000, [rRw 0 12, rRw 16 7, rRw 24 5]⟩ ++ regArr 8 0x20 ⟨0x40C, 8, [rRw 0 9]⟩
  ++ regArr 8 0x20 ⟨0x410, 0, [rW1c 8 3]⟩ ++ regArr 8 0x20 ⟨0x414, 0, []⟩ ++ regArr 8 0x20 ⟨0x418, 0, []⟩
  ++ regArr 8 0x20 ⟨0x41C, 0, []⟩

/-- A lane's registers: Table LAN-11. LANE_CTL resets to 0xE on the Strait lanes (`regReset`). -/
def regsLane : List RegDef :=
  [⟨0x000, 6, [rRx 0 1, rRw 1 3, rRw 5 5, rRx 10 2, rRw 12 2]⟩, ⟨0x004, 0x1000, [rW1c 15 9]⟩, ⟨0x008, 0xA, [rRw 0 7]⟩,
   ⟨0x00C, 0, [rRc 0 16, rRc 16 16]⟩, ⟨0x010, 0, [rRc 0 8, rRc 8 8, rRc 16 8, rRc 24 8]⟩,
   ⟨0x014, 0, [rRc 0 12, rRc 12 12, rRc 24 8]⟩, ⟨0x018, 0x420, [rRw 0 13]⟩,
   ⟨0x01C, 0, [rRx 0 5, rWt 10 1, rRx 11 5]⟩, ⟨0x020, 0, [rRc 0 32]⟩, ⟨0x024, 0, [rWt 0 2]⟩, ⟨0x028, 0, []⟩,
   ⟨0x02C, 0, [rRc 0 16, rRc 16 16]⟩, ⟨0x030, 0, [rRx 2 1]⟩, ⟨0x034, 0, [rRx 0 10, rWt 10 1, rRx 16 8]⟩]

/-- SRT common and per string: Table BAL-10. -/
def regsSrt : List RegDef := [⟨0x000, 0, [rW1c 0 6]⟩]
def regsSrts : List RegDef :=
  [⟨0x000, 0, [rWt 0 13]⟩, ⟨0x004, 0, [rW1c 6 2]⟩, ⟨0x008, 0, []⟩, ⟨0x00C, 0, []⟩, ⟨0x010, 0, []⟩]
  ++ regArr 4 4 ⟨0x014, 0, []⟩
  ++ [⟨0x024, 0, [rRc 0 16, rRc 16 16]⟩, ⟨0x028, 0, []⟩, ⟨0x02C, 0, []⟩, ⟨0x030, 0x01F44CCD, [rRw 0 32]⟩,
      ⟨0x034, 0x00020640, [rRw 0 12, rRw 16 4]⟩]

/-- A motor port's registers: Table MPO-9. -/
def regsMpo : List RegDef :=
  [⟨0x00, 0xE8, [rRx 0 1, rRw 1 13]⟩, ⟨0x04, 8, [rW1c 16 8]⟩, ⟨0x08, 0x1F40, [rRw 0 20]⟩, ⟨0x0C, 0, [rRw 0 20]⟩,
   ⟨0x10, 0x00A00050, [rRw 0 12, rRw 16 12]⟩, ⟨0x14, 0x0190A020, [rRw 0 28]⟩, ⟨0x18, 0x00280028, [rRw 0 14, rRw 16 14]⟩,
   ⟨0x1C, 0x190, [rRw 0 17]⟩, ⟨0x20, 0x2864, [rRw 0 20]⟩, ⟨0x24, 0x2710, [rRw 0 16]⟩, ⟨0x28, 0x190, [rRw 0 15]⟩,
   ⟨0x2C, 0, [rRx 0 32]⟩]
  ++ regArr 3 4 ⟨0x30, 0, []⟩
  ++ [⟨0x3C, 0, []⟩, ⟨0x40, 0, [rRc 0 16, rRc 16 16]⟩, ⟨0x44, 0, [rRc 0 8, rRc 8 8, rRc 16 8, rRc 24 8]⟩,
      ⟨0x48, 0, [rRc 0 8, rRc 8 8, rRc 16 8, rRc 24 8]⟩]

/-- A feedback interface's registers: Table FBK-8. -/
def regsEnc : List RegDef :=
  [⟨0x00, 0, [rRw 0 4, rWt 4 3]⟩, ⟨0x04, 4, [rW1c 8 3, rW1c 13 1, rW1c 15 2]⟩, ⟨0x08, 0, []⟩, ⟨0x0C, 0, []⟩,
   ⟨0x10, 0, [rRx 0 32]⟩, ⟨0x14, 0x80000000, [rRw 0 32]⟩, ⟨0x18, 0x7FFFFFFF, [rRw 0 32]⟩, ⟨0x1C, 0, [rRw 0 31]⟩,
   ⟨0x20, 0, [rRw 0 32]⟩, ⟨0x24, 0, []⟩, ⟨0x28, 0, []⟩, ⟨0x2C, 0x904, [rRw 0 12]⟩, ⟨0x30, 0, []⟩,
   ⟨0x34, 0xC832, [rRw 0 20]⟩, ⟨0x38, 0x186A0, [rRw 0 26]⟩, ⟨0x3C, 0x2710, [rRw 0 26]⟩, ⟨0x40, 0x32000, [rRw 0 27]⟩,
   ⟨0x44, 8, [rRw 0 8]⟩, ⟨0x48, 0, [rRw 0 32]⟩, ⟨0x4C, 0x80008000, [rRw 0 32]⟩, ⟨0x50, 0x000A8232, [rRw 0 20]⟩,
   ⟨0x54, 0, []⟩, ⟨0x58, 0x140A0019, [rRw 0 9, rRw 16 7, rRw 24 7]⟩, ⟨0x5C, 0x002EE003, [rRw 0 28]⟩, ⟨0x60, 0, []⟩,
   ⟨0x64, 0, [rRw 0 32]⟩, ⟨0x68, 0x400, [rRw 0 24]⟩, ⟨0x6C, 0, []⟩,
   ⟨0x70, 0, [rRc 0 8, rRc 8 8, rRc 16 8, rRc 24 8]⟩, ⟨0x74, 0, [rRc 0 16, rRc 16 8, rRc 24 8]⟩]

/-- Station ADC, common and per slot: Table ADC-5. -/
def regsAdc : List RegDef :=
  [⟨0x000, 0, [rRw 0 2, rWt 2 2]⟩, ⟨0x004, 0, [rW1c 1 1, rW1c 4 3, rW1c 8 2]⟩, ⟨0x008, 0x083F0FA0, [rRw 0 32]⟩,
   ⟨0x00C, 0x08000320, [rRw 0 13, rRw 16 16]⟩, ⟨0x010, 0, []⟩, ⟨0x014, 0, [rRc 0 8, rRc 8 8, rRc 16 8, rRc 24 8]⟩]
def regsAdcs : List RegDef :=
  [⟨0x00, 0, [rRw 0 7, rRw 8 3, rRw 12 10]⟩, ⟨0x04, 0x0148003C, [rRw 0 12, rRw 16 15]⟩, ⟨0x08, 0x7FFF8000, [rRw 0 32]⟩,
   ⟨0x0C, 0, [rRw 0 17]⟩, ⟨0x10, 0x4000, [rRw 0 20]⟩, ⟨0x14, 0, []⟩, ⟨0x18, 0, []⟩,
   ⟨0x1C, 0, [rWt 0 3, rW1c 4 2, rRx 16 16]⟩]

/-- SAF: Table SAF-14. -/
def regsSaf : List RegDef :=
  [⟨0x000, 0xF, []⟩, ⟨0x004, 0, []⟩, ⟨0x008, 0, []⟩, ⟨0x00C, 0, []⟩, ⟨0x010, 0, []⟩, ⟨0x014, 0, []⟩, ⟨0x018, 0, []⟩,
   ⟨0x01C, 0, []⟩]
  ++ regArr 4 4 ⟨0x020, 0x2A2, []⟩ ++ [⟨0x030, 0, []⟩]

/-- JRN: Table JRN-8. -/
def regsJrn : List RegDef :=
  [⟨0x000, 0x00640000, [rRw 0 1, rWt 1 1, rRw 16 16]⟩, ⟨0x004, 0, [rW1c 1 6]⟩, ⟨0x008, 0, []⟩, ⟨0x00C, 0, []⟩,
   ⟨0x010, 0, []⟩, ⟨0x014, 0, []⟩, ⟨0x018, 0, []⟩, ⟨0x01C, 0, [rRw 16 16]⟩, ⟨0x020, 0, [rRw 0 11]⟩, ⟨0x024, 0, []⟩,
   ⟨0x028, 0, []⟩, ⟨0x02C, 0, [rRc 0 8, rRc 8 8, rRc 16 16]⟩]

/-- HBR: Table DIC-15. -/
def regsHbr : List RegDef :=
  [⟨0x000, 0, [rRw 0 4]⟩, ⟨0x004, 0, [rW1c 2 2, rW1c 5 3, rW1c 9 2]⟩, ⟨0x008, 0, [rRw 0 32]⟩, ⟨0x00C, 0, [rRw 0 32]⟩,
   ⟨0x010, 0, [rRw 0 32]⟩, ⟨0x014, 0x000A003C, [rRw 0 10, rRw 16 6]⟩, ⟨0x018, 0x227F, [rRw 0 7, rRw 8 2, rRw 12 3]⟩,
   ⟨0x01C, 0, [rRc 0 8, rRc 8 8, rRc 16 8, rRc 24 8]⟩, ⟨0x020, 0, [rRc 0 16, rRc 16 8, rRc 24 8]⟩]
  ++ regArr 4 4 ⟨0x030, 0, [rRw 0 32]⟩

/-- RED: Table RED-6. -/
def regsRed : List RegDef :=
  [⟨0x000, 8, [rRw 0 2, rWt 2 1, rRw 3 1]⟩, ⟨0x004, 0, [rW1c 16 8]⟩, ⟨0x008, 0, [rRw 0 32]⟩, ⟨0x00C, 0, [rRw 0 32]⟩,
   ⟨0x010, 0x3C, [rRw 0 12]⟩, ⟨0x014, 0x64, [rRw 0 13]⟩, ⟨0x018, 0, []⟩, ⟨0x01C, 0, []⟩]
  ++ regArr 8 4 ⟨0x020, 0, []⟩
  ++ [⟨0x040, 0, [rRc 0 8, rRc 8 8, rRc 16 8, rRc 24 8]⟩, ⟨0x044, 0, []⟩, ⟨0x048, 0, []⟩]

/-- The registers of a block's instance. The four FUSE banks are handled by `regKnown`, word by word. -/
def regsOf : Blk → List RegDef
  | .sys => regsSys | .pwr => regsPwr | .thm => regsThm | .fuse => regsFuse | .cfc => regsCfc | .tide => regsTide
  | .isl => regsIsl | .islc => regsIslc | .nrw => regsNrw | .stp => regsStp | .lane => regsLane | .srt => regsSrt
  | .srts => regsSrts | .mpo => regsMpo | .enc => regsEnc | .adc => regsAdc | .adcs => regsAdcs | .saf => regsSaf
  | .jrn => regsJrn | .hbr => regsHbr | .red => regsRed

/-- The base of a block and the distance between its instances (Table REG-4 and the register tables). -/
def blkBase : Blk → Nat
  | .sys => 0x40000000 | .pwr => 0x40010000 | .thm => 0x40020000 | .fuse => 0x40030000 | .cfc => 0x40040000
  | .tide => 0x40100000 | .isl => 0x41000000 | .islc => 0x41100000 | .nrw => 0x42000000 | .stp => 0x42100000
  | .lane => 0x42200000 | .srt => 0x42300000 | .srts => 0x42301000 | .mpo => 0x43000000 | .enc => 0x43100000
  | .adc => 0x43200000 | .adcs => 0x43200100 | .saf => 0x44000000 | .jrn => 0x45000000 | .hbr => 0x46000000
  | .red => 0x47000000
def blkStride : Blk → Nat
  | .isl => 0x1000 | .nrw => 0x1000 | .lane => 0x400 | .srts => 0x40 | .mpo => 0x100 | .enc => 0x100 | .adcs => 0x20
  | _ => 0
/-- The implemented instances of a block on the IZ7256 (19 R555). -/
def blkCount : Blk → Nat
  | .isl => 256 | .nrw => 16 | .lane => 24 | .srts => 64 | .mpo => 4 | .enc => 4 | .adcs => 32 | _ => 1

/-- The primary address of a register. -/
def primAddr (b : Blk) (inst off : Nat) : Nat := blkBase b + inst * blkStride b + off

/-- The bits [hi:lo] of an address, in place. -/
def abits (a hi lo : Nat) : Nat := (a % 2 ^ (hi + 1)) / 2 ^ lo * 2 ^ lo

/-- 19 R554, R556: decode an address by Table REG-4; `none` outside every window. -/
def decodeAddr (a : Nat) : Option Loc :=
  let w := a / 0x10000
  if w = 0x4000 then some ⟨.sys, 0, abits a 9 2⟩
  else if w = 0x4001 then some ⟨.pwr, 0, abits a 7 2⟩
  else if w = 0x4002 then some ⟨.thm, 0, abits a 7 2⟩
  else if w = 0x4003 then some ⟨.fuse, 0, abits a 11 2⟩
  else if w = 0x4004 then some ⟨.cfc, 0, abits a 4 2⟩
  else if w = 0x4010 then some ⟨.tide, 0, abits a 6 2⟩
  else if w / 0x10 = 0x410 then some ⟨.isl, a / 0x1000 % 256, abits a 6 2⟩
  else if w / 0x10 = 0x411 then some ⟨.islc, 0, abits a 6 2⟩
  else if w = 0x4200 then some ⟨.nrw, a / 0x1000 % 16, abits a 8 2⟩
  else if w = 0x4210 then some ⟨.stp, 0, abits a 10 2⟩
  else if w = 0x4220 then some ⟨.lane, a / 0x400 % 64, abits a 5 2⟩
  else if w = 0x4230 then
    if a.testBit 12 then some ⟨.srts, a / 0x40 % 64, abits a 5 2⟩ else some ⟨.srt, 0, abits a 5 2⟩
  else if w = 0x4300 then some ⟨.mpo, a / 0x100 % 4, abits a 6 2⟩
  else if w = 0x4310 then some ⟨.enc, a / 0x100 % 4, abits a 6 2⟩
  else if w = 0x4320 then
    let v := a / 0x20 % 64
    if v < 8 then some ⟨.adc, 0, v * 0x20 + abits a 4 2⟩ else some ⟨.adcs, v - 8, abits a 4 2⟩
  else if w = 0x4400 then some ⟨.saf, 0, abits a 5 2⟩
  else if w = 0x4500 then some ⟨.jrn, 0, abits a 5 2⟩
  else if w = 0x4600 then some ⟨.hbr, 0, abits a 5 2⟩
  else if w = 0x4700 then some ⟨.red, 0, abits a 6 2⟩
  else none

/-- The register definition at a decoded place; `none` where the address names no register (19 R555). -/
def regDefAt (l : Loc) : Option RegDef :=
  if l.inst < blkCount l.blk then
    if l.blk = .fuse ∧ l.off < 0x400 then some ⟨l.off, 0, []⟩
    else (regsOf l.blk).find? fun d => d.off = l.off
  else none

/-- The reset value of the register at a primary address: its table's Reset column; 0 for an address that names
no register. LANE_CTL[n] resets by lane number (Table LAN-11). -/
def regReset (a : Nat) : Word :=
  match decodeAddr a with
  | none => 0
  | some l =>
    if l.blk = .lane ∧ l.off = 0 ∧ 16 ≤ l.inst ∧ l.inst < 24 then 0xE
    else match regDefAt l with
      | some d => d.reset
      | none => 0

/-- The mask of a register's fields of one code. -/
def accMask (d : RegDef) (c : Acc) : Word :=
  d.fields.foldl (fun m f => if f.acc = c then m ||| fmask f.lo f.width else m) 0

/-- The stored bits: every RW field (Table REG-2). -/
def rwMask (d : RegDef) : Word := accMask d .rw ||| accMask d .rx

/-- 19 R552: every field RW or RO. -/
def rmwSafe (d : RegDef) : Bool :=
  d.fields.all fun f => f.acc = .ro ∨ f.acc = .rw ∨ f.acc = .rx

/-- The power domain of a place (Table REG-4, 13 of Table ARC-7: quadrants, ring and lane sections). -/
def regDomain (l : Loc) : Nat :=
  match l.blk with
  | .pwr | .thm | .fuse => 0
  | .isl => 4 + l.inst / 64
  | .nrw => if l.inst < 8 then 8 else 9
  | .lane => if l.inst < 8 then 8 else if l.inst < 16 then 9 else 10
  | .stp => 10
  | _ => 2

/-- 19 R561: blocks the configuration check does not cover. -/
def cfcBlock : Blk → Bool
  | .sys | .cfc | .saf | .pwr | .fuse => false
  | _ => true

/-- The blocks of the map in ascending address order (19 R562). -/
def blkOrder : List Blk :=
  [.sys, .pwr, .thm, .fuse, .cfc, .tide, .isl, .islc, .nrw, .stp, .lane, .srt, .srts, .mpo, .enc, .adc, .adcs, .saf,
   .jrn, .hbr, .red]

end Sys2Proof.Machine
end

