-- ==== Sys2Proof/Units/Core.lean ====
section
/-! DEFINITION. The state of the tide unit, the journal, the isles with their edge formers, the cell map and the
strings (02, 18, 03, 04, 05, 06), beyond what their registers hold. Field defaults are the values at reset. -/
namespace Sys2Proof

/-- One delay exchange of a Strait port in progress (02 R48), 1/16 ns. -/
structure DelayU where
  t1 : Option Nat := none
  meas : List Int := []
  discards : Nat := 0
  deriving DecidableEq, Repr

/-- An announced epoch change (02 R39, 10 R302). -/
structure EpochAnn where
  epoch : Nat
  k0 : Nat
  period : Nat
  deriving DecidableEq, Repr

/-- The tide unit (02). `k` and `time` are the tick number and TIME64 of the current edge, `period` the T in force (5 ns); `abs` counts 2.5 ns from the first edge
to the current one, whatever the labels do; `pendT`: a T accepted and the edges to come until it governs; `fabT`: the T that the root distributes (R37);
`line`: the label of the next edge by the parent's line (tick, TIME64, epoch, k0). -/
structure TideU where
  abs : Nat := 0
  k : Nat := 0
  time : Nat := 0
  epoch : Nat := 0
  k0 : Nat := 0
  period : Nat := 4000
  pendT : Option (Nat × Nat) := none
  pendGuard : Option Nat := none
  guard : Nat := 400
  stepReq : Bool := false
  line : Option (Int × Int × Nat × Nat) := none
  offset : Int := 0
  tstate : Nat := 0
  near : Nat := 0
  far : Nat := 0
  silent : Nat := 0
  fabT : Nat := 4000
  next : Option EpochAnn := none
  delays : Table DelayU := []
  deriving DecidableEq, Repr

/-- The journal (18): the held entries by slot, the newest sequence, the epoch, the retention latch, the flush
area by write position, the supervisor's cursors, and the instant of its latest action in this tick, in counts after the edge. -/
structure JrnU where
  slots : Table JEntry := []
  seq : Nat := 0
  epoch : Nat := 0
  latch : Bool := false
  nextTx : Nat := 1
  flash : Table JEntry := []
  flashPos : Nat := 0
  flushed : Nat := 0
  again : List Nat := []
  page : List Nat := []
  cursor : Nat := 1
  txQuery : Nat := 0
  flushing : Bool := false
  at_ : Nat := 0
  deriving DecidableEq, Repr

/-- What a group latched for one pair at a reload point (05 R138): its set entry, its slot's value, its compare or phase in 1/16 counts
(1/32 with COMPAT), and its override bits. -/
structure PLatch where
  num : Nat := 0
  pd : PairDef := {}
  v : Int := 0
  u : Nat := 0
  shown : Int := 0
  swap : Bool := false
  inv : Bool := false
  fen : Bool := false
  f0 : Bool := false
  f1 : Bool := false
  deriving DecidableEq, Repr

/-- A group's latch at reload point `r` with the phase share `add` (j·Δ16) written at `addT`, in counts on the tick-number time line (05 R133, R138). -/
structure Latch where
  r : Int := 0
  add : Nat := 0
  addT : Int := -1000000000000
  theta0 : Nat := 0
  reload : Nat := 3
  theta : Nat := 0
  period : Nat := 2
  dither : Bool := false
  compat : Bool := false
  pairs : List PLatch := []
  deriving DecidableEq, Repr

/-- One pair of an edge former (05 R142 to R150): the commanded interval in progress (level after INV, start in
1/32 counts); the level of a suppressed interval that has not ended; the formed levels; the physical levels and the instants the gates last turned off (1/32 counts); the
levels that queued records left on; held; the instant the interlock turned both gates off, while it holds them;
the override bits in force (swap, force enable, force upper, force lower). -/
structure PairU where
  cur : Option (Bool × Int) := none
  sup : Option Bool := none
  fu : Bool := false
  fl : Bool := false
  up : Bool := false
  lo : Bool := false
  upOff : Int := -1000000000000
  loOff : Int := -1000000000000
  recUp : Bool := false
  recLo : Bool := false
  held : Bool := false
  blocked : Option Int := none
  swap : Bool := false
  fen : Bool := false
  f0 : Bool := false
  f1 : Bool := false
  shoots : Nat := 0
  deriving DecidableEq, Repr

/-- An edge former (05): the values handed to each input slot with their instants, newest first; the override words
written with theirs; the phase terms j·Δ16 written by the cell map with theirs; each group's last latch; each pair;
the next sequence number; the records queued, the pairs capped and the groups processed in the run, and the cycle in which its last record was
queued; the groups whose carrier a flip changed and that have not been processed since. -/
structure EfU where
  handed : Table (List (Int × Int)) := []
  ovrs : List (Int × Nat) := []
  psc : List (Int × Nat) := []
  last : Table Latch := []
  proc : Table Int := []
  pairs : Table PairU := []
  seq : Nat := 0
  queued : Nat := 0
  capped : List Nat := []
  done : List Nat := []
  busy : Nat := 0
  fresh : List Nat := []
  deriving DecidableEq, Repr

/-- One measurement channel of an isle (04 R112 to R115); `good…`: the values of the last tick without a range violation, `thaw…`: of the last
tick in which no freeze stood declared. -/
structure ChanU where
  s : Int := 0
  loaded : Bool := false
  viol : Nat := 0
  same : Nat := 0
  prev : Option (Int × Int) := none
  range : Bool := false
  stale : Bool := false
  val : Int := 0
  inst : Int := 0
  good : Int := 0
  goodInst : Int := 0
  thaw : Int := 0
  thawInst : Int := 0
  deriving DecidableEq, Repr

/-- One law-graph node's run state beside its state words: output, output at the start of the tick, flag, and the
first run owed (0 none, 1 after a flip, 2 of every word, 3 of every word as the new lead) (04 R107, R110). -/
structure NodeU where
  out : Int := 0
  start : Int := 0
  flag : Bool := false
  first : Nat := 2
  firstTick : Nat := 0
  stale : Bool := false
  deriving DecidableEq, Repr

/-- An isle (03, 04, 05). `pc` and `pcT`: the node at which it waits for the ranking and the cycle it came there; `gone`: abandoned
in this tick; `snap…`: its state at the start of the tick. -/
structure IsleU where
  entry : IsleEntry := {}
  gen : Nat := 0
  bankA : Bank := {}
  bankB : Bank := {}
  liveB : Bool := false
  verified : Bool := false
  loading : Bool := false
  istate : Nat := 0
  consec : Nat := 0
  cause : Nat := 0
  stalled : Bool := false
  ueStop : Bool := false
  pendCost : Nat := 0
  latLoaded : Bool := false
  slot0 : Slot := {}
  slot1 : Slot := {}
  words : Table Line := []
  nodes : Table NodeU := []
  chans : Table ChanU := []
  key : Option (Int × Int) := none
  posted : Bool := false
  pc : Nat := 0
  pcT : Nat := 0
  gone : Bool := false
  lead : Bool := false
  snapWords : Table Line := []
  snapNodes : Table NodeU := []
  snapChans : Table ChanU := []
  snapKey : Option (Int × Int) := none
  ef : EfU := {}
  deriving DecidableEq, Repr

/-- A re-spread in progress (06 R177): its edge and the isles that have not yet reached DONE at or after it. -/
structure RespreadU where
  ka : Nat
  waiting : List Nat
  deriving DecidableEq, Repr

/-- An announced fault of a split string, to be applied at edge `ka` (06 R176). -/
structure AnnU where
  cause : Nat
  pos : Nat
  tick : Nat
  stamp : Nat
  ka : Nat
  deriving DecidableEq, Repr

/-- A remote segment of a split string as this device sees it (06 R167, R168): its list of this tick and of the last,
consecutive ticks missing, parts received of this tick. -/
structure SegU where
  now : Option PartList := none
  prev : Option PartList := none
  missing : Nat := 0
  parts : List (Nat × PartList) := []
  deriving DecidableEq, Repr

/-- A string segment (06). State: 0 OFF, 1 PRECHARGE, 2 RUN, 3 SAFE. `list`: what the closed barrier gave to the sorter; `cwPast`: the
Causeway deadline of this tick has passed; `annSafe`: an announced SAFE due at the next edge; `preTick`: the count of 2.5 ns at
the entry into PRECHARGE. -/
structure StringU where
  defn : StringEntry := {}
  held : Bool := false
  sstate : Nat := 0
  variant : Nat := 0
  excl : List Nat := []
  fq : List FqEntry := []
  fqOvf : Option FqEntry := none
  lastCause : Nat := 0
  lastPos : Nat := 0
  preDone : Bool := false
  preRun : Nat := 0
  preTick : Nat := 0
  respread : Option RespreadU := none
  vals : List Int := [0, 0, 0, 0]
  cmds : List Nat := []
  lastCmd : Nat := 0
  list : Option PartList := none
  cwPast : Bool := false
  annSafe : Option Nat := none
  delivered : Bool := false
  ranks : Table Nat := []
  words : List StrWord := []
  headState : Option (Nat × Nat) := none
  segs : Table SegU := []
  anns : List AnnU := []
  early : List Nat := []
  trip : Bool := false
  safeReq : Bool := false
  deriving DecidableEq, Repr

/-- The cell map's plan store (03 R84 to R95). Plan state: 0 NONE, 1 LOADING, 2 READY, 3 COMMITTING. `txSeq` is the journal
sequence of the TX entry awaiting its mask; `due`: completion code and mask that a supervisor restart keeps from the journal. -/
structure PlanU where
  staged : Option Plan := none
  held : List Plan := []
  state : Nat := 0
  kc : Nat := 0
  target : Option Plan := none
  flipped : List Nat := []
  partOf : List Nat := []
  flips : Nat := 0
  units : Nat := 0
  gLast : Nat := 0
  done : Word := 0
  mask : Nat := 0
  txSeq : Option Nat := none
  mirrored : Bool := false
  due : Option (Word × Nat) := none
  deriving DecidableEq, Repr

end Sys2Proof
end

