-- ==== Sys2Proof/Units/Links.lean ====
section
/-! DEFINITION. The state of the ring engines, of the nodes on the rings (08, 09) and of the lanes (07), beyond what registers
hold. Field defaults are the values at reset. -/
namespace Sys2Proof

/-- A gate transition of a pair: the unit it belongs to, instant in 1/32 counts, gate (false upper, true lower), level. -/
structure EfRec where
  uid : Nat
  t : Int
  lower : Bool
  level : Bool
  deriving DecidableEq, Repr

/-- A service request of the device: what it is for (0 host registers, 1 host object, 2 ENUM, 3 IDENT, 4 NODE_CFG, 5 OFFSET, 6 driver
write, 7 driver check, 8 the check that follows the driver writes), failed tries so far; `waited`: held once by rule 5 of R225. -/
structure SvcJob where
  req : SvcReq
  purpose : Nat
  tries : Nat := 0
  waited : Bool := false
  deriving DecidableEq, Repr

/-- A node as the device knows it: IDENT reply data; last status word; sums of LATE and FRM_ERR; a record or a bad container seen in
this tick; ALERTs of this tick and the last (tick, gates); DRV_FLT of the last record; held by its driver check; driver writes
due; last reply to a request through its object; IDENT answered; the count at which its last ALERT arrived. -/
structure RNode where
  ident : List Byte := []
  status : Nat := 0
  late : Nat := 0
  frm : Nat := 0
  seen : Bool := false
  alerts : List (Nat × Nat) := []
  lastDrv : Nat := 0
  drvBad : Bool := false
  drvDue : Bool := false
  reply : List Byte := []
  asked : Bool := false
  alertAt : Option Nat := none
  deriving DecidableEq, Repr

/-- A ring engine (08): frames queued and sent; HALTs whose echo is awaited; the halt bits that
stand (R252), bit i for node i; ticks in ENUM; loop delays accepted and discards in a row,
1/16 ns; requests queued and outstanding; whether a service frame and the sample train went out in this tick; nodes; the last reply
to the host; the sequence number of the next frame; HALTs whose echo has come (R252). -/
structure RingU where
  egress : List EdgeFrame := []
  echoes : List Nat := []
  halts : Nat := 0
  sentFrames : List EdgeFrame := []
  enumTicks : Nat := 0
  delays : List Nat := []
  discards : Nat := 0
  jobs : List SvcJob := []
  out : List SvcJob := []
  svcSent : Bool := false
  trainSent : Bool := false
  nodes : Table RNode := []
  reply : List Byte := []
  seq : Nat := 0
  echoed : Nat := 0
  deriving DecidableEq, Repr

/-- One of the two ring positions of a node (08 R221): node number; ring number of its first valid header; the last header
compared (tick, T_c), the windows missed since, and whether one was compared in this window; the valid header of the window in
progress; the offset in force and the one to come (1/16 ns). -/
structure NPath where
  num : Option Nat := none
  ring : Option Nat := none
  last : Option (Nat × Nat) := none
  missed : Nat := 0
  got : Bool := false
  hdr : Option TideHdr := none
  off : Nat := 0
  offNext : Option Nat := none
  deriving DecidableEq, Repr

/-- The effective coverage of one frame for one pair (08 R245), 1/32 counts on the tick-number line, with its records; `live`: of
the ring followed; `ring`: received on ring B. -/
structure NCover where
  live : Bool
  ring : Bool
  a : Int
  e : Int
  recs : List EfRec
  deriving DecidableEq, Repr

/-- One pair of a node: repeat period and dead time in counts, in force and to come; coverage; what reached the pins, newest first;
the levels asked for; the pins, the instants they last changed (1/32 counts); the end of a forced refresh. -/
structure NPair where
  per : Nat := 0
  td : Nat := 0
  next : Option (Nat × Nat) := none
  cover : List NCover := []
  hist : List EfRec := []
  du : Bool := false
  dl : Bool := false
  up : Bool := false
  lo : Bool := false
  upOn : Int := 0
  upOff : Int := -1000000000000
  loOff : Int := -1000000000000
  refresh : Option Int := none
  deriving DecidableEq, Repr

/-- A node (08, 09): state (Table NRW-10); both ring positions; the ring followed (true B); its tick, T_c, the present edge and
those of valid headers with their ticks, newest first (1/16 ns); the instant its gates are played to; an edge of the window
extrapolated; silent windows, windows without MASTER, what the window has verified; SAFE_CAUSE; bypass; headers in a row with
enable 0, toggle and enable changes due at the next edge, bypass opening due; the edge since which it is ENABLED; N_orph and SAFE_BYP
in force and to come; driver causes and gates that stand, latched faults, short circuits of the window, the ALERT to repeat; counters
(LATE, FRM_ERR, INTLK, BS_CLAMP, silent windows, ALERTs) in all and of the window; the closed window's part of the status word;
HEALTH; driver registers by gate·65536 + address; the record of the window just closed, once a container has passed: averages, instantaneous
values, status word. -/
structure NodeDev where
  state : Nat := 0
  a : NPath := {}
  b : NPath := {}
  follow : Option Bool := none
  tick : Nat := 0
  tc : Nat := 8000
  edge : Int := 0
  edges : List (Nat × Int) := []
  played : Int := 0
  local_ : Bool := false
  silent : Nat := 0
  orphan : Nat := 0
  heard : Bool := false
  master : Bool := false
  safeCause : Nat := 0
  bypass : Bool := false
  zeros : Nat := 0
  toggled : Bool := false
  enNext : Bool := false
  bypOpen : Bool := false
  since : Int := 0
  norph : Nat := 6
  safeByp : Bool := false
  cfgNext : Option (Nat × Bool) := none
  presentC : Nat := 0
  present : Nat := 0
  drvFlt : Nat := 0
  scFlag : Nat := 0
  standing : Option (Nat × Nat) := none
  counts : List Nat := [0, 0, 0, 0, 0, 0]
  window : List Nat := [0, 0, 0, 0, 0, 0]
  closed : Nat := 0
  health : Bool := false
  pairs : Table NPair := []
  drv : Table Word := []
  record : Option (List Int × List Int × Nat) := none
  deriving DecidableEq, Repr

/-- A lane (07); on a Strait port the even lane holds what is the port's. Transmitter: its scrambler's last 64 line bits; the picosecond of the tick
at which the next block starts; blocks of the stream since the last FILLER; ORDERED blocks and frames waiting, the first frame begun (`mid`); blocks
striped since the last ALIGN, its marker count, the parity since it; injections due (0 any bit, 2 a payload bit, 3 a sync header); the pattern's
position. Receiver: the amplitude is below its threshold; blocks that wait for the other lane, with whether they are invalid; blocks since an ALIGN
place, the last marker count, failed places in a row; the last frame was delivered errored; the checker: last 31 bits, error-free bits in a row, errors of
the last 1,024 bits. Then: the rate in force; RX_READY sent; has been UP since enabled; EIDLE received (1 electrical, 2
deep); waits for EN after a training timeout; marker lock; the last 64 sync headers, a set bit for an invalid one; the counts of the
last invalid ones; elastic buffer fill, insertion due, discarding; the last 64 line bits; a frame in progress, errored; BIP of the
bytes since the last ALIGN. -/
structure LaneU where
  rate : Nat := 1
  ready : Bool := false
  wasUp : Bool := false
  eidle : Nat := 0
  held : Bool := false
  marker : Bool := false
  bad : Nat := 0
  badAt : List Nat := []
  fill : Nat := 8
  skip : Bool := false
  line : BitVec 64 := 0
  inFrame : Bool := false
  errored : Bool := false
  bip : BitVec 8 := 0
  tx : BitVec 64 := 0
  free : Nat := 0
  since : Nat := 0
  ord : List LBlk := []
  frames : List (List LBlk) := []
  mid : Bool := false
  striped : Nat := 0
  mark : Nat := 0
  txBip : BitVec 8 := 0
  inj : List Nat := []
  gen : Nat := 0
  amp : Bool := true
  fifo : List (LBlk × Bool) := []
  amPos : Nat := 0
  amCount : Option Nat := none
  amFail : Nat := 0
  cut : Bool := false
  chk : Nat := 0
  chkRun : Nat := 0
  chkErrs : Nat := 0
  deriving DecidableEq, Repr

end Sys2Proof
end

