-- ==== Sys2Proof/Units/Plant.lean ====
section
/-! DEFINITION. The state of the station ADC, the feedback interfaces, the motor ports and the safety channels (16, 15,
14, 13), beyond what their registers hold. Field defaults are the values at reset. -/
namespace Sys2Proof

/-- A calibration in progress (16 R481). -/
structure CalU where
  fs : Bool
  vfs : Int
  begun : Bool := false
  sum : Int := 0
  cnt : Nat := 0
  ticks : Nat := 0
  deriving DecidableEq, Repr

/-- A slot of the station ADC: conversions of the sequence in progress, averaged code, test code; filter (R475); failed
tests (R480); range (R477); the delivered value before HOLD (R478). -/
structure AdcSlotU where
  sum : Int := 0
  n : Nat := 0
  refBad : Bool := false
  x : Option Int := none
  tested : Bool := false
  filt : Int := 0
  loaded : Bool := false
  fails : Nat := 0
  isOpen : Bool := false
  viol : Nat := 0
  good : Int := 0
  pre : Int := 0
  cal : Option CalU := none
  deriving DecidableEq, Repr

/-- The station ADC: the settings in force (R470), whether a sequence runs and for which tick, the converters whose rest
is skipped, and the run of sequences with a timeout of each. -/
structure AdcU where
  cfg : Table Word := []
  slots : Table AdcSlotU := []
  running : Bool := false
  tick : Nat := 0
  skip0 : Bool := false
  skip1 : Bool := false
  tmo0 : Nat := 0
  tmo1 : Nat := 0
  deriving DecidableEq, Repr

/-- An SSI frame in progress: the edge accumulator and the counter at its start, the tick from whose edge on its value is
presented (15 R444, R447). -/
structure SsiStart where
  acc : Int
  pos : Int
  tick : Nat
  deriving DecidableEq, Repr

/-- A valid SSI frame whose tick edge is still to come: its start and its data as received (15 R444). -/
structure SsiDue where
  start : SsiStart
  raw : Nat
  deriving DecidableEq, Repr

/-- A feedback interface (15): accepted levels; counter and 48-bit edge accumulator; quadrant, angle and amplitude runs;
the latest change, whether a quadrature error followed it, the latest period (Δn, t1, t2) and its reversal; the accumulator at
the last 1,000 edges, latest first; edges and ticks since for the port inputs, and the eight inputs latched; SSI history and the valid
frames that await their tick edge; reference index and pending correction. -/
structure EncU where
  a : Bool := false
  b : Bool := false
  z : Bool := false
  pos : Int := 0
  acc : Int := 0
  quad : Int := 0
  phi : Option Nat := none
  ampOut : Nat := 0
  ampIn : Nat := 0
  ampLow : Nat := 0
  qerrHold : Bool := false
  cleanRun : Nat := 0
  lastT : Option Nat := none
  broken : Bool := false
  period : Option (Nat × Nat × Nat) := none
  sinceRev : Nat := 0
  hist : List Int := []
  speed : Int := 0
  ssiSpeed : Int := 0
  edges : Nat := 0
  idle : Nat := 0
  latched : List Int := [0, 0, 0, 4, 0, 0, 0, 0]
  ssi : Option SsiStart := none
  ssiDue : List SsiDue := []
  ssiPrev : Option Int := none
  ssiUnwrap : Int := 0
  ssiLoad : Bool := true
  ssiGood : Nat := 2
  ssiBad : Nat := 0
  pIdx : Option Int := none
  pIdxNext : Bool := false
  corr : Option Int := none
  deriving DecidableEq, Repr

/-- One phase of a motor port (14): its pins as a pair of 05 at the end of the stretch played, the transitions of that
stretch and the upper gate's level at its start; the end of a forced notch; the carrier periods without a refresh interval and whether
the present one has had it; the start of the upper gate's off-interval; the instant counted up to (1/32 counts). -/
structure PhaseU where
  pins : PairU := {}
  plan : List EfRec := []
  startUp : Bool := false
  notchEnd : Option Int := none
  periods : Nat := 0
  met : Bool := false
  offAt : Option Int := none
  seen : Int := 0
  deriving DecidableEq, Repr

/-- A motor port (14): the latch computed and the one in force; phases; the values latched; ready; t_bsc elapsed; the
enable toggle's writes (1 after EN_REQ = 0, 2 after EN_REQ = 1) and the end of t_tog; the valley of the last forced refresh and
whether one came since the last wake; the inputs written at the last wake; the replica line's span in ps, measured and in force. -/
structure PortU where
  pend : Option Latch := none
  cur : Option Latch := none
  phases : Table PhaseU := []
  vals : List Int := [0, 0, 0, 0]
  ready : Bool := false
  bscDone : Bool := false
  toggle : Nat := 0
  togEnded : Bool := false
  lastRefresh : Option Int := none
  refreshed : Bool := false
  inputs : List Int := []
  tapPend : Option Nat := none
  tap : Nat := 0
  deriving DecidableEq, Repr

/-- One class A channel (13): accepted contact levels (SFI_A in [7:0], SFI_B in [15:8]), pairs in demand, discrepancy windows open, discrepancy
faults and those that have seen both contacts in demand since; standing SLS violations, SS1 running and complete, interlocks reset, STO
outputs active, by port; absolute speed at the SS1 request, 1/16 count/s. -/
structure SafCh where
  lvl : Nat := 0
  demand : Nat := 0
  win : Nat := 0
  disc : Nat := 0
  stage : Nat := 0
  viol : Nat := 0
  ss1 : Nat := 0
  done : Nat := 0
  reset : Nat := 0
  out : Nat := 0
  v0 : Table Nat := []
  deriving DecidableEq, Repr

/-- The safety functions (13): both channels; the protection set-up in force (192 bytes, none where no bank is checked); the SPB
written since the last confirmation; the burn in progress (contents, bank, journal sequence of its request); the staged Harbour key (20 R583); consecutive records above the TEMP limit, by ring·16 +
node; consecutive failures of the halt-matrix injection and mismatching sweeps. -/
structure SafU where
  a : SafCh := {}
  b : SafCh := {}
  spb : List Byte := []
  staged : Option (List Byte) := none
  burn : Option (List Byte × Nat × Nat) := none
  key : Option (List Byte) := none
  temps : Table Nat := []
  hmFails : Nat := 0
  sweeps : Nat := 0
  hot : Bool := false
  deriving DecidableEq, Repr

/-- A record of a capture set (11 R342): tick, whether a source was not refreshed, the values in source order. -/
structure CapRec where
  tick : Nat
  stale : Bool
  vals : List Int
  deriving DecidableEq, Repr

/-- A capture set (11 R342 to R345): sources (isle, source code), records oldest first, bytes sent since the last resend,
consecutive resends, the count from which the next ferry may start. -/
structure CapU where
  srcs : List (Nat × Nat) := []
  recs : List CapRec := []
  sent : Nat := 0
  resends : Nat := 0
  due : Nat := 0
  deriving DecidableEq, Repr

end Sys2Proof
end

