-- ==== Sys2Proof/Units/Fabric.lean ====
section
/-! DEFINITION. The state of the fabric: ports, link state, root, leases, merge (10), queues and credits (11); and of the pair
(12). Field defaults are the values at reset. -/
namespace Sys2Proof

/-- A Strait port beyond its registers: the last valid HELLO of the own fabric, and the UID last heard; weighted round robin balances of TC2 and TC3; the next account of each
class; shaper tokens in quarter bits of TC0 and TC1, and the count at which they stood. -/
structure FabPort where
  hello : Option Hello := none
  heard : Nat := 0
  g2 : Int := 0
  g3 : Int := 0
  rr : List Nat := [0, 0, 0, 0]
  tok0 : Nat := 131072
  tok1 : Nat := 1048576
  tokAt : Nat := 0
  deriving DecidableEq, Repr

/-- Credit counts of one class on one port (11 R329); its consecutive credit timeouts, and whether one runs (R330). -/
structure Credit where
  limit : Nat := 0
  consumed : Nat := 0
  received : Nat := 0
  tmo : Nat := 0
  wait : Bool := false
  deriving DecidableEq, Repr

/-- A ferry held in the Shoal (11 R331, R332): account, egresses still due (4 local), units held, count of its acceptance, count at which the
copies that have started are sent in full. -/
structure QEntry where
  acct : Nat
  egress : List Nat
  units : Nat
  since : Nat
  ferry : Ferry
  ends : Nat := 0
  deriving DecidableEq, Repr

/-- An advertisement held, and its age in s (10 R303). -/
structure LsaRec where
  lsa : Lsa
  age : Nat
  deriving DecidableEq, Repr

/-- A lease granted by this root (10 R294): UID, address, remaining s. -/
structure LeaseRec where
  uid : Nat
  addr : Nat
  left : Nat
  deriving DecidableEq, Repr

/-- A merge this part is losing (10 R311 to R316): the winner's root; start tick and mode; the remainder in ns; syncs within 5 ns; completion tick; epoch, k0, T (ns) of the winner. -/
structure MergeU where
  winner : Nat
  km : Option Nat := none
  slew : Bool := true
  left : Int := 0
  near : Nat := 0
  kd : Option Nat := none
  epoch : Nat := 0
  k0 : Nat := 0
  period : Nat := 0
  deriving DecidableEq, Repr

/-- A message being put together from ferries (11 R346): source, identifier, message type and transaction ID (0 for a reply), bytes so far,
number of the next part. -/
structure Partial where
  src : Nat
  id : Nat
  typ : Nat
  tx : Nat
  body : List Byte
  next : Nat
  deriving DecidableEq, Repr

/-- A reply stored for a gateway's request (11 R347): gateway, identifier, instant, body; 17 R505 gives the span. -/
structure StoredReply where
  addr : Nat
  id : Nat
  at_ : Nat
  body : List Byte
  deriving DecidableEq, Repr

/-- The fabric: ports; credits by port·4 + class; queues; local ferries that wait for units; sequences by destination·4 + class;
link state and reachable UIDs; own sequence; current root key; edges as own candidate; RESIGN pending; a port has been ACTIVE since
BOOT; highest epoch seen; another device keeps this one's address (R293, R315); address, its kind, remaining lease and its term; leases and reserved addresses; routes (UID, distance, ports); merge;
messages being reassembled and replies stored. -/
structure FabU where
  ports : Table FabPort := []
  creds : Table Credit := []
  queue : List QEntry := []
  waiting : List QEntry := []
  seqs : Table Nat := []
  lsas : List LsaRec := []
  reach : List Nat := []
  lsaSeq : Nat := 0
  root : Option (Nat × Nat) := none
  cand : Nat := 0
  resigned : Bool := false
  active : Bool := false
  topEpoch : Nat := 0
  conflict : Bool := false
  addr : Nat := 0
  kind : Nat := 0
  left : Nat := 0
  term : Nat := 0
  leases : List LeaseRec := []
  reserved : List LeaseRec := []
  routes : List (Nat × Nat × List Nat) := []
  merge : Option MergeU := none
  parts : List Partial := []
  replies : List StoredReply := []
  deriving DecidableEq, Repr

/-- The pair (12): the latest valid heartbeat; whether one, an alive transition, RELINQUISH came in this window; windows silent of
each; paired; the partner declared lost; PAIR_ALIVE_OUT; k_d of a takeover in progress and the values it takes; k_h agreed, and whether
this device gives (false takes) control; k_h asked for; since when the revert conditions hold; when MIR_CFG came last; next origin
sequence expected, with its epoch, and the highest seen; a gap in the mirror; what is to be mirrored and when MIR_CFG was sent last; own digests of the last round with their
tick; mismatching and matching rounds by isle; ticks in which every node followed the other ring; RELINQUISH to send; PAIR_DEGR stands. -/
structure RedU where
  hb : Option Heartbeat := none
  hbNow : Bool := false
  aliveNow : Bool := false
  relNow : Bool := false
  hbQuiet : Nat := 0
  aliveQuiet : Nat := 0
  paired : Bool := false
  lost : Bool := false
  aliveOut : Bool := false
  kd : Option Nat := none
  take : Option Heartbeat := none
  kh : Option (Nat × Bool) := none
  asked : Option Nat := none
  hold : Option Nat := none
  mirAt : Option Nat := none
  mirNext : Option (Nat × Nat) := none
  mirTop : Nat := 0
  gap : Bool := false
  mirOut : List MirItem := []
  mirSent : Nat := 0
  digTick : Nat := 0
  digests : Table Nat := []
  bad : Table Nat := []
  good : Table Nat := []
  split : Nat := 0
  relinq : Bool := false
  degr : Bool := false
  deriving DecidableEq, Repr

end Sys2Proof
end

