-- ==== Sys2Proof/Units/Host.lean ====
section
/-! DEFINITION. The state of the host side: sessions, transactions, remote requests, publications, subscriptions, CAN (17); of modes,
power and temperature (20); of the bus, the configuration check and memory protection (19, 01). Field defaults are the values at
reset. Instants are counts of 2.5 ns since the first edge (`TideU.abs`). -/
namespace Sys2Proof

/-- A response kept for its request ID (17 R505). -/
structure Kept where
  req : Nat
  at_ : Nat
  typ : Nat
  body : List Byte
  deriving DecidableEq, Repr

/-- A body being received in parts (17 R499): request, message type, the bytes so far, the sequence of the last part, transaction. -/
structure PartIn where
  req : Nat
  typ : Nat
  body : List Byte
  seq : Nat
  tx : Nat
  deriving DecidableEq, Repr

/-- A Harbour session (17 R500 to R502): ID, client ID, address, key, opened under the zero key; last sequence accepted and last sent;
responses kept; the value in parts. -/
structure Session where
  id : Nat
  client : Nat
  ip : Nat
  key : List Byte
  zero : Bool
  last : Nat
  sent : Nat := 0
  kept : List Kept := []
  part : Option PartIn := none
  deriving DecidableEq, Repr

/-- An open transaction (17 R506): its ID, the session that opened it, its entries. -/
structure TxU where
  id : Nat
  session : Nat
  ents : List Ent := []
  deriving DecidableEq, Repr

/-- A request sent on to another device (17 R505, 11 R346): identifier, session, the host's request ID, message type, transaction, target. -/
structure RemoteU where
  id : Nat
  session : Nat
  req : Nat
  typ : Nat
  tx : Nat
  target : Nat
  deriving DecidableEq, Repr

/-- What a publication sampled at a tick edge (17 R510): the tick, the epoch, the values. -/
structure PubSample where
  k : Nat
  epoch : Nat
  values : List Byte
  deriving DecidableEq, Repr

/-- A publication (17 R510, Table DIC-9): fields (index, subindex, type), destinations (fabric address, IP address), sequence of the
next one; what it sampled and has not sent yet. -/
structure PubU where
  enable : Bool := false
  period : Nat := 50000
  fields : List (Nat × Nat × Nat) := []
  dests : List (Nat × Nat) := []
  seq : Nat := 0
  sample : Option PubSample := none
  deriving DecidableEq, Repr

/-- A subscription (17 R512, R513): source and publication; targets (index, subindex); droop bytes; age limit; state (0 idle, 1 current, 2
stale, 3 droop); last sequence accepted; fields that failed a check. -/
structure SubU where
  source : Nat := 0
  check : Nat := 0
  targets : List (Nat × Nat) := []
  droop : List Byte := []
  ageLimit : Nat := 3
  state : Nat := 0
  seq : Option Nat := none
  fails : Nat := 0
  deriving DecidableEq, Repr

/-- A PDO (17 R514, R516, R517): COB-ID where it was written, transmission type, inhibit and event time, mapping entries by place from 1;
the content last accepted or sent; SYNCs since the last sent; timed out. -/
structure PdoU where
  cob : Option Nat := none
  typ : Nat := 0xFE
  inhibit : Nat := 0
  event : Nat := 0
  map : Table Nat := []
  last : Option (List Byte) := none
  syncs : Nat := 0
  tmo : Bool := false
  deriving DecidableEq, Repr

/-- Who waits for the result of a confirmation (13 R400, 18 R527): a session's request (ID, session, message type), a gateway (address,
identifier), CAN. -/
inductive Asker where
  | harbour (req session typ : Nat)
  | gateway (addr id : Nat)
  | can
  deriving DecidableEq, Repr

/-- The host side (17). `ips`: authentication failures by address and instant; `bans`: addresses banned; `tmoTx`: transactions aborted by
timeout, with their sessions; `netEth`, `netCan`: network registers in force, taken as ETH_EN or CAN_EN sets; `nmt`: 0 Initialisation,
1 Pre-operational, 2 Operational, 3 Stopped; `window`: 0x5F00:01; `sums`: what reads cleared of counters since BOOT, by register
address · 32 + lowest bit; `engBase`: 0x54ss:07; RPDOs discarded. -/
structure HostU where
  sessions : List Session := []
  txs : List TxU := []
  tmoTx : List (Nat × Nat) := []
  ips : List (Nat × Nat) := []
  bans : List Nat := []
  remote : List RemoteU := []
  nextRemote : Nat := 1
  pubs : Table PubU := []
  subs : Table SubU := []
  rpdos : Table PdoU := []
  tpdos : Table PdoU := []
  nmt : Nat := 0
  heartbeat : Nat := 1000
  emcyCob : Option Nat := none
  netEth : List Word := []
  netCan : Word := 0x227F
  window : Nat := 0x40000000
  ovrIsle : Nat := 0
  lastModeCmd : Nat := 0
  sums : Table Nat := []
  engBase : Table Nat := []
  asker : Option Asker := none
  rpdoLost : Nat := 0
  deriving DecidableEq, Repr

/-- Modes, power, temperature (20): the stage of Table MPT-3 in progress (0 none); held in reset by a clock fault; tripped; the lanes
stopped after a trip; the cause of the coming BOOT; the mode command due; AUTO_RUN waits; rounds of the warning; sensor reading runs of
the comparator; fewer than 5 readings valid; domains whose turn is to come and whose power closes; the gate closed on
temperature; the supervisor restarts; what follows the response in progress (1 device reset, 2 DORMANT); VDD_AON present; every rail in its window. -/
structure PowU where
  stage : Nat := 0
  held : Bool := false
  trip : Bool := false
  lanesOff : Bool := false
  cause : Nat := 1
  modeCmd : Option Nat := none
  autoRun : Bool := false
  hot : Nat := 0
  cool : Nat := 0
  cmpRuns : List Nat := [0, 0]
  round : Nat := 0
  few : Bool := false
  rising : List Nat := []
  gateTemp : Bool := false
  restart : Bool := false
  after : Nat := 0
  aon : Bool := true
  good : Bool := false
  deriving DecidableEq, Repr

/-- The register bus and the configuration check (19): accesses waiting, the first in progress on a domain that is off; the initiator granted last; high words latched
by reads, low words held by writes, plus 1, by initiator · 2^32 + address; a COMMIT waits for a sweep to start; the sweep in progress (judged at
its start, captures); HOLD has stood since its start; the reference and the registers at its start; the supervisor clears HOLD at the capture; HOLD has run out; words to be written back (memory, bank, word); the word that the scrubber reads next,
by memory · 256 + bank (01 R28);
TAP instruction (0 BYPASS, 1 register access, 2 EXTEST, 3 CLAMP, 4 other boundary scan). -/
structure BusU where
  waiting : List Access := []
  turn : Nat := 5
  latched : Table Nat := []
  held : Table Nat := []
  commit : Bool := false
  sweep : Option (Bool × Bool) := none
  holdSeen : Bool := false
  sweepRef : Word := 0
  sweepRegs : Table Word := []
  renew : Bool := false
  holdTmo : Bool := false
  writeBack : List (Nat × Nat × Nat) := []
  scrub : Table Nat := []
  tap : Nat := 0
  deriving DecidableEq, Repr

end Sys2Proof
end

