-- ==== Sys2Proof/Machine/State.lean ====
section
/-! DEFINITION. The state of the block: the queue of waiting commands, the device, and the one-time fuses. -/
namespace Sys2Proof.Machine

/-- The device: its registers (one table for every block of 19 Table REG-4, keyed by primary address) and the state
of its blocks beyond them. -/
structure Dev where
  regs : Table Word := []
  draws : Nat := 0
  out : List Out := []
  tide : TideU := {}
  jrn : JrnU := {}
  isles : Table IsleU := []
  strings : Table StringU := []
  plan : PlanU := {}
  rings : Table RingU := []
  nodes : Table NodeDev := []
  lanes : Table LaneU := []
  ctlTotals : Table Nat := []
  efTotals : Table Nat := []
  adc : AdcU := {}
  encs : Table EncU := []
  ports : Table PortU := []
  saf : SafU := {}
  banks : List (List Byte) := []
  caps : Table CapU := []
  fab : FabU := {}
  red : RedU := {}
  host : HostU := {}
  pow : PowU := {}
  bus : BusU := {}
  deriving DecidableEq, Repr

/-- The block: the commands waiting, the device, and the four one-time fuse banks of 256 bytes (13 R396, 20 R578). -/
structure State where
  pending : List Instr
  dev : Dev
  fuses : List (List Byte)
  deriving DecidableEq, Repr

/-- Reasons a step stops with a fault. The spec gives every command of the block an effect, so no meaning raises one;
the type has the one constructor the interface needs. -/
inductive Fault where
  /-- Raised by nothing; safe. -/
  | none
  deriving DecidableEq, Repr

/-- Reasons a command is refused. -/
inductive Refusal where
  /-- Raised by an arm of `exec` for a command with no meaning yet; safe. -/
  | notModelled (mnemonic : String)
  deriving DecidableEq, Repr

/-- The bytes that Zenale burns in every bank before shipment (20 Table MPT-5): UID, firmware key hash, variant 0x56. The
UID and the hash are the device's own. -/
def factoryBank : List Byte :=
  (List.replicate 232 0 : List Byte) ++ ((List.range 8).map fun i => BitVec.ofNat 8 (Config.uid >>> (8 * i))) ++
    ((List.range 15).map fun i => BitVec.ofNat 8 (Config.keyHash >>> (8 * i))) ++ [0x56]

/-- DORMANT as VDD_AON reaches its window (20 Table MPT-2), no bank commissioned. -/
def State.reset : State :=
  { pending := [], dev := {}, fuses := [factoryBank, factoryBank, factoryBank, factoryBank] }

end Sys2Proof.Machine
end

