-- ==== Sys2Proof/Machine/Ops.lean ====
section
/-! DEFINITION. The named operations over the device: registers and their fields, the tables of units, free values,
outputs, the journal. -/
namespace Sys2Proof.Machine

/-- A bank of fuses with further bits burned: a fuse once burned stays (13 R396). -/
def burnBank : List Byte → List Byte → List Byte
  | a :: t, b :: u => (a ||| b) :: burnBank t u
  | t, [] => t
  | [], _ => []

/-- The fuse banks after bits are burned into bank `n`. -/
def burnBanks : List (List Byte) → Nat → List Byte → List (List Byte)
  | [], _, _ => []
  | b :: t, 0, img => burnBank b img :: t
  | b :: t, n + 1, img => b :: burnBanks t n img

/-- A register's word (reserved bits are never set, 19 R548). -/
def Dev.rd (d : Dev) (a : Nat) : Word := tget regReset d.regs a
/-- Store a register's word. -/
def Dev.wr (d : Dev) (a : Nat) (v : Word) : Dev := { d with regs := tput regReset d.regs a v }
/-- A field's value. -/
def Dev.f (d : Dev) (x : Fld) : Nat := fget (d.rd x.addr) x.lo x.width
/-- Set a field. -/
def Dev.setF (d : Dev) (x : Fld) (v : Nat) : Dev := d.wr x.addr (fset (d.rd x.addr) x.lo x.width v)
/-- A field read as a flag. -/
def Dev.flag (d : Dev) (x : Fld) : Bool := d.f x != 0
/-- Set a status bit. -/
def Dev.raise (d : Dev) (x : Fld) : Dev := d.setF x 1
/-- Clear a status bit. -/
def Dev.lower (d : Dev) (x : Fld) : Dev := d.setF x 0
/-- Add to a saturating counter. -/
def Dev.count (d : Dev) (x : Fld) (n : Nat := 1) : Dev := d.setF x (satAdd x.width (d.f x) n)
/-- A field read as a signed number. -/
def Dev.sf (d : Dev) (x : Fld) : Int := signed x.width (d.f x)

/-- 19 R548: what a write stores by the access codes alone: RW fields take the value, W1C bits written 1 clear. -/
def Dev.store (d : Dev) (a : Nat) (v : Word) : Dev :=
  match decodeAddr a with
  | none => d
  | some l =>
    match regDefAt l with
    | none => d
    | some r =>
      let rw := rwMask r
      d.wr a (((d.rd a &&& ~~~ rw) ||| (v &&& rw)) &&& ~~~ (v &&& accMask r .w1c))

/-- The result code of an action refused in the present state (17 Table DIC-11). -/
def refusedCode : Word := 0x08000022

/-- Is power domain `n` powered (20 Table MPT-9, PWR_DOM_STAT)? -/
def Dev.domOn (d : Dev) (n : Nat) : Bool := (d.rd 0x4001000C).getLsbD n

/-- Does the core run: PD_2 is powered and no main clock fault holds the device in reset (01 R19, R22)? -/
def Dev.coreOn (d : Dev) : Bool := d.domOn 2 && !d.pow.held

/-- The power domain of a lane (01 Table ARC-7). -/
def laneDomain (n : Nat) : Nat := if n < 8 then 8 else if n < 16 then 9 else 10
/-- Has lane `n` power, and so can do anything but lie idle (01 R25)? -/
def Dev.laneOn (n : Nat) (d : Dev) : Bool := d.coreOn && d.domOn (laneDomain n)
/-- Has ring `r` power? -/
def Dev.ringOn (r : Nat) (d : Dev) : Bool := d.coreOn && d.domOn (if r < 8 then 8 else 9)
/-- Has the fabric power? -/
def Dev.fabOn (d : Dev) : Bool := d.coreOn && d.domOn 10

/-- Return to their reset values the registers of the blocks that satisfy `p`. -/
def Dev.clearRegs (d : Dev) (p : Loc → Bool) : Dev :=
  { d with regs := d.regs.filter fun e => match decodeAddr e.1 with | some l => !p l | none => true }

/-- Draw a value that the spec leaves open, below `n`. -/
def Dev.draw (d : Dev) (n : Nat) : Nat × Dev := (Config.freeValue d.draws % n, { d with draws := d.draws + 1 })

/-- Send something out of the block in this step. -/
def Dev.emit (d : Dev) (o : Out) : Dev := { d with out := d.out ++ [o] }

def Dev.isle (d : Dev) (n : Nat) : IsleU := tget (fun _ => {}) d.isles n
def Dev.setIsle (d : Dev) (n : Nat) (u : IsleU) : Dev := { d with isles := tput (fun _ => {}) d.isles n u }
def Dev.modIsle (d : Dev) (n : Nat) (f : IsleU → IsleU) : Dev := d.setIsle n (f (d.isle n))
def Dev.str (d : Dev) (s : Nat) : StringU := tget (fun _ => {}) d.strings s
def Dev.setStr (d : Dev) (s : Nat) (u : StringU) : Dev := { d with strings := tput (fun _ => {}) d.strings s u }
def Dev.modStr (d : Dev) (s : Nat) (f : StringU → StringU) : Dev := d.setStr s (f (d.str s))

def Dev.ring (d : Dev) (r : Nat) : RingU := tget (fun _ => {}) d.rings r
def Dev.setRing (d : Dev) (r : Nat) (u : RingU) : Dev := { d with rings := tput (fun _ => {}) d.rings r u }
def Dev.modRing (d : Dev) (r : Nat) (f : RingU → RingU) : Dev := d.setRing r (f (d.ring r))

/-- The node at place `i` of ring `r`, counted along the fibre. -/
def Dev.node (d : Dev) (r i : Nat) : NodeDev := tget (fun _ => {}) d.nodes (16 * r + i)
def Dev.setNode (d : Dev) (r i : Nat) (u : NodeDev) : Dev := { d with nodes := tput (fun _ => {}) d.nodes (16 * r + i) u }
def laneDflt (n : Nat) : LaneU := { rate := if n < 16 then 1 else 3 }
def Dev.lane (d : Dev) (n : Nat) : LaneU := tget laneDflt d.lanes n
def Dev.setLane (d : Dev) (n : Nat) (u : LaneU) : Dev := { d with lanes := tput laneDflt d.lanes n u }

/-- The tick period in counts of 2.5 ns, T_c (02 R35, 05 opening). -/
def Dev.tc (d : Dev) : Nat := 2 * d.tide.period
/-- The counts from the edge at which the isle window closes (02 R54). -/
def Dev.window (d : Dev) : Nat := d.tc - d.tide.guard

/-- The little-endian bytes of a number (00 R11). -/
def leBytes (n v : Nat) : List Byte := (List.range n).map fun i => BitVec.ofNat 8 (v >>> (8 * i))
/-- The number that little-endian bytes spell. -/
def leNat : List Byte → Nat
  | [] => 0
  | b :: t => b.toNat + 256 * leNat t
/-- Take the byte string from `i`, `n` long; short where the list ends. -/
def slice (l : List Byte) (i n : Nat) : List Byte := (l.drop i).take n
/-- The number in bytes `i` to `i+n-1`. -/
def leAt (l : List Byte) (i n : Nat) : Nat := leNat (slice l i n)

/-! ### The journal (18) -/

def jrnStat (i : Nat) : Fld := ⟨0x45000004, i, 1⟩
def jrnUnflushedLoss : Fld := jrnStat 2
def jrnLostCnt : Fld := ⟨0x4500002C, 16, 16⟩

def Dev.jslot (d : Dev) (s : Nat) : JEntry := tget (fun _ => {}) d.jrn.slots (s % 4096)
def Dev.setJslot (d : Dev) (s : Nat) (e : JEntry) : Dev :=
  { d with jrn := { d.jrn with slots := tput (fun _ => {}) d.jrn.slots (s % 4096) e } }

/-- 12 R359: does the device mirror what it journals: paired and in RUN? -/
def mirrors (d : Dev) : Bool := d.red.paired && d.f ⟨0x40010004, 0, 3⟩ = 4
/-- 12 R359: something for the mirror. -/
def mirror (x : MirItem) (d : Dev) : Dev := if mirrors d then { d with red := { d.red with mirOut := d.red.mirOut ++ [x] } } else d

/-- The supervisor acts `at_` counts after the edge: later entries of the tick carry that instant (18 Table JRN-1). -/
def Dev.atInstant (at_ : Nat) (d : Dev) : Dev := { d with jrn := { d.jrn with at_ := max d.jrn.at_ at_ } }

/-- 18 R528, R532, R534, R536, R537: a new entry takes the next sequence and the slot of the oldest; one overwritten before it was
flushed is lost and counted; the entry goes to the mirror with its whole value. -/
def jAppendV (e : JEntry) (value : List Byte) (d : Dev) : Dev :=
  let s := d.jrn.seq + 1
  let old := d.jslot s
  let e := { e with seq := s, epoch := d.jrn.epoch, time := d.tide.time + 5 * d.jrn.at_ / 2, fabEpoch := d.tide.epoch }
  let d := whenDo (old.seq != 0 && d.jrn.flushed < old.seq)
    (fun d => (d.raise jrnUnflushedLoss).count jrnLostCnt) d
  let d := d.setJslot s e
  mirror (.entry e value) { d with jrn := { d.jrn with seq := s } }
def jAppend (e : JEntry) (d : Dev) : Dev := jAppendV e e.value d

/-- 18 R527 step 4, R528, R535, R537: word 3 of a held entry is replaced; a flushed entry is due to be copied again. -/
def jRewrite (s : Nat) (f : JEntry → JEntry) (d : Dev) : Dev :=
  let e := d.jslot s
  if e.seq = s then
    let e := f e
    let d := d.setJslot s e
    mirror (.entry e e.value) { d with jrn := { d.jrn with
        again := if s ≤ d.jrn.flushed then d.jrn.again ++ [s] else d.jrn.again } }
  else d

/-- An EVENT entry (18 R524, Tables JRN-2, JRN-3). -/
def jEvent (code : Nat) (data : List Byte) (index : Nat) (d : Dev) : Dev :=
  jAppend { kind := 3, st := 1, chan := 0, index := index,
            value := (leBytes 2 code ++ data ++ List.replicate 14 0).take 16 } d

/-- Step 2 of R527: a WRITE entry in state PENDING. A value over 16 bytes is referred to by its length, its CRC-32C `crc` and 8 bytes of
the object, as is the confirmation with its bank number (Table JRN-2). -/
def jPending (o : Origin) (index sub typ tx : Nat) (member : Bool) (crc : List Byte → Nat) (value more : List Byte) (d : Dev) : Dev :=
  let ref := 16 < value.length || (index = 0x5200 && sub = 3)
  jAppendV { kind := 1, st := 0, result := 0xFFFFFFFF, chan := o.chan, source := o.source, index := index, sub := sub,
             typ := typ, txId := tx, txMember := member, valueRef := ref,
             value := ((if ref then leBytes 4 value.length ++ leBytes 4 (crc value) ++ more else value) ++ List.replicate 16 0).take 16 } value d

/-- Step 4 of R527: the entry `s` is DONE with its result. -/
def jDone (s : Nat) (result : Word) (d : Dev) : Dev := jRewrite s (fun e => { e with result := result, st := 1 }) d

end Sys2Proof.Machine
end

