-- ==== Sys2Proof/Machine/Wire.lean ====
section
/-! DEFINITION. Check values over bytes: CRC-16 and CRC-8 of the rings (08 R223), CRC-32C (19 R562), SHA-256 and HMAC (17 R500,
20 R583). -/
namespace Sys2Proof.Machine

/-- `n` shifts of a CRC of `w` bits, most significant bit first, polynomial `p`. -/
def crcShift (w p : Nat) : Nat → Nat → Nat
  | 0, c => c
  | n + 1, c => crcShift w p n (if c.testBit (w - 1) then (2 * c) % 2 ^ w ^^^ p else 2 * c)

/-- 08 R223: polynomial 0x1021, initial value 0xFFFF. -/
def crc16 (l : List Byte) : Nat := l.foldl (fun c b => crcShift 16 0x1021 8 (c ^^^ (b.toNat * 256))) 0xFFFF
/-- 08 R223: polynomial 0x07, initial value 0. -/
def crc8 (l : List Byte) : Nat := l.foldl (fun c b => crcShift 8 0x07 8 (c ^^^ b.toNat)) 0

/-- `n` shifts of the reflected CRC-32C. -/
def crc32Shift : Nat → Nat → Nat
  | 0, c => c
  | n + 1, c => crc32Shift n (if c.testBit 0 then c / 2 ^^^ 0x82F63B78 else c / 2)

/-- 19 R562: initial value 0xFFFFFFFF, reflected, final inversion. -/
def crc32c (l : List Byte) : Nat := l.foldl (fun c b => crc32Shift 8 (c ^^^ b.toNat)) 0xFFFFFFFF ^^^ 0xFFFFFFFF

/-- The eight 32-bit words of a 256-bit number, most significant first. -/
def words8 (n : Nat) : List Word := (List.range 8).map fun i => BitVec.ofNat 32 (n >>> (224 - 32 * i))

/-- SHA-256's round constants, eight to a row: the first 32 bits of the fractional parts of the cube roots of the first 64 primes. -/
def shaRows : List Nat :=
  [0x428a2f9871374491b5c0fbcfe9b5dba53956c25b59f111f1923f82a4ab1c5ed5,
   0xd807aa9812835b01243185be550c7dc372be5d7480deb1fe9bdc06a7c19bf174,
   0xe49b69c1efbe47860fc19dc6240ca1cc2de92c6f4a7484aa5cb0a9dc76f988da,
   0x983e5152a831c66db00327c8bf597fc7c6e00bf3d5a7914706ca635114292967,
   0x27b70a852e1b21384d2c6dfc53380d13650a7354766a0abb81c2c92e92722c85,
   0xa2bfe8a1a81a664bc24b8b70c76c51a3d192e819d6990624f40e3585106aa070,
   0x19a4c1161e376c082748774c34b0bcb5391c0cb34ed8aa4a5b9cca4f682e6ff3,
   0x748f82ee78a5636f84c878148cc7020890befffaa4506cebbef9a3f7c67178f2]
def shaK : List Word := shaRows.flatMap words8

/-- The initial hash value of SHA-256: the same of the square roots of the first 8 primes. -/
def shaInit : List Word := words8 0x6a09e667bb67ae853c6ef372a54ff53a510e527f9b05688c1f83d9ab5be0cd19

/-- The big-endian word of four bytes. -/
def beWord (l : List Byte) : Word := BitVec.ofNat 32 (l.foldl (fun a b => a * 256 + b.toNat) 0)
/-- The big-endian bytes of a word. -/
def beBytes (w : Word) : List Byte := [24, 16, 8, 0].map fun s => (w >>> s).setWidth 8

/-- The message schedule: words 16 to 63 appended to the block's 16 (newest first). -/
def shaSched : Nat → List Word → List Word
  | 0, l => l
  | n + 1, l =>
    let a := l.getD 14 0
    let b := l.getD 1 0
    let s0 := a.rotateRight 7 ^^^ a.rotateRight 18 ^^^ (a >>> 3)
    let s1 := b.rotateRight 17 ^^^ b.rotateRight 19 ^^^ (b >>> 10)
    shaSched n ((l.getD 15 0 + s0 + l.getD 6 0 + s1) :: l)

/-- A word rotated by three counts, summed without carry. -/
def rot3 (x : Word) (i j k : Nat) : Word := x.rotateRight i ^^^ x.rotateRight j ^^^ x.rotateRight k

/-- One round over the eight working words: FIPS 180-4's choice and majority. -/
def shaRound (v : List Word) (kw : Word × Word) : List Word :=
  match v with
  | [a, b, c, d, e, f, g, h] =>
    let choice := g ^^^ (e &&& (f ^^^ g))
    let major := (a &&& b) ||| (c &&& (a ||| b))
    let x := h + choice + rot3 e 6 11 25 + kw.1 + kw.2
    [x + major + rot3 a 2 13 22, a, b, c, d + x, e, f, g]
  | _ => v

/-- One 64-byte block. -/
def shaBlock (h : List Word) (blk : List Byte) : List Word :=
  let ws := (List.range 16).map fun i => beWord (slice blk (4 * i) 4)
  let w := (shaSched 48 ws.reverse).reverse
  List.zipWith (· + ·) h ((List.zip shaK w).foldl shaRound h)

/-- The blocks of a padded message. -/
def shaBlocks : Nat → List Byte → List Word → List Word
  | 0, _, h => h
  | n + 1, l, h => shaBlocks n (l.drop 64) (shaBlock h (l.take 64))

def sha256 (m : List Byte) : List Byte :=
  let n := m.length
  let pad := (119 - n % 64) % 64
  let msg := m ++ ([0x80] : List Byte) ++ (List.replicate pad 0 : List Byte) ++ ((List.range 8).map fun i => BitVec.ofNat 8 ((8 * n) >>> (8 * (7 - i))))
  (shaBlocks (msg.length / 64) msg shaInit).flatMap beBytes

def hmac (key m : List Byte) : List Byte :=
  let k := if 64 < key.length then sha256 key else key
  let k := k ++ List.replicate (64 - k.length) 0
  sha256 (k.map (· ^^^ 0x5c) ++ sha256 (k.map (· ^^^ 0x36) ++ m))

end Sys2Proof.Machine
end

