-- ==== Sys2Proof/Machine/Ecdsa.lean ====
section
/-! DEFINITION. Verification of a firmware slot (20 R580): the header, and ECDSA over the curve P-256 with SHA-256, whose constants and equations are
those of FIPS 186 (PRESUMED: the spec names the scheme alone). The numbers of key and signature are little-endian, as 00 R11 has all fields. -/
namespace Sys2Proof.Machine

/-- The field's prime, the group's order, the curve's constant and its base point. -/
def fieldPrime : Nat := 2 ^ 256 - 2 ^ 224 + 2 ^ 192 + 2 ^ 96 - 1
def groupOrder : Nat := 0xFFFFFFFF00000000FFFFFFFFFFFFFFFFBCE6FAADA7179E84F3B9CAC2FC632551
def curveConst : Nat := 0x5AC635D8AA3A93E7B3EBBD55769886BC651D06B0CC53B0F63BCE3C3E27D2604B
def basePoint : Nat × Nat :=
  (0x6B17D1F2E12C4247F8BCE6E563A440F277037D812DEB33A0F4A13945D898C296,
   0x4FE342E2FE1A7F9B8EE7EB4A7C0F9E162BCE33576B315ECECBB6406837BF51F5)

/-- `b ^ e * acc` modulo `m`, over the lowest `n` bits of `e`. -/
def powMod (m : Nat) : Nat → Nat → Nat → Nat → Nat
  | 0, _, _, acc => acc
  | n + 1, b, e, acc => powMod m n (b * b % m) (e / 2) (if e % 2 = 1 then acc * b % m else acc)

/-- The inverse of `x` modulo a prime of at most 256 bits. -/
def invMod (m x : Nat) : Nat := powMod m 256 (x % m) (m - 2) 1

/-- The third point of the line of slope `l` through two points, mirrored. -/
def chord (l : Nat) (a b : Nat × Nat) : Nat × Nat :=
  let p := fieldPrime
  let x := (l * l + (p - a.1) + (p - b.1)) % p
  (x, (l * (a.1 + (p - x)) + (p - a.2)) % p)

/-- The sum of two points of the curve; `none` is the point at infinity. -/
def pointAdd : Option (Nat × Nat) → Option (Nat × Nat) → Option (Nat × Nat)
  | none, q => q
  | p, none => p
  | some a, some b =>
    let m := fieldPrime
    if a.1 = b.1 then
      if (a.2 + b.2) % m = 0 then none
      else some (chord (3 * (a.1 * a.1 + (m - 1)) * invMod m (2 * a.2) % m) a a)
    else some (chord ((b.2 + (m - a.2)) * invMod m (b.1 + (m - a.1)) % m) a b)

/-- `acc` plus `k` times a point, over the lowest `n` bits of `k`. -/
def pointMul : Nat → Nat → Option (Nat × Nat) → Option (Nat × Nat) → Option (Nat × Nat)
  | 0, _, _, acc => acc
  | n + 1, k, q, acc => pointMul n (k / 2) (pointAdd q q) (if k % 2 = 1 then pointAdd acc q else acc)

/-- Does a point lie on the curve y² = x³ − 3x + b? -/
def onCurve (q : Nat × Nat) : Bool :=
  let p := fieldPrime
  decide (q.1 < p) && decide (q.2 < p) && (q.2 * q.2 + 3 * q.1) % p = (q.1 * q.1 % p * q.1 + curveConst) % p

/-- Does the signature (r, s) of a digest verify under the public key `q`? -/
def ecdsaOk (q : Nat × Nat) (r s digest : Nat) : Bool :=
  let n := groupOrder
  let w := invMod n s
  let sum := pointMul 256 (digest * w % n) (some basePoint) (pointMul 256 (r * w % n) (some q) none)
  onCurve q && decide (0 < r) && decide (r < n) && decide (0 < s) && decide (s < n) &&
    match sum with | some x => x.1 % n = r | none => false

/-- 20 R580: the version of a firmware slot that verifies: the slot's header and payload against the key hash in the fuses. -/
def slotVersion (hash slot : List Byte) : Option Nat :=
  let len := leAt slot 8 4
  let payload := slice slot 256 len
  let digest := leNat (sha256 (slice slot 0 76 ++ slice slot 140 116 ++ payload)).reverse
  let shaped := leAt slot 0 4 = 0x57465A49 && len ≤ 1048320 && payload.length = len && (slice slot 140 116).all (· = 0)
  if shaped && hash = (sha256 (slice slot 12 64)).take 15 && ecdsaOk (leAt slot 12 32, leAt slot 44 32) (leAt slot 76 32) (leAt slot 108 32) digest then
    some (leAt slot 4 4)
  else none

end Sys2Proof.Machine
end

