-- ==== Sys2Proof/Machine/Coding.lean ====
section
/-! DEFINITION. The coding of the serial lanes (07 R186 to R201, R213) and what their transmitters send: 66-bit blocks, frames as blocks, FILLER,
TRAIN and ALIGN blocks, test patterns. A transmitter's blocks follow one another without a gap; it is brought forward in time by each step that
gives it something to send and by each tick edge. -/
namespace Sys2Proof.Machine

def laneReg (n off : Nat) : Nat := primAddr .lane n off
def laneF (n off lo w : Nat) : Fld := ⟨laneReg n off, lo, w⟩
def laneCtl (n lo w : Nat) : Fld := laneF n 0 lo w
def laneStat (n i : Nat) : Fld := laneF n 4 i 1
/-- LSTATE (Table LAN-4): 0 OFF, 1 WAIT_SIG, 2 CDR, 3 BLOCK, 4 TRAIN, 5 DESKEW, 6 UP, 7 IDLE_E, 8 IDLE_D, 9 PRBS. -/
def lstate (n : Nat) : Fld := laneF n 4 0 4
/-- TXMODE: 0 off or idle, 1 TRAIN, 2 data, 3 pattern. -/
def txMode (n : Nat) : Fld := laneF n 4 8 2
def strait (n : Nat) : Bool := 16 ≤ n
/-- The lanes that move together: both of a Strait port, or the lane alone (R207). -/
def bonded (n : Nat) : List Nat := if strait n then [n - n % 2, n - n % 2 + 1] else [n]
/-- R183: the lane whose fields govern the port. -/
def evenLane (n : Nat) : Nat := if strait n then n - n % 2 else n
/-- The even lane of a Strait port. -/
def portLane (p : Nat) : Nat := 16 + 2 * p
def Dev.modLane (d : Dev) (n : Nat) (f : LaneU → LaneU) : Dev := d.setLane n (f (d.lane n))

/-- The block time of a rate code, in ps (Table LAN-2). -/
def blockPs : Nat → Nat
  | 0 => 25600 | 1 => 12800 | 2 => 6400 | _ => 2560

/-! ### Blocks (R186, R187, Tables LAN-3, LAN-5, LAN-6) -/

/-- A payload of eight bytes, byte 0 sent first. -/
def payload (l : List Byte) : BitVec 64 := BitVec.ofNat 64 (leNat (l.take 8))
def payByte (x : BitVec 64) (i : Nat) : Nat := (x >>> (8 * i)).toNat % 256
def ctrlBlk (l : List Byte) : LBlk := ⟨true, payload l⟩
def filler : LBlk := ctrlBlk [0x1E]
/-- Table LAN-5: `origin`: sent by a node. -/
def trainPay (ready origin : Bool) (lane : Nat) : BitVec 64 :=
  payload [0x2D, 0xC3, BitVec.ofNat 8 (b2n ready + 2 * b2n origin + 4 * (lane % 2)), 0x5A, 0xA5, 0x0F, 0xF0, 0x69]
/-- Table LAN-6. -/
def alignBlk (lane count : Nat) (bip : BitVec 8) : LBlk :=
  ctrlBlk ([0x55, BitVec.ofNat 8 (lane % 2)] ++ leBytes 2 count ++ [bip, 0, 0, 0])
def eidleBlk (deep : Bool) : LBlk := ctrlBlk [0x66, BitVec.ofNat 8 (b2n deep)]
/-- 08 Table NRW-9, 11 Table FTR-4: an ORDERED block: bytes 1 to 6, and byte 7, the CRC-8 over those before. -/
def orderedBlk (l : List Byte) : LBlk :=
  let b : List Byte := (0x4B :: l ++ List.replicate 6 0).take 7
  ctrlBlk (b ++ [BitVec.ofNat 8 (crc8 b)])
/-- TERM_0 to TERM_7. -/
def termTypes : List Nat := [0x87, 0x99, 0xAA, 0xB4, 0xCC, 0xD2, 0xE1, 0xFF]

/-- The bytes after the START block: data blocks, and the TERM block with the 0 to 7 that remain. -/
def bodyBlocks : Nat → List Byte → List LBlk
  | 0, l => [ctrlBlk (BitVec.ofNat 8 (termTypes.getD l.length 0x87) :: l)]
  | n + 1, l => ⟨false, payload l⟩ :: bodyBlocks n (l.drop 8)
/-- 08 R222, 11 R322: a frame's bytes as its START, data and TERM blocks. -/
def frameBlocks (l : List Byte) : List LBlk := ctrlBlk (0x78 :: l.take 7) :: bodyBlocks ((l.length - 7) / 8) (l.drop 7)

/-- R187, R189: a control block's payload meets Table LAN-3. -/
def ctrlOk (b : Nat → Nat) (n : Nat) : Bool :=
  let zero (lo hi : Nat) : Bool := (List.range 8).all fun i => i < lo || hi < i || b i = 0
  match b 0 with
  | 0x1E => zero 1 7
  | 0x2D => b 1 = 0xC3 && b 2 < 8 && b 3 = 0x5A && b 4 = 0xA5 && b 5 = 0x0F && b 6 = 0xF0 && b 7 = 0x69
  | 0x55 => strait n && b 1 < 2 && zero 5 7
  | 0x66 => b 1 < 2 && zero 2 7
  | 0x4B => true
  | 0x78 => true
  | t => termTypes.contains t

/-- R188: TRAIN and ALIGN blocks bypass the scramblers. -/
def bareBlk (b : LBlk) : Bool := b.ctrl && (payByte b.pay 0 = 0x2D || payByte b.pay 0 = 0x55)
def isFiller (b : LBlk) : Bool := b = filler

/-! ### Scrambling (R186) -/

/-- Self-synchronous scrambling by 1 + x^39 + x^58, least significant bit first; `h` the 64 line bits before. -/
def scramble (h x : BitVec 64) : BitVec 64 :=
  let s := x ^^^ (h >>> 25) ^^^ (h >>> 6)
  s ^^^ (s <<< 39) ^^^ (s <<< 58)
/-- Self-synchronous descrambling. -/
def descramble (h x : BitVec 64) : BitVec 64 :=
  x ^^^ (h >>> 25) ^^^ (h >>> 6) ^^^ (x <<< 39) ^^^ (x <<< 58)

/-- The parity of each bit position over a payload's bytes (Table LAN-6, byte 4). -/
def bipOf (x : BitVec 64) (a : BitVec 8) : BitVec 8 := (List.range 8).foldl (fun (a : BitVec 8) i => a ^^^ BitVec.ofNat 8 (payByte x i)) a

/-! ### Transmitters -/

/-- R186, R188, R215, R217: a transmitter sends a block: scrambled, with the errors injected, inverted by TX_INV. -/
def txBlk (inv : Bool) (u : LaneU) (b : LBlk) : LineBlk × LaneU :=
  let p := if bareBlk b then b.pay else scramble u.tx b.pay
  let flip (k : Nat) : Bool := u.inj.contains k && (k != 2 || !b.ctrl)
  let hdr : BitVec 2 := (if b.ctrl then 2 else 1) ^^^ (if flip 3 then 1 else 0)
  let line := p ^^^ (if flip 0 then 1 else 0) ^^^ (if flip 2 then 2 else 0)
  (if inv then ⟨~~~ hdr, ~~~ line⟩ else ⟨hdr, line⟩,
    { u with tx := if bareBlk b then u.tx else p, txBip := bipOf p u.txBip, inj := u.inj.filter fun k => !flip k })

/-- FILLER after FILLER. -/
def txFill (inv : Bool) : Nat → LaneU → LaneU
  | 0, u => u
  | n + 1, u => txFill inv n (txBlk inv u filler).2

/-- R191, R225 rule 6: the next block of a stream, while something waits: an ORDERED block, else of a frame; a FILLER goes before a frame that would
let 4,096 blocks pass without one. -/
def nextBlk (u : LaneU) : Option (LBlk × LaneU) :=
  match u.ord, u.frames with
  | b :: t, _ => some (b, { u with ord := t, since := u.since + 1 })
  | [], (b :: t) :: fs =>
    if !u.mid && 4079 < u.since + t.length then some (filler, { u with since := 0 })
    else some (b, { u with frames := if t.isEmpty then fs else t :: fs, mid := !t.isEmpty, since := if isFiller b then 0 else u.since + 1 })
  | [], _ => none

/-- R220: the stream of a Narrows lane over `n` blocks: what waits, then FILLER; with the FILLER blocks of the end. -/
def txRing (inv : Bool) : Nat → LaneU → List LineBlk × Nat × LaneU
  | 0, u => ([], 0, u)
  | n + 1, u =>
    match nextBlk u with
    | none => ([], n + 1, txFill inv (n + 1) { u with since := 0 })
    | some (b, u) =>
      let x := txBlk inv u b
      let r := txRing inv n x.2
      (x.1 :: r.1, r.2)

/-- R200: the stream of a Strait port over `n` block places of both lanes: block 2i on logical lane 0, 2i + 1 on 1, ALIGN after every 16,383. -/
def txPort (i0 i1 : Bool) : Nat → LaneU → LaneU → List (LineBlk × LineBlk) × Nat × LaneU × LaneU
  | 0, u, v => ([], 0, u, v)
  | n + 1, u, v =>
    let idle := match nextBlk u with | none => true | _ => false
    if idle && u.striped + n < 16383 then
      ([], n + 1, txFill i0 (n + 1) { u with since := 0, striped := u.striped + n + 1 }, txFill i1 (n + 1) v)
    else
      let align := u.striped = 16383
      let a := if align then (alignBlk 0 u.mark u.txBip, { u with striped := 0, mark := (u.mark + 1) % 65536 })
        else ((nextBlk u).getD (filler, { u with since := 0 }))
      let b := if align then (alignBlk 1 u.mark v.txBip, a.2) else ((nextBlk a.2).getD (filler, { a.2 with since := 0 }))
      let x := txBlk i0 (if align then b.2 else { b.2 with striped := b.2.striped + 1 }) a.1
      let y := txBlk i1 v b.1
      let clear (u : LaneU) : LaneU := if align then { u with txBip := 0 } else u
      let r := txPort i0 i1 n (clear x.2) (clear y.2)
      ((x.1, y.1) :: r.1, r.2)

/-! ### Test patterns (R213 to R215) -/

/-- Table LAN-10: the two taps of a pattern's polynomial. -/
def prbsTaps : Nat → Nat × Nat
  | 1 => (7, 6) | 2 => (15, 14) | _ => (31, 28)
/-- The next bit of a sequence after the bits `h` (bit 0 the last one). -/
def prbsNext (pat h : Nat) : Bool := (h.testBit ((prbsTaps pat).1 - 1)) != (h.testBit ((prbsTaps pat).2 - 1))

/-- A step of the checker: the bit `b` arrives; last bits, error-free run, errors of the last 1,024 bits, locked, bit errors counted. -/
def chkBit (pat : Nat) (b : Bool) (a : Nat × Nat × Nat × Bool × Nat) : Nat × Nat × Nat × Bool × Nat :=
  let err := b != prbsNext pat a.1
  let run := if err then 0 else min (a.2.1 + 1) 64
  let errs := if a.2.2.2.1 then (2 * a.2.2.1 + b2n err) % 2 ^ 1024 else 0
  let lost := a.2.2.2.1 && 64 ≤ popCount 1024 errs
  let locked := !lost && (a.2.2.2.1 || run = 64)
  -- while locked the checker runs free on its own sequence; else it seeds itself from the bits received
  ((2 * a.1 + b2n (if a.2.2.2.1 then prbsNext pat a.1 else b)) % 2 ^ 31, run, if locked then errs else 0, locked, a.2.2.2.2 + b2n (a.2.2.2.1 && err))

/-! ### The lanes in time -/

/-- The block places of a lane up to `upto` ps after the edge. -/
def places (n upto : Nat) (d : Dev) : Nat :=
  let bt := blockPs (d.lane n).rate
  (upto - (d.lane n).free + bt - 1) / bt

/-- TX_INV of a lane. -/
def txInv (n : Nat) (d : Dev) : Bool := d.flag (laneCtl n 5 1)

/-- R195, R213: `k` block places of a lane in TRAIN, or of a pattern. -/
def idleLane (n k : Nat) (d : Dev) : Dev :=
  let u := d.lane n
  if d.f (txMode n) = 1 then
    let f := (u.since + k) / 4096
    (d.setLane n { txFill false f u with since := (u.since + k) % 4096, txBip := 0 }).emit (.train n (trainPay u.ready false (if strait n then n else 0)) (k - f) f)
  else if d.f (txMode n) = 3 then
    (d.setLane n { u with gen := u.gen + 66 * k }).emit (.pattern n (d.f (laneF n 0x1C 0 2)) (d.flag (laneF n 0x1C 4 1)) u.gen (66 * k))
  else d

/-- R186 to R200, 08 R220: the transmitter of a lane, or of the port of an even lane, sends up to `upto` ps after the edge. -/
def laneFlow (n upto : Nat) (d : Dev) : Dev :=
  let k := places n upto d
  let later (n : Nat) (d : Dev) : Dev := d.modLane n fun u => { u with free := u.free + k * blockPs u.rate }
  if k = 0 || !d.laneOn n then d
  else if d.f (txMode n) = 2 then
    if strait n then
      if n % 2 = 1 then d
      else
        let r := txPort (txInv n d) (txInv (n + 1) d) k (d.lane n) (d.lane (n + 1))
        let d := (d.setLane n r.2.2.1).setLane (n + 1) r.2.2.2
        let d := if r.1.isEmpty then d else (d.emit (.blocks n (r.1.map (·.1)))).emit (.blocks (n + 1) (r.1.map (·.2)))
        later (n + 1) (later n (if r.2.1 = 0 then d else (d.emit (.fill n r.2.1)).emit (.fill (n + 1) r.2.1)))
    else
      let r := txRing (txInv n d) k (d.lane n)
      let d := d.setLane n r.2.2
      let d := if r.1.isEmpty then d else d.emit (.blocks n r.1)
      later n (if r.2.1 = 0 then d else d.emit (.fill n r.2.1))
  else if d.f (txMode n) = 0 then d
  else later n (idleLane n k d)

/-- Every transmitter reaches the end of the tick, whose length is `tc` counts. -/
def lanesEdge (tc : Nat) (d : Dev) : Dev :=
  forUpTo 24 (fun n d => (laneFlow n (2500 * tc) d).modLane n fun u => { u with free := u.free - 2500 * tc }) d

/-- The blocks that wait on a lane. -/
def waitingBlocks (u : LaneU) : Nat := u.ord.length + (u.frames.map (·.length)).sum
/-- The first block boundary of a lane at or after `at_` ps before which nothing waits. -/
def startAt (n at_ : Nat) (d : Dev) : Nat :=
  let u := d.lane n
  let bt := blockPs u.rate
  let w := waitingBlocks u
  max (u.free + (at_ - u.free + bt - 1) / bt * bt) (u.free + (if strait n then (w + 1) / 2 else w) * bt)

/-- R189: is the frame in progress, or the last one, delivered errored? A consumer at the end of a frame takes the mark with it. -/
def frameErr (e : Nat) (d : Dev) : Bool := (d.lane e).cut || ((d.lane e).inFrame && (d.lane e).errored)
def takeCut (e : Nat) (d : Dev) : Dev := d.modLane e fun u => { u with cut := false }

/-- A lane's transmitter changes its mode: what waited is lost. -/
def setTx (n mode : Nat) (d : Dev) : Dev :=
  (d.setF (txMode n) mode).modLane n fun u => { u with ord := [], frames := [], mid := false, since := 0, striped := 0, gen := 0 }
/-- A transmitter takes a mode, unless it lies in a low-power state. -/
def txTo (n mode : Nat) (d : Dev) : Dev := if d.f (laneCtl n 10 2) != 0 || d.f (txMode n) = mode then d else setTx n mode d

/-- R197, R211: `k` TRAIN blocks with RX_READY 1, one after another. -/
def trainBurst (n k : Nat) (d : Dev) : Dev :=
  (d.modLane n fun u => { u with free := u.free + k * blockPs u.rate }).emit (.train n (trainPay true false (if strait n then n else 0)) k 0)
/-- R211: a transmitter leaves electrical idle: a burst of 64 TRAIN blocks, then data where the lane had come to it. -/
def wakeTx (n : Nat) (d : Dev) : Dev :=
  let d := d.setF (laneCtl n 10 2) 0
  let st := d.f (lstate n)
  if st = 0 || st = 9 then d
  else if 5 ≤ st || (!strait n && (d.lane n).wasUp) then txTo n 2 (trainBurst n 64 d)
  else txTo n 1 d
/-- R211: with AUTO_WAKE, a lane whose owner has a block to send leaves electrical idle. -/
def autoWake (n : Nat) (d : Dev) : Dev := if d.f (laneCtl n 10 2) = 1 && d.flag (laneCtl n 12 1) then wakeTx n d else d

/-- Does a lane's transmitter take data, once woken? -/
def takesData (n : Nat) (d : Dev) : Bool := d.laneOn n && d.f (txMode n) = 2

/-- A frame is given to the transmitter of a lane at `at_` ps. -/
def giveFrame (n at_ : Nat) (l : List LBlk) (d : Dev) : Dev :=
  let d := autoWake n d
  if !takesData n d then d else (laneFlow n at_ d).modLane n fun u => { u with frames := u.frames ++ [l] }
/-- ORDERED blocks are given to it: they go at the next boundaries, ahead of all else (08 R225 rule 6, 09 R275, 11 R328); `first`: ahead of ORDERED
blocks that wait. -/
def giveOrdered (n at_ : Nat) (first : Bool) (l : List LBlk) (d : Dev) : Dev :=
  let d := autoWake n d
  if !takesData n d then d else (laneFlow n at_ d).modLane n fun u => { u with ord := if first then l ++ u.ord else u.ord ++ l }

/-! ### The frames of a ring (08) -/

/-- 05 R151, Table MOD-5: the 64-bit word of an edge record. -/
def recWord (e : EdgeRec) : Nat :=
  e.seq % 65536 + 2 ^ 16 * (e.gen % 1024) + 2 ^ 26 * (e.parity % 4) + 2 ^ 28 * (e.stamp % 2 ^ 24) + 2 ^ 52 * (e.frac % 32) + 2 ^ 57 * b2n e.level +
    2 ^ 58 * (e.gate % 16) + 2 ^ 62 * (e.typ % 4)

/-- 08 Table NRW-1. -/
def headBytes (typ version node ring : Nat) (bcast : Bool) (par len seq : Nat) : List Byte :=
  [BitVec.ofNat 8 (typ % 16 + 16 * version), BitVec.ofNat 8 (node % 16 + 16 * ring), BitVec.ofNat 8 (b2n bcast + 2 * (par % 4))] ++ leBytes 2 len ++
    leBytes 2 seq
/-- 08 Table NRW-3. -/
def tideBody (h : TideHdr) : List Byte :=
  leBytes 8 h.time ++ leBytes 6 h.tick ++ leBytes 2 h.epoch ++ leBytes 4 (h.tc % 2 ^ 24) ++ leBytes 2 h.launch ++
    [BitVec.ofNat 8 (b2n h.master + 2 * b2n h.paired), BitVec.ofNat 8 (b2n h.local_)] ++ leBytes 2 h.en ++ leBytes 2 h.byp ++ leBytes 2 h.halt ++ [0, 0]
/-- 08 Table NRW-8. -/
def edgeBody (f : EdgeFrame) : List Byte :=
  [BitVec.ofNat 8 f.cover.length, BitVec.ofNat 8 f.recs.length, 0, 0, 0, 0, 0, 0] ++
    (f.cover.flatMap fun c => [BitVec.ofNat 8 (c.pair % 8), BitVec.ofNat 8 (c.fromPar % 4 + 4 * (c.toPar % 4))] ++ leBytes 3 c.fromSt ++ leBytes 3 c.toSt) ++
    f.recs.flatMap fun e => leBytes 8 (recWord e)
/-- 08 R237: the containers as the device sends them. -/
def trainBody (n : Nat) : List Byte := (List.range n).flatMap fun i => BitVec.ofNat 8 i :: List.replicate 47 0
/-- 08 Table NRW-11: the request after its header, without its CRC-16. -/
def svcBody (code tag rlen : Nat) (args : List Byte) : List Byte :=
  [BitVec.ofNat 8 code, BitVec.ofNat 8 tag, BitVec.ofNat 8 rlen, 0] ++ (args ++ List.replicate 12 0).take 12
/-- 08 R223: bytes with the CRC-16 over them. -/
def withCrc (l : List Byte) : List Byte := l ++ leBytes 2 (crc16 l)
/-- 08 R222, R224: the blocks of a frame whose bytes after the header number `n`. -/
def blocksOf (n : Nat) : Nat := 2 + n / 8

/-- 08 Table NRW-9: a HALT block. -/
def haltBlk (target : Nat) (byp : Bool) (par : Nat) : LBlk :=
  orderedBlk [2, BitVec.ofNat 8 target, BitVec.ofNat 8 (b2n byp), 0, 0, BitVec.ofNat 8 (par % 4)]
/-- 08 Table NRW-9: an ALERT block. -/
def alertBlk (node causes gates par : Nat) : LBlk :=
  orderedBlk ([1, BitVec.ofNat 8 node, BitVec.ofNat 8 (causes % 8)] ++ leBytes 2 (gates % 4096) ++ [BitVec.ofNat 8 (par % 4)])

end Sys2Proof.Machine
end

