-- ==== Sys2Proof/Machine/Arith.lean ====
section
/-! DEFINITION. The fixed-point arithmetic of the control engine (04 R97 to R102): Q15 words, the 40-bit accumulator
at Q30, coefficients, Q31 integrators. `Sat` counts the saturations of a run. -/
namespace Sys2Proof.Machine

/-- Saturation events of a node's run: of the accumulator, of a store (04 R99). -/
structure Sat where
  acc : Nat := 0
  out : Nat := 0
  deriving DecidableEq, Repr

/-- 04 R98: the scaled product of a coefficient's mantissa and shift with a Q15 operand. -/
def mac (c : Int) (σ : Int) (x : Int) : Int :=
  if 0 ≤ σ then c * x * 2 ^ σ.toNat
  else (c * x + 2 ^ ((-σ).toNat - 1)) / 2 ^ (-σ).toNat

/-- 04 R102: the shift σ held in [3:0] of a coefficient's second word. -/
def shiftOf (w : Int) : Int := signed 4 (w % 16).toNat

/-- 04 R99: a term added into the 40-bit accumulator. -/
def accAdd (a t : Int) (q : Sat) : Int × Sat :=
  let s := a + t
  let r := satS 40 s
  (r, if r = s then q else { q with acc := q.acc + 1 })

/-- The terms of a sum, added in turn from an empty accumulator. -/
def accSum : List Int → Sat → Int × Sat
  | l, q => l.foldl (fun (p : Int × Sat) t => accAdd p.1 t p.2) (0, q)

/-- 04 R99: the store to Q15, rounded half up and saturated. -/
def store15 (a : Int) (q : Sat) : Int × Sat :=
  let v := (a + 2 ^ 14) / 2 ^ 15
  let r := satS 16 v
  (r, if r = v then q else { q with out := q.out + 1 })

/-- The stored value alone. -/
def stored15 (a : Int) : Int := satS 16 ((a + 2 ^ 14) / 2 ^ 15)

/-- 04 R101: a Q31 integrator after adding the accumulator content `a`. -/
def intAdd (i a : Int) : Int := satS 32 (i + 2 * a)
/-- 04 R101: an integrator read at Q15. -/
def intQ15 (i : Int) : Int := satS 16 ((i + 2 ^ 15) / 2 ^ 16)
/-- 04 R101: an integrator added into the accumulator. -/
def intHalf (i : Int) : Int := (i + 1) / 2

/-- The bits [lo+n-1:lo] of a state word, signed. -/
def lineS (l : Line) (lo n : Nat) : Int := signed n ((l.toNat >>> lo) % 2 ^ n)
/-- The bits [lo+n-1:lo] of a state word. -/
def lineN (l : Line) (lo n : Nat) : Nat := (l.toNat >>> lo) % 2 ^ n
/-- A state word from fields (lowest bit, width, value). -/
def mkLine (fs : List (Nat × Nat × Int)) : Line :=
  BitVec.ofNat 128 (fs.foldl (fun a x => a + unsigned x.2.1 x.2.2 * 2 ^ x.1) 0)

/-- Floor of the square root, one bit of the root at a time from bit `b - 1` down. -/
def isqrtFrom (n : Nat) : Nat → Nat → Nat
  | 0, r => r
  | b + 1, r =>
    let t := r + 2 ^ b
    isqrtFrom n b (if t * t ≤ n then t else r)
/-- Floor of the square root of a number below 2^64. -/
def isqrt (n : Nat) : Nat := isqrtFrom n 32 0

end Sys2Proof.Machine
end

