-- ==== Sys2Proof/Machine/Ferries.lean ====
section
/-! DEFINITION. Ferries as every block sends them (11): link state distances and routes (10 R304, R305), the sync tree (R296), Shoal
accounts (R331) and the local origin (R333); and the frame of every command's meaning, which gives what it sends to the fabric. -/
namespace Sys2Proof.Machine

def stpReg (off : Nat) : Nat := primAddr .stp 0 off
def stpF (off lo w : Nat) : Fld := ⟨stpReg off, lo, w⟩
def stpStat (i : Nat) : Fld := stpF 0x34 i 1
def stpTStat (i : Nat) : Fld := stpF 0x22C i 1
def portReg (p off : Nat) : Nat := stpReg (0x100 + 0x20 * p + off)
/-- PSTATE (Table FTP-1): 0 DISABLED, 1 DOWN, 2 LINK, 3 ISOLATED, 4 ACTIVE. -/
def portState (p : Nat) : Fld := ⟨portReg p 4, 0, 3⟩
def fabEn : Fld := stpF 0 0 1
/-- The device's UID. -/
def ownUid : Nat := Config.uid % 2 ^ 64

def Dev.strait (d : Dev) (p : Nat) : FabPort := tget (fun _ => {}) d.fab.ports p
def Dev.modStrait (d : Dev) (p : Nat) (f : FabPort → FabPort) : Dev :=
  { d with fab := { d.fab with ports := tmod (fun _ => {}) d.fab.ports p f } }
def Dev.cred (d : Dev) (p c : Nat) : Credit := tget (fun _ => {}) d.fab.creds (4 * p + c)
def Dev.modCred (d : Dev) (p c : Nat) (f : Credit → Credit) : Dev :=
  { d with fab := { d.fab with creds := tmod (fun _ => {}) d.fab.creds (4 * p + c) f } }
def isRoot (d : Dev) : Bool := d.fab.root.any fun r => r.2 = ownUid

/-! ### Link state -/

def lsaOf (ls : List Lsa) (u : Nat) : Option Lsa := ls.find? fun l => l.uid = u
/-- R303: a link counts when both ends report it. -/
def linked (ls : List Lsa) (a b : Nat) : Bool :=
  match lsaOf ls a, lsaOf ls b with | some x, some y => x.nbrs.contains b && y.nbrs.contains a | _, _ => false
/-- The ports of an advertisement that lead to a UID. -/
def portsTo (l : Lsa) (u : Nat) : List Nat := (List.range 4).filter fun p => l.nbrs.getD p 0 = u

/-- The devices at each distance from the first one of `front`: UID, hops, and the ports of `src` that begin a shortest path. -/
def spread (ls : List Lsa) (src : Nat) : Nat → Nat → List (Nat × Nat × List Nat) → List (Nat × Nat × List Nat) → List (Nat × Nat × List Nat)
  | 0, _, seen, _ => seen
  | n + 1, k, seen, front =>
    let new := ls.filterMap fun l =>
      let from_ := front.filter fun f => linked ls f.1 l.uid
      if (seen.any fun s => s.1 = l.uid) || from_.isEmpty then none
      else
        let ps := from_.flatMap fun f => if f.1 = src then (match lsaOf ls src with | some x => portsTo x l.uid | none => []) else f.2.2
        some (l.uid, k + 1, (List.range 4).filter ps.contains)
    if new.isEmpty then seen else spread ls src n (k + 1) (seen ++ new) new
/-- Every device that a path of links reaches from `src`, itself first (R303, R304). -/
def reachFrom (ls : List Lsa) (src : Nat) : List (Nat × Nat × List Nat) :=
  spread ls src (ls.length + 1) 0 [(src, 0, [])] [(src, 0, [])]

/-- 02 R42: the port through which a device's parent is reached, by link state: the lowest port one hop closer to the root. -/
def treePort (ls : List Lsa) (root u : Nat) : Option Nat :=
  if u = root then none
  else match (reachFrom ls u).find? fun x => x.1 = root with | some x => x.2.2.head? | none => none

def lsasOf (d : Dev) : List Lsa := d.fab.lsas.map (·.lsa)
/-- The neighbour on an ACTIVE port. -/
def nbrUid (p : Nat) (d : Dev) : Nat := if d.f (portState p) = 4 then (match (d.strait p).hello with | some h => h.uid | none => 0) else 0
/-- R296: the ACTIVE ports whose links belong to the sync tree. -/
def treePorts (d : Dev) : List Nat :=
  match d.fab.root with
  | none => []
  | some r => (List.range 4).filter fun p =>
      let n := nbrUid p d
      n != 0 && (treePort (lsasOf d) r.2 ownUid = some p ||
        match lsaOf (lsasOf d) n, treePort (lsasOf d) r.2 n with | some l, some q => l.nbrs.getD q 0 = ownUid | _, _ => false)

/-- R304: up to two next hops, in rising port order. -/
def nextHops (u : Nat) (d : Dev) : List Nat :=
  match d.fab.routes.find? fun r => r.1 = u with | some r => if r.2.1 ≤ 64 then r.2.2.take 2 else [] | none => []
/-- R305: the port a ferry to a device takes. -/
def hopFor (u cls src dest : Nat) (d : Dev) : Option Nat :=
  match nextHops u d with
  | [] => none
  | [p] => some p
  | p :: q :: _ => if cls < 2 then (if d.f (portState p) = 4 then some p else some q)
      else if (src ^^^ dest) % 2 = 0 then some p else some q
/-- The device that holds an address, in the table that forwards. -/
def uidAt (a : Nat) (d : Dev) : Option Nat := (d.fab.lsas.find? fun l => l.lsa.addr = a && l.lsa.uid != ownUid).map (·.lsa.uid)

/-- R296, R305: the egresses of a ferry that came on `from_` (4 the local origin); 4 is local delivery. -/
def egresses (cls src dest from_ : Nat) (d : Dev) : List Nat :=
  if dest = 0xFFF then (treePorts d).filter (· ≠ from_) ++ (if from_ = 4 then [] else [4])
  else if dest = d.fab.addr && dest != 0 then [4]
  else
    let u := if dest = 0xFFE then d.fab.root.map (·.2) else uidAt dest d
    match u with
    | none => []
    | some u => if u = ownUid then [4] else (hopFor u cls src dest d).toList

/-! ### Accounts (11 R331) -/

/-- R327. -/
def creditsFor (len : Nat) : Nat := (28 + len + 63) / 64

def resOf (c : Nat) (d : Dev) : Nat := d.f (stpF (0x210 + 4 * c) 0 12)
def capOf (c : Nat) (d : Dev) : Nat := d.f (stpF (0x210 + 4 * c) 16 13)
def heldUnits (a c : Nat) (d : Dev) : Nat := ((d.fab.queue.filter fun q => q.acct = a && q.ferry.cls = c).map (·.units)).sum
/-- Units of the shared pool that are free. -/
def poolFree (d : Dev) : Nat :=
  let res := ((List.range 4).map fun c => resOf c d).sum
  let lent := ((List.range 5).flatMap fun a => (List.range 4).map fun c => heldUnits a c d - resOf c d).sum
  d.f (stpF 0x208 0 17) - 5 * res - lent
/-- The units an account can still back. -/
def acctFree (a c : Nat) (d : Dev) : Nat :=
  let h := heldUnits a c d
  (resOf c d - h) + min (capOf c d - (h - resOf c d)) (poolFree d)
/-- Table FTR-12: units held by each ingress account and their high-water marks; POOL_EMPTY. -/
def showQueues (d : Dev) : Dev :=
  let d := forUpTo 4 (fun p d =>
    let n := ((d.fab.queue.filter fun q => q.acct = p).map (·.units)).sum
    (d.setF (stpF (0x280 + 4 * p) 0 16) n).setF (stpF (0x280 + 4 * p) 16 16) (max n (d.f (stpF (0x280 + 4 * p) 16 16)))) d
  whenDo (d.flag fabEn && poolFree d = 0) (fun d => d.raise (stpTStat 4)) d

/-- Table FTR-2: the class of a type. -/
def classOf (typ : Nat) : Nat := if typ < 0x10 then 0 else if typ < 0x20 then 1 else if typ < 0x30 then 2 else 3

/-- R333: waiting ferries of the local origin enter account 4 as units come free, in their order within a class; residence counts from then. -/
def admitLocal (d : Dev) : Dev :=
  forEach d.fab.waiting (fun q d =>
    if (d.fab.waiting.find? fun x => x.ferry.cls = q.ferry.cls) = some q && q.units ≤ acctFree 4 q.ferry.cls d then
      { d with fab := { d.fab with waiting := d.fab.waiting.erase q, queue := d.fab.queue ++ [{ q with since := d.tide.abs }] } }
    else d) d

/-- R331: the units of ferries sent in full by count `now` come free. -/
def freeSent (now : Nat) (d : Dev) : Dev :=
  if d.fab.queue.all fun q => !q.egress.isEmpty || now < q.ends then d
  else showQueues (admitLocal { d with fab := { d.fab with queue := d.fab.queue.filter fun q => !q.egress.isEmpty || now < q.ends } })

/-- The local consumer takes the first ferry of a type that waits for it (R333). -/
def consume (typ : Nat) (d : Dev) : Dev :=
  match d.fab.queue.find? fun q => q.ferry.typ = typ && q.egress.contains 4 with
  | none => d
  | some q =>
    let q' := { q with egress := q.egress.filter (· ≠ 4) }
    freeSent d.tide.abs { d with fab := { d.fab with queue := d.fab.queue.map fun e => if e = q then q' else e } }

/-- May a ferry pass on the port (10 R289)? -/
def mayPass (p typ : Nat) (d : Dev) : Bool :=
  let s := d.f (portState p)
  if typ = 4 then s = 2 || s = 3 || s = 4 else if typ ≤ 3 then s = 2 || s = 4 else s = 4

/-! ### Credits (R327 to R330) -/

def tok (n : Nat) : Nat := n % 2 ^ 24
/-- R329: credits at hand for a class of an egress port. -/
def creditLeft (p c : Nat) (d : Dev) : Nat := tok ((d.cred p c).limit + 2 ^ 24 - (d.cred p c).consumed)
/-- R330: a ferry of the class waits without enough credit. -/
def starved (p c : Nat) (d : Dev) : Bool :=
  d.fab.queue.any fun q => q.ferry.cls = c && q.egress.contains p && mayPass p q.ferry.typ d && creditLeft p c d < creditsFor q.ferry.len
/-- R328, Table FTR-4: a CREDIT or CSYNC block at `at_`. -/
def creditBlk (p kind c value at_ : Nat) (d : Dev) : Dev :=
  giveOrdered (portLane p) (2500 * at_) false [orderedBlk ([BitVec.ofNat 8 kind, BitVec.ofNat 8 (c % 4)] ++ leBytes 3 value)] d
def sendCsync (p c at_ : Nat) (d : Dev) : Dev := creditBlk p 0x11 c (d.cred p c).consumed at_ (d.emit (.csync p c (d.cred p c).consumed))
def sendCredit (p c at_ : Nat) (d : Dev) : Dev :=
  let limit := tok ((d.cred p c).received + acctFree p c d)
  creditBlk p 0x10 c limit at_ (d.emit (.credit p c limit))
/-- R328, R330: credit timeouts that start, each with a CSYNC, and those that end. -/
def creditWaits (at_ : Nat) (d : Dev) : Dev :=
  forUpTo 4 (fun p d => forUpTo 4 (fun c d =>
    let s := starved p c d
    if s = (d.cred p c).wait then d
    else if s then sendCsync p c at_ (d.modCred p c fun r => { r with wait := true })
    else d.modCred p c fun r => { r with wait := false, tmo := 0 }) d) d

/-- R320, R333: a message of a local source becomes a ferry. -/
def sendLocal (scope : Scope) (typ len : Nat) (m : Msg) (d : Dev) : Dev :=
  let cls := classOf typ
  let dest := match scope with | .port _ => 0 | .addr a => a | .root => 0xFFE | .all => 0xFFF
  let eg := match scope with
    | .port p => if mayPass p typ d then [p] else []
    | _ => egresses cls d.fab.addr dest 4 d
  let seq := tget (fun _ => 0) d.fab.seqs (4 * dest + cls)
  let f : Ferry := ⟨dest, cls, d.fab.addr, typ, 0, len, seq, d.tide.epoch, d.tide.time, match scope with | .port p => some p | _ => none, false, m⟩
  if eg.isEmpty then (match scope with | .port _ => d | .all => d | _ => d.count (stpF 0x40 16 16))
  else
    { d with fab := { d.fab with
        seqs := tput (fun _ => 0) d.fab.seqs (4 * dest + cls) ((seq + 1) % 65536)
        waiting := d.fab.waiting ++ [⟨4, eg, creditsFor len, d.tide.abs, f, 0⟩] } }

/-- Does the device give nothing to the fabric in this step? -/
def quiet (d : Dev) : Bool := d.out.all fun o => match o with | .send _ _ _ _ => false | _ => true

/-- What a meaning has sent goes to the fabric, while it is enabled. -/
def takeOut (d : Dev) : Dev :=
  if !d.flag fabEn || quiet d then d
  else creditWaits 0 (showQueues (admitLocal (forEach d.out (fun o d => match o with | .send t y n m => sendLocal t y n m d | _ => d) d)))

/-! ### The frame of a meaning -/

/-- 13 R396, R400: the order in which the bytes of a bank burn: the set-up, its check value, the key, the marker last. -/
def burnRank (i : Nat) : Nat := if i < 196 then i else if i < 200 then i + 32 else i - 4
/-- What a burn that stops at byte `w` of that order has burned: the bytes before it, and of that byte the bits of `m`. -/
def burnCut (w m : Nat) (img : List Byte) : List Byte :=
  img.mapIdx fun i b => if burnRank i < w then b else if burnRank i = w then b &&& BitVec.ofNat 8 m else 0

/-- The device after a step whose meaning gave `d`: what it sends is in the fabric's queues; a burn that the step ended (20 R582, R591) has
burned an open part of its bits. -/
def finish (s : State) (d : Dev) : State :=
  match s.dev.saf.burn, d.saf.burn with
  | some x, none => { s with fuses := burnBanks s.fuses x.2.1 (burnCut (Config.freeValue d.draws % 232) (Config.freeValue (d.draws + 1)) x.1),
                             dev := takeOut { d with draws := d.draws + 2 } }
  | _, _ => { s with dev := takeOut d }

/-- Every meaning is a function of the device that gives it anew; the queue of commands stands, and the fuses but for a burn that ends. The
outputs of a step start empty. -/
def run (s : State) (f : Dev → Dev) : Host.Outcome State Fault Refusal := .next (finish s (f { s.dev with out := [] }))

/-- A meaning of what happens while `p` holds of the device; nothing happens otherwise. -/
def runIn (p : Dev → Bool) (s : State) (f : Dev → Dev) : Host.Outcome State Fault Refusal := run s fun d => if p d then f d else d

/-- A meaning of the core: nothing happens while PD_2 is off or a main clock fault holds the device in reset (01 R19, R22, R25). -/
def runCore (s : State) (f : Dev → Dev) : Host.Outcome State Fault Refusal := runIn Dev.coreOn s f

/-- The end of a burn that runs its course: the bits burned, if any, and the device that follows. -/
def runBurn (s : State) (img : Dev → Option (Nat × List Byte)) (f : Dev → Dev) : Host.Outcome State Fault Refusal :=
  .next { s with fuses := match img s.dev with | some b => burnBanks s.fuses b.1 b.2 | none => s.fuses
                 dev := takeOut (f { s.dev with out := [] }) }

/-- A meaning that reads the fuses (20 R577). -/
def runLoad (s : State) (f : List (List Byte) → Dev → Dev) : Host.Outcome State Fault Refusal :=
  .next (finish s (f s.fuses { s.dev with out := [] }))

end Sys2Proof.Machine
end

