-- ==== Sys2Proof/Machine/Capture.lean ====
section
/-! DEFINITION. Capture sets (11 R342 to R345): arming, triggers, records, streaming. -/
namespace Sys2Proof.Machine

def capReg (j off : Nat) : Nat := primAddr .stp 0 (0x400 + 0x20 * j + off)
def capState (j : Nat) : Fld := ⟨capReg j 0x10, 0, 3⟩
def capRej (j : Nat) : Fld := ⟨capReg j 0x10, 8, 1⟩
def capPre (j : Nat) : Fld := ⟨capReg j 4, 0, 16⟩
def capPost (j : Nat) : Fld := ⟨capReg j 4, 16, 16⟩
def capSrc (j : Nat) : Fld := ⟨capReg j 0, 3, 3⟩

def Dev.cap (d : Dev) (j : Nat) : CapU := tget (fun _ => {}) d.caps j
def Dev.setCap (d : Dev) (j : Nat) (u : CapU) : Dev := { d with caps := tput (fun _ => {}) d.caps j u }
def Dev.modCap (d : Dev) (j : Nat) (f : CapU → CapU) : Dev := d.setCap j (f (d.cap j))

/-- k_t of a set. -/
def capKt (j : Nat) (d : Dev) : Nat := d.f ⟨capReg j 0x14, 0, 32⟩ + 2 ^ 32 * d.f ⟨capReg j 0x18, 0, 16⟩
/-- The bytes of one record (R342). -/
def capRecLen (j : Nat) (d : Dev) : Nat := 8 + 2 * (d.f ⟨capReg j 0, 8, 5⟩ + 1)
/-- The bytes of a full set. -/
def capTotal (j : Nat) (d : Dev) : Nat := (d.f (capPre j) + d.f (capPost j)) * capRecLen j d
/-- The buffer's bytes. -/
def capBuf (j : Nat) (d : Dev) : Nat := 1024 * d.f ⟨capReg j 0xC, 0, 9⟩

/-- R343, R344: a trigger with k_t; a set not armed counts it while it fills or holds. -/
def capTrigger (j kt : Nat) (d : Dev) : Dev :=
  match d.f (capState j) with
  | 1 =>
    let d := (d.setF (capState j) 2).setF ⟨capReg j 0x14, 0, 32⟩ (kt % 2 ^ 32)
    let d := d.setF ⟨capReg j 0x18, 0, 16⟩ (kt / 2 ^ 32)
    if d.flag ⟨capReg j 0, 6, 1⟩ then d.emit (.send .all 0x2F 10 (.capTrig kt d.tide.epoch)) else d
  | 2 | 3 => d.count ⟨capReg j 0x10, 16, 16⟩
  | _ => d

/-- A trigger source of Table FTR-14 fires: 1 fault-queue entry, 2 string SAFE, 3 HALT, 4 class A or B fault. -/
def capFire (src : Nat) (d : Dev) : Dev :=
  forUpTo 8 (fun j d => if d.f (capSrc j) = src then capTrigger j d.tide.k d else d) d

/-- R342: ARM. -/
def capArm (j : Nat) (d : Dev) : Dev :=
  if d.f (capState j) != 0 || capBuf j d < capTotal j d then d.raise (capRej j)
  else (d.setF (capState j) 1).modCap j fun u => { u with recs := [], sent := 0, resends := 0, due := 0 }

/-- R342. -/
def execCapArm (j : Fin 8) (s : State) : Host.Outcome State Fault Refusal := runCore s (capArm j)

/-- R343. -/
def execCapTrigNow (j : Fin 8) (s : State) : Host.Outcome State Fault Refusal := runCore s fun d => capTrigger j d.tide.k d

/-- R343: RELEASE returns a set to IDLE from any state and frees its buffer. -/
def capRelease (j : Nat) (d : Dev) : Dev :=
  ((d.setF (capState j) 0).wr (capReg j 0x1C) 0).modCap j fun u => { u with recs := [], sent := 0, resends := 0 }

/-- R343. -/
def execCapRelease (j : Fin 8) (s : State) : Host.Outcome State Fault Refusal := runCore s (capRelease j)

/-- R344: a CAP_TRIG ferry with its k_t and epoch. -/
def execCapTrigRx (kt : BitVec 48) (epoch : BitVec 16) (s : State) : Host.Outcome State Fault Refusal := runCore s fun d =>
  let d := consume 0x2F d
  if epoch.toNat != d.tide.epoch then d
  else forUpTo 8 (fun j d =>
    if d.f (capSrc j) != 5 then d
    else if d.f (capState j) != 1 then capTrigger j kt.toNat d
    else
      let pre := d.f (capPre j)
      let held := d.tide.k + pre ≤ kt.toNat || (d.cap j).recs.any fun r => r.tick + pre ≤ kt.toNat
      if d.tide.k < kt.toNat + d.f (capPost j) && held then capTrigger j kt.toNat d
      else capTrigger j d.tide.k (d.raise ⟨capReg j 0x10, 9, 1⟩)) d

/-- R343: the post records are captured: the set keeps its records and holds them. -/
def execCaptureHeld (j : Fin 8) (s : State) : Host.Outcome State Fault Refusal := runCore s fun d =>
  let kt := capKt j d
  let fin := kt + d.f (capPost j)
  if d.f (capState j) != 2 || !((d.cap j).recs.any fun r => fin ≤ r.tick + 1) then d
  else (d.setF (capState j) 3).modCap j fun u =>
    { u with recs := u.recs.filter fun r => kt ≤ r.tick + d.f (capPre j) && r.tick < fin }

/-- The bytes of the records of a held set (R342). -/
def capBytes (u : CapU) : List Byte :=
  u.recs.flatMap fun r => leBytes 4 (r.tick % 2 ^ 32) ++ [if r.stale then 1 else 0, 0, 0, 0] ++ r.vals.flatMap fun v => leBytes 2 (unsigned 16 v)

/-- R345: at `at_`, the next CAP_DATA ferry of a held set with room in its window, as its rate allows: data bytes at 0.25 Gb/s times the rate field. -/
def execCapDataTx (j : Fin 8) (at_ : Nat) (s : State) : Host.Outcome State Fault Refusal := runCore s fun d =>
  let u := d.cap j
  let b := capBytes u
  let acked := d.f ⟨capReg j 0x1C, 0, 32⟩
  let off := max u.sent acked
  let dest := d.f ⟨capReg j 8, 0, 12⟩
  if d.f (capState j) != 3 || dest = 0 || b.length ≤ off || d.flag ⟨capReg j 0x10, 10, 1⟩ ||
      d.f ⟨capReg j 8, 16, 7⟩ ≤ (off - acked + 495) / 496 || d.tide.abs + at_ < u.due then d
  else
    let rate := d.f ⟨capReg j 8, 24, 5⟩
    let span := (64 * min (b.length - off) 496 + 5 * rate - 1) / (5 * rate)
    (d.setCap j { u with sent := min (off + 496) b.length, due := d.tide.abs + at_ + span }).emit (.send (.addr dest) 0x33 (16 + min (b.length - off) 496) (.capData j (capKt j d) off b.length (slice b off 496)))

/-- R345: an acknowledgement of contiguous bytes. -/
def execCapAckRx (j : Fin 8) (bytes : Nat) (s : State) : Host.Outcome State Fault Refusal := runCore s fun d =>
  let d := consume 0x34 d
  let u := d.cap j
  if d.f (capState j) != 3 || u.sent < bytes || bytes ≤ d.f ⟨capReg j 0x1C, 0, 32⟩ then d
  else (d.setF ⟨capReg j 0x1C, 0, 32⟩ bytes).setCap j { u with resends := 0 }

/-- R345: data not acknowledged within 100 ms is sent again; after 8 fruitless resends streaming stops. -/
def execCapResend (j : Fin 8) (s : State) : Host.Outcome State Fault Refusal := runCore s fun d =>
  let u := d.cap j
  let acked := d.f ⟨capReg j 0x1C, 0, 32⟩
  if d.f (capState j) != 3 || u.sent ≤ acked || d.flag ⟨capReg j 0x10, 10, 1⟩ then d
  else if 8 ≤ u.resends then d.raise ⟨capReg j 0x10, 10, 1⟩
  else d.setCap j { u with sent := acked, resends := u.resends + 1 }

/-- R342, R343, R349: a write to a register of a set, with its command bits. -/
def capWrite (j off : Nat) (v : Word) (d : Dev) : Word × Dev :=
  let rej (d : Dev) : Word × Dev := (refusedCode, d.raise ⟨primAddr .stp 0 0x22C, 8, 1⟩)
  match off with
  | 0 =>
    let bad := 5 < fget v 3 3 || (d.f (capState j) != 0 && fget v 8 5 != d.f ⟨capReg j 0, 8, 5⟩)
    let w := if 5 < fget v 3 3 then fset v 3 3 (d.f (capSrc j)) else v
    let w := if d.f (capState j) != 0 then fset w 8 5 (d.f ⟨capReg j 0, 8, 5⟩) else w
    let d := d.store (capReg j 0) w
    let d := whenDo (v.getLsbD 1) (capRelease j) d
    let d := whenDo (v.getLsbD 0) (capArm j) d
    let d := whenDo (v.getLsbD 2) (fun d => capTrigger j d.tide.k d) d
    if bad then rej d else (0, d)
  | 4 => if fget v 16 16 = 0 then rej (d.setF (capPre j) (fget v 0 16)) else (0, d.store (capReg j 4) v)
  | 8 =>
    let okW := 1 ≤ fget v 16 7 && fget v 16 7 ≤ 64
    let okR := 1 ≤ fget v 24 5 && fget v 24 5 ≤ 25
    let old := d.rd (capReg j 8)
    let w := if okW then v else fset v 16 7 (fget old 16 7)
    let w := if okR then w else fset w 24 5 (fget old 24 5)
    if okW && okR then (0, d.store (capReg j 8) w) else rej (d.store (capReg j 8) w)
  | 0xC => if d.f (capState j) = 0 && 8 ≤ fget v 0 9 && fget v 0 9 ≤ 256 then (0, d.store (capReg j 0xC) v) else rej d
  | _ => (0, d.store (capReg j off) v)

end Sys2Proof.Machine
end

