-- ==== Sys2Proof/Machine/Strings.lean ====
section
/-! DEFINITION. What happens to strings and the isles of their cells: the fault queue and its evaluation, bypass,
the application of a variant, the string states (06), used by every block that enters a fault or commands a
string. -/
namespace Sys2Proof.Machine

def modeFld : Fld := ⟨0x40010004, 0, 3⟩
/-- The device mode, Table MPT-1 (20 R570): 0 DORMANT, 1 BOOT, 2 COMMISSION, 3 STANDBY, 4 RUN, 5 SAFE. -/
def Dev.mode (d : Dev) : Nat := d.f modeFld

def srtEvt (i : Nat) : Fld := ⟨0x42300000, i, 1⟩
def srtReg (s off : Nat) : Nat := primAddr .srts s off
def srtHeadroom (s : Nat) : Fld := ⟨srtReg s 4, 7, 1⟩
def srtCmdRej (s : Nat) : Fld := ⟨srtReg s 4, 6, 1⟩
def srtSafe (s : Nat) : Fld := ⟨srtReg s 0x10, 0, 8⟩
def srtBarMiss (s : Nat) : Fld := ⟨srtReg s 0x24, 0, 16⟩
def srtMergeStale (s : Nat) : Fld := ⟨srtReg s 0x24, 16, 16⟩
def srtRspLo (s : Nat) : Fld := ⟨srtReg s 0x28, 0, 32⟩
def srtRspHi (s : Nat) : Fld := ⟨srtReg s 0x2C, 0, 16⟩
def srtRspCnt (s : Nat) : Fld := ⟨srtReg s 0x2C, 16, 16⟩
def srtVpre (s : Nat) : Fld := ⟨srtReg s 0x30, 0, 16⟩
def srtPreTmo (s : Nat) : Fld := ⟨srtReg s 0x30, 16, 16⟩
def srtTb (s : Nat) : Fld := ⟨srtReg s 0x34, 0, 12⟩
def srtAge (s : Nat) : Fld := ⟨srtReg s 0x34, 16, 4⟩

/-- The strings the running plan holds. -/
def Dev.heldStrings (d : Dev) : List Nat := d.strings.filterMap fun e => if e.2.held then some e.1 else none
/-- The cell isles of a string segment under the running plan. -/
def Dev.cells (d : Dev) (s : Nat) : List Nat :=
  d.isles.filterMap fun e => if e.2.entry.role = 1 ∧ e.2.entry.string = s then some e.1 else none
/-- The cell isles whose cells are active. -/
def Dev.active (d : Dev) (s : Nat) : List Nat :=
  d.isles.filterMap fun e =>
    if e.2.entry.role = 1 ∧ e.2.entry.string = s ∧ !((d.str s).excl.contains e.2.entry.gPos) then some e.1 else none
/-- Active cells of the string across all segments (06 R163). -/
def nAct (u : StringU) : Nat := u.defn.n - u.excl.length
/-- A string that spans devices. -/
def split (u : StringU) : Bool := 1 < u.defn.segs
/-- This device runs the string-level laws (03 Table ISL-11: segment index 0 on the head). -/
def isHead (u : StringU) : Bool := u.defn.segIdx = 0
/-- The variant in force. -/
def variantOf (u : StringU) : Option Variant := u.defn.variants[u.variant]?
/-- Any string in RUN (02 R44, 10 R312). -/
def Dev.anyRun (d : Dev) : Bool := d.strings.any fun e => e.2.sstate = 2
/-- Every string OFF or SAFE (02 R36). -/
def Dev.allIdle (d : Dev) : Bool := d.strings.all fun e => e.2.sstate = 0 || e.2.sstate = 3

/-- 05 R134: the number of active cells whose phase slot is lower than `slot`. -/
def phaseIndex (u : StringU) (slot : Nat) : Nat :=
  (List.range u.defn.order.length).countP fun p => u.defn.order.getD p 0 < slot && !u.excl.contains p

/-- A first run of every node is owed, of every state word (04 R110). -/
def oweFirst (u : IsleU) : IsleU :=
  { u with nodes := forUpTo 16 (fun i t => tmod (fun _ => {}) t i fun v => { v with first := max v.first 2 }) u.nodes }

/-- An isle leaves STOPPED for WAIT (03 R89, 06 R159): first runs owed, channel state and key restart (04 R115,
06 R166), records numbered from 0 and pairs without an earlier interval (05 R143, R152). -/
def leaveStopped (u : IsleU) : IsleU :=
  let u := oweFirst u
  { u with
    istate := 1, stalled := false, consec := 0, chans := [], key := none, posted := false, pc := 0,
    ef := { u.ef with seq := 0, last := [],
                      pairs := forUpTo 6 (fun i t => tmod (fun _ => {}) t i fun v => { v with cur := none, sup := none }) u.ef.pairs } }

/-- An isle stops: its edge former queues nothing more (06 R174, 01 Table ARC-9). -/
def stopIsle (n : Nat) (d : Dev) : Dev := d.modIsle n fun u => { u with istate := 0 }

/-- 04 R125: the lead is the cell isle of the head device that holds the lowest active global position. An isle that
becomes lead owes its LEAD_ONLY nodes a first run (R110). -/
def setLead (s : Nat) (d : Dev) : Dev :=
  let act := d.active s
  let best := act.foldl (fun (m : Option Nat) n => match m with
    | none => some n
    | some b => if (d.isle n).entry.gPos < (d.isle b).entry.gPos then some n else some b) none
  let best := if isHead (d.str s) then best else none
  forEach (d.cells s) (fun n d => d.modIsle n fun u =>
    let l := decide (best = some n)
    if l && !u.lead then
      let bank := if u.liveB then u.bankB else u.bankA
      { u with lead := true, nodes := forUpTo 16 (fun i t =>
          if (bank.nodes.getD i {}).leadOnly then tmod (fun _ => {}) t i fun v => { v with first := 3 } else t) u.nodes }
    else { u with lead := l }) d

/-- 06 R175: every surviving cell isle receives its new index and the phase step, as an update with f = 0 of the
tick (05 R141); the lead is recomputed. -/
def pushVariant (s : Nat) (d : Dev) : Dev :=
  let u := d.str s
  let step := match variantOf u with | some v => v.delta16 | none => 0
  let t : Int := d.tide.k * d.tc
  let d := forEach (d.active s) (fun n d => d.modIsle n fun i =>
    { i with ef := { i.ef with psc := (t, phaseIndex u i.entry.phase * step) :: i.ef.psc.take 3 } }) d
  setLead s d

/-- 06 R160: entry into SAFE with its cause. The enable bits and the edge formers follow from the state; the trip
request is raised; the entry is journalled (18 Table JRN-3). -/
def stringSafe (s cause : Nat) (d : Dev) : Dev :=
  let d := d.modStr s fun u => { u with sstate := 3, trip := true }
  let d := (d.setF (srtSafe s) cause).raise (srtEvt 3)
  let d := jEvent 2 [BitVec.ofNat 8 s, BitVec.ofNat 8 cause] (0x3000 + s) d
  capFire 2 d

/-- 11 R339: a Causeway message to every other device of a string. -/
def cwSend (s typ len : Nat) (m : Msg) (d : Dev) : Dev :=
  let u := d.str s
  forUpTo u.defn.segs (fun i d => if i = u.defn.segIdx then d else d.emit (.send (.addr (u.defn.devices.getD i 0)) typ len m)) d
/-- The generation that a string's cells run (03 R92). -/
def strGen (d : Dev) (s : Nat) : Nat := match d.cells s with | n :: _ => (d.isle n).gen | [] => 0
/-- 11 Tables FTR-8, FTR-9: the head of a Causeway message of a tick. -/
def cwHead (s tick : Nat) (d : Dev) : CwHead :=
  let u := d.str s
  ⟨tick, strGen d s % 1024, u.variant, u.defn.segIdx, u.defn.head, s⟩
/-- 11 R339: a partial list in parts of up to 60 cells. -/
def cwSendList (s : Nat) (l : PartList) (d : Dev) : Dev :=
  let parts := max 1 ((l.cells.length + 59) / 60)
  forUpTo parts (fun p d =>
    let c := (l.cells.drop (60 * p)).take 60
    cwSend s 0x10 (32 + 8 * c.length) (.cwList { cwHead s l.tick d with gen := l.gen % 1024, variant := l.variant } p parts (if p = 0 then l.tot else { act := l.tot.act }) c) d) d

/-- 06 R161: a segment that goes to SAFE by its own evaluation announces it. -/
def announceSafe (s cause : Nat) (d : Dev) : Dev :=
  if split (d.str s) then cwSend s 0x12 28 (.cwFault (cwHead s d.tide.k d) true cause 0x1FF 0) d else d

/-- A bypass reaction (codes below 0x10 of Table BAL-5). -/
def isBypass (cause : Nat) : Bool := cause < 0x10

/-- 06 R172, R176: enter a cause into a string's fault queue. A pending entry of the same cause and position is not
added again; past 16 entries one FQ_OVF stands for the lost ones. A cell fault of a split string is announced. -/
def fqEnter (s cause pos stamp : Nat) (d : Dev) : Dev :=
  let u := d.str s
  if u.fq.any fun e => e.cause = cause && e.pos = pos then d
  else
    let e : FqEntry := ⟨cause, pos, d.tide.k, stamp⟩
    let d := capFire 1 d
    let d :=
      if u.fq.length < 16 then
        d.modStr s fun u => { u with fq := u.fq ++ [e], lastCause := cause, lastPos := pos }
      else if u.fqOvf.isNone then
        (d.modStr s fun u => { u with fqOvf := some ⟨0x16, 0x1FF, d.tide.k, stamp⟩, lastCause := 0x16, lastPos := 0x1FF }).raise (srtEvt 5)
      else d
    if split u && isBypass cause && (u.sstate = 1 || u.sstate = 2) &&
        !(u.anns.any fun a => a.cause = cause && a.pos = pos) then
      let ka := if 2 * stamp < d.tc then d.tide.k + 1 else d.tide.k + 2
      cwSend s 0x12 28 (.cwFault (cwHead s d.tide.k d) false cause pos stamp) (d.modStr s fun u => { u with anns := u.anns ++ [⟨cause, pos, d.tide.k, stamp, ka⟩] })
    else d

/-- Enter a cell fault of isle `n` in its string's queue (03 R74, 04 R112, R113, R124). -/
def cellFault (n cause stamp : Nat) (d : Dev) : Dev :=
  let e := (d.isle n).entry
  fqEnter e.string cause e.gPos stamp d

/-- 06 R174: the cells at `pos` leave the string: their isles stop. -/
def excludeIsles (s : Nat) (pos : List Nat) (d : Dev) : Dev :=
  forEach (d.cells s) (fun n d => if pos.contains (d.isle n).entry.gPos then stopIsle n d else d) d

/-- 06 R175, R177: exclude the positions and apply the variant; a re-spread begins at this edge. -/
def applyVariant (s nv : Nat) (pos : List Nat) (d : Dev) : Dev :=
  let k := d.tide.k
  let d := excludeIsles s pos d
  let d := d.modStr s fun u => { u with variant := nv, excl := u.excl ++ pos, early := u.early.filter fun p => !pos.contains p }
  let d := d.modStr s fun u => { u with respread := some ⟨k, d.active s⟩ }
  let d := pushVariant s d
  let d := ((d.setF (srtRspLo s) (k % 2 ^ 32)).setF (srtRspHi s) (k / 2 ^ 32)).count (srtRspCnt s)
  d.raise (srtEvt 2)

/-- The positions of a list, each once. -/
def distinct : List Nat → List Nat
  | [] => []
  | p :: t => if t.contains p then distinct t else p :: distinct t

/-- 06 R173: the evaluation of a string's fault queue at a tick edge, over all entries; the queue is emptied. A
split string's cell faults act at their announced edge (R176); its own cells are bypassed at once (R174). -/
def evalQueue (s : Nat) (d : Dev) : Dev :=
  let u := d.str s
  let k := d.tide.k
  let live := u.sstate = 1 || u.sstate = 2
  let all := u.fq ++ u.fqOvf.toList
  let due := u.anns.filter fun a => a.ka ≤ k
  let d := d.modStr s fun u => { u with fq := [], fqOvf := none, anns := u.anns.filter fun a => k < a.ka }
  if !live then d.modStr s fun u => { u with anns := [] }
  else
    let safe := (all.filter fun e => !isBypass e.cause).map (·.cause)
    match safe.min? with
    | some c => announceSafe s c (stringSafe s c d)
    | none =>
      let own := (all.filter fun e => isBypass e.cause).map (·.pos)
      let d :=
        if split u then
          excludeIsles s own (d.modStr s fun u => { u with early := distinct (u.early ++ own) })
        else d
      let named := if split u then due.map (·.pos) else own
      let new := distinct (named.filter fun p => !u.excl.contains p)
      if new.isEmpty then d
      else if u.variant + new.length < u.defn.variants.length then applyVariant s (u.variant + new.length) new d
      else announceSafe s 0x14 (stringSafe s 0x14 d)

/-- 03 R88: does the evaluation at this edge react to an entry of the string (one whose reaction is SAFE, or one that
names a cell not yet excluded)? -/
def reacts (u : StringU) : Bool :=
  (u.sstate = 1 || u.sstate = 2) &&
    (u.fq ++ u.fqOvf.toList).any fun e => !isBypass e.cause || !u.excl.contains e.pos

/-- 06 R177: a re-spread ends when every surviving isle has reached DONE at or after its edge. -/
def respreadDone (n : Nat) (d : Dev) : Dev :=
  let s := (d.isle n).entry.string
  d.modStr s fun u =>
    match u.respread with
    | some r => { u with respread := some { r with waiting := r.waiting.filter (· ≠ n) } }
    | none => u

/-- The cells that are excluded, or bypassed ahead of their edge k_a (06 R174, R176). -/
def outCells (u : StringU) : List Nat := u.excl ++ u.early.filter fun p => !u.excl.contains p
/-- The cells whose isle holds UE_STOP stay excluded at PRECHARGE (06 R159). -/
def keptExcl (s : Nat) (d : Dev) : List Nat :=
  (outCells (d.str s)).filter fun p => (d.cells s).any fun n => (d.isle n).entry.gPos = p && (d.isle n).ueStop

/-- 06 R159: entry into PRECHARGE by a host command. -/
def enterPrecharge (s : Nat) (d : Dev) : Dev :=
  let keep := keptExcl s d
  let old := outCells (d.str s)
  let d := forEach (d.cells s) (fun n d =>
    let u := d.isle n
    if old.contains u.entry.gPos && !keep.contains u.entry.gPos && u.istate = 0 && !u.ueStop
    then d.setIsle n (leaveStopped u) else d) d
  let d := d.modStr s fun u =>
    { u with sstate := 1, excl := keep, variant := keep.length, fq := [], fqOvf := none, anns := [], early := [],
             preDone := false, preRun := 0, preTick := d.tide.abs, respread := none }
  pushVariant s d

/-- 08 R252: the halt bit of a node stands from the cycle of the decision. -/
def haltStands (ring node : Nat) (d : Dev) : Bool := (d.ring ring).halts.testBit node
/-- 08 R252, 09 R278: a halt bit set or released. -/
def setHalt (ring node : Nat) (on : Bool) (d : Dev) : Dev :=
  d.modRing ring fun u => { u with halts := (u.halts ||| 2 ^ node) - (if on then 0 else 2 ^ node) }

/-- R46: a split string enters PRECHARGE or RUN only with its devices in LOCKED; `others`: the other devices are. -/
def timeOk (s : Nat) (others : Bool) (d : Dev) : Bool := !split (d.str s) || (d.tide.tstate = 2 && others)
/-- The host command codes of Table BAL-11: 1 OFF, 2 PRECHARGE, 3 RUN, 4 SAFE. `others`: the other devices of a split string are in LOCKED and, for
PRECHARGE, no halt bit of theirs stands for a node of the string. -/
def cmdAllowed (s cmd : Nat) (others : Bool) (d : Dev) : Bool :=
  let u := d.str s
  u.held && (!split u || isHead u) &&
  match cmd with
  | 1 => u.sstate = 3
  | 2 => u.sstate = 0 && d.mode = 4 && timeOk s others d &&
      (d.cells s).all (fun n => !haltStands (d.isle n).entry.ring (d.isle n).entry.node d) &&
      (keptExcl s d).length < u.defn.variants.length
  | 3 => u.sstate = 1 && u.preDone && timeOk s others d
  | 4 => u.sstate = 1 || u.sstate = 2
  | _ => false

/-- 06 R158: a host command is refused where Table BAL-2 does not allow it, with CMD_REJ; an allowed one takes
effect at the next tick edge, after those accepted before it. -/
def stringCommand (s cmd : Nat) (others : Bool) (d : Dev) : Word × Dev :=
  if cmdAllowed s cmd others d then (0, d.modStr s fun u => { u with cmds := u.cmds ++ [cmd], lastCmd := cmd })
  else (0x08000022, d.raise (srtCmdRej s))

/-- A host command acts at its edge, judged in the state of then (21 R604); the other devices were judged as it was accepted. -/
def commandAct (s c : Nat) (d : Dev) : Dev :=
  if !cmdAllowed s c true d then d.raise (srtCmdRej s)
  else match c with
    | 1 => d.modStr s fun u => { u with sstate := 0 }
    | 2 => enterPrecharge s d
    | 3 => d.modStr s fun u => { u with sstate := 2 }
    | _ => stringSafe s 0x18 d
/-- The host commands of a string due at this edge, in the order of their acceptance. -/
def stringCommandDue (s : Nat) (d : Dev) : Dev :=
  forEach (d.str s).cmds (commandAct s) (d.modStr s fun u => { u with cmds := [] })

/-- A string taken out of PRECHARGE or RUN as the device leaves RUN (06 R157, 21 R604): to SAFE with the lowest
pending SAFE code, else 0x18; or to OFF where control passes to the partner. -/
def leaveRun (toOff : Bool) (d : Dev) : Dev :=
  forEach d.heldStrings (fun s d =>
    let u := d.str s
    if u.sstate = 1 || u.sstate = 2 then
      if toOff then d.modStr s fun u => { u with sstate := 0 }
      else
        let codes := ((u.fq ++ u.fqOvf.toList).filter fun e => !isBypass e.cause).map (·.cause)
        stringSafe s (codes.min?.getD 0x18) d
    else d) d

/-- 06 R181: a host bypass request; refused where the position names no cell of the string. -/
def bypassRequest (s pos stamp : Nat) (d : Dev) : Word × Dev :=
  let u := d.str s
  if u.held && pos < u.defn.order.length then (0, fqEnter s 0x08 pos stamp d)
  else (0x08000022, d.raise (srtCmdRej s))

end Sys2Proof.Machine
end

