-- ==== Sys2Proof/Machine/EdgeFormer.lean ====
section
/-! DEFINITION. The edge former of an isle (05 R130 to R154): latches at reload points, the commanded pattern, the walk
of pulses and notches, overrides and the interlock, and the queueing of edge records. Instants are whole counts on
the tick-number time line (R133) or, where transitions are kept, 1/32 counts (R147). -/
namespace Sys2Proof.Machine

def islReg (n off : Nat) : Nat := primAddr .isl n off
def efStat (n i : Nat) : Fld := ⟨islReg n 0x34, i, 1⟩
def efLate (n g : Nat) : Fld := ⟨islReg n 0x38, 8 * g, 8⟩
def efDropCnt (n : Nat) : Fld := ⟨islReg n 0x3C, 0, 16⟩
def efKeepCnt (n : Nat) : Fld := ⟨islReg n 0x3C, 16, 16⟩
def efSkipCnt (n : Nat) : Fld := ⟨islReg n 0x40, 0, 16⟩
def efCapCnt (n : Nat) : Fld := ⟨islReg n 0x40, 16, 16⟩
def efVal (n p : Nat) : Fld := ⟨islReg n (0x48 + 4 * p), 0, 24⟩
def efBlkCnt (n : Nat) : Fld := ⟨islReg n 0x60, 0, 16⟩
def efRejCnt (n : Nat) : Fld := ⟨islReg n 0x60, 16, 16⟩

/-- The live graph bank (03 R65). -/
def liveBank (u : IsleU) : Bank := if u.liveB then u.bankB else u.bankA

/-- A supervisor total of 05 R156: 0 late updates, 1 pulses dropped, 2 kept, 3 shoot blocks, 4 edges skipped. -/
def efTotal (i n : Nat) (d : Dev) : Dev :=
  { d with efTotals := tmod (fun _ => 0) d.efTotals i fun v => satAdd 32 v n }

/-- Four bits in reverse order (05 R146). -/
def rev4 (i : Nat) : Nat := b2n (i.testBit 0) * 8 + b2n (i.testBit 1) * 4 + b2n (i.testBit 2) * 2 + b2n (i.testBit 3)

/-- 05 R146: a value of 1/16 counts as whole counts in carrier period `n`. -/
def whole (dither : Bool) (u : Nat) (n : Int) : Nat :=
  if dither then if rev4 (n % 16).toNat < u % 16 then u / 16 + 1 else u / 16
  else (u + 8) / 16

/-- A latched value in 1/32 counts: whole counts, or as it is with COMPAT (05 R147). -/
def subOf (l : Latch) (u : Nat) (n : Int) : Int := if l.compat then u else 32 * whole l.dither u n

/-- The newest value handed over in a cycle before `c` (05 R140). -/
def newestBefore {α : Type} (l : List (Int × α)) (c : Int) : Option α :=
  (l.find? fun e => e.1 < c).map (·.2)

/-- 05 R136, R137, Table MOD-4, R147: the compare or phase that value `v` maps to. -/
def mapSlot (pd : PairDef) (period : Nat) (compat : Bool) (v : Int) : Int :=
  let p : Int := period
  let s : Int := if compat then 2 else 1
  match pd.mapping with
  | 1 => (max v 0 * p + 2048 / s) / (4096 / s)
  | 2 => ((32768 + v) * p + 4096 / s) / (8192 / s)
  | 3 => ((32768 - v) * p + 4096 / s) / (8192 / s)
  | 4 => (v * p + 2048 / s) / (4096 / s)
  | _ => 0
/-- 05 R137: the compare value, or the phase with the pair's offset modulo the period. -/
def mapped (pd : PairDef) (period : Nat) (compat : Bool) (v : Int) : Nat :=
  let s : Int := if compat then 2 else 1
  let x := mapSlot pd period compat v
  if pd.mapping = 1 || pd.mapping = 2 || pd.mapping = 3 then x.toNat else ((s * pd.off + x) % (16 * s * period)).toNat

/-- 05 R134: the phase of a group with the share `add` = j·Δ16 of a PSC group, whole counts. -/
def phaseOf (gd : GroupDef) (add : Nat) : Nat := ((gd.theta0 + add + 8) / 16) % max gd.period 1

/-- 05 R138, R140: what pair `p` latches of its slot and of the override word, each the newest handed in a cycle before the cutoff `c`. -/
def latchPair (b : Bank) (ef : EfU) (period p : Nat) (c : Int) : PLatch :=
  let pd := b.ef.pairs.getD p {}
  let w := (newestBefore ef.ovrs c).getD 0
  let v := (newestBefore (tget (fun _ => []) ef.handed pd.slot) c).getD (b.ef.init.getD pd.slot 0)
  { num := p, pd := pd, v := v, u := mapped pd period b.ef.compat v, shown := mapSlot pd period b.ef.compat v,
    swap := pd.swap != w.testBit (5 * p), inv := pd.inv != w.testBit (5 * p + 1),
    fen := w.testBit (5 * p + 2), f0 := w.testBit (5 * p + 3), f1 := w.testBit (5 * p + 4) }
/-- The pairs of group `g`. -/
def groupPairs (b : Bank) (g : Nat) : List Nat := (List.range b.ef.pairs.length).filter fun p => (b.ef.pairs.getD p {}).group = g
/-- 05 R138, R140: what group `g` latches at reload point `r` with the phase share `add` written at `addT`. -/
def mkLatch (b : Bank) (ef : EfU) (g : Nat) (r : Int) (add : Nat) (addT : Int) : Latch :=
  let gd := b.ef.groups.getD g {}
  { r := r, add := add, addT := addT, theta0 := gd.theta0, reload := gd.reload, theta := phaseOf gd add, period := gd.period, dither := gd.dither,
    compat := b.ef.compat, pairs := (groupPairs b g).map fun p => latchPair b ef gd.period p (r - b.ef.lead) }
/-- 05 R141, R143: an older latch in a later run: COMPAT is that of the live set, and a pair newly in use has the fields of the new set. -/
def relatch (b : Bank) (ef : EfU) (g : Nat) (h : Int) (l : Latch) : Latch :=
  let old := l.pairs.map fun x =>
    if l.compat = b.ef.compat then x else { x with u := mapped x.pd l.period b.ef.compat x.v, shown := mapSlot x.pd l.period b.ef.compat x.v }
  let new := (groupPairs b g).filter fun p => !(l.pairs.any fun x => x.num = p)
  { l with compat := b.ef.compat, pairs := old ++ new.map fun p => latchPair b ef l.period p (h - b.ef.lead) }

/-- The reload points in [x, e) of a carrier of period `p` and phase `th` (05 R133, R138). -/
def reloadsFrom (p th reload : Nat) (e : Int) : Nat → Int → List Int
  | 0, _ => []
  | fuel + 1, x =>
    let q : Int := max p 2
    let val := x + (th - x) % q
    let peak := x + (th + q / 2 - x) % q
    let r := if reload = 1 then val else if reload = 2 then peak else min val peak
    if r < e then r :: reloadsFrom p th reload e fuel (r + 1) else []

/-- 05 R141: does a new set change group `g`'s period, base phase or reload selection, or the kind of one of its pairs? -/
def carrierChanged (old new : EfSet) (g : Nat) : Bool :=
  let a := old.groups.getD g {}
  let b := new.groups.getD g {}
  a.period != b.period || a.theta0 != b.theta0 || a.reload != b.reload ||
    (List.range (min old.pairs.length new.pairs.length)).any fun p =>
      (new.pairs.getD p {}).group = g && (old.pairs.getD p {}).square != (new.pairs.getD p {}).square
/-- 05 R141, R143: a set replaces another: groups whose carrier changes begin anew at their next span; a pair newly in use has no earlier
interval. -/
def newSet (old new : EfSet) (u : EfU) : EfU :=
  { u with fresh := distinct (u.fresh ++ (List.range old.groups.length).filter (carrierChanged old new)),
           pairs := forUpTo new.pairs.length (fun p t => if p < old.pairs.length then t
             else tmod (fun _ => {}) t p fun v => { v with cur := none, sup := none }) u.pairs }

/-- 05 R141, 06 R175: the reload points of a PSC group from `x` on, each with the phase share in force there: a change (instant, share) is
latched at the first reload point of the carrier it gives whose cutoff lies after it; `pts`: the points of a share's carrier. -/
def phasePoints (pts : Nat → Int → List Int) (lead : Int) : Nat → List (Int × Nat) → Nat → Int → Int → List (Int × Nat × Int)
  | 0, _, a, t0, x => (pts a x).map fun r => (r, a, t0)
  | fuel + 1, ch, a, t0, x =>
    let cand := ch.filterMap fun c => ((pts c.2 x).find? fun r => decide (c.1 < r - lead)).map fun r => (r, c)
    match cand.foldl (fun (m : Option (Int × (Int × Nat))) y => match m with
      | none => some y
      | some z => if y.1 < z.1 || (y.1 = z.1 && z.2.1 < y.2.1) then some y else some z) none with
    | none => (pts a x).map fun r => (r, a, t0)
    | some (r0, c) =>
      ((pts a x).filter (· < r0)).map (fun r => (r, a, t0)) ++ phasePoints pts lead fuel (ch.filter fun y => c.1 < y.1) c.2 c.1 r0

/-- 05 R138 to R141, 06 R175: the latches of group `g` in the span [h, e), in time order, from the latch in force before. After a flip that
changes the carrier the span's start is a reload point. -/
def groupLatches (b : Bank) (ef : EfU) (g : Nat) (h e : Int) (last : Option Latch) : List Latch :=
  let gd := b.ef.groups.getD g {}
  let lead : Int := b.ef.lead
  let fresh := ef.fresh.contains g
  let start : Nat × Int := match last with
    | some l => if fresh then ((ef.psc.find? fun c => c.1 < h - lead).elim (0, -1000000000000) fun c => (c.2, c.1)) else (l.add, l.addT)
    | none => (ef.psc.find? fun c => c.1 < h - lead).elim (0, -1000000000000) fun c => (c.2, c.1)
  let pts (a : Nat) (x : Int) : List Int := reloadsFrom gd.period (phaseOf gd a) gd.reload e ((e - x).toNat / max gd.period 1 * 2 + 4) x
  let ch := if gd.psc then (ef.psc.filter fun c => start.2 < c.1).reverse else []
  let a := if gd.psc then start.1 else 0
  let all := phasePoints pts lead (ch.length + 1) ch a start.2 h
  let all := if fresh && last.isSome then (h, a, start.2) :: all.filter fun x => x.1 != h else all
  all.map fun x => mkLatch b ef g x.1 x.2.1 x.2.2

/-- The commanded level of a pair's upper gate at `t` (1/32 counts), INV applied (05 R135, R137, R148). -/
def levelAt (l : Latch) (pl : PLatch) (t : Int) : Bool :=
  let p : Int := 32 * max l.period 2
  let th : Int := 32 * l.theta
  let raw :=
    if pl.pd.square then
      let n := (t - th) / p
      let on (n : Int) : Bool :=
        let a := th + n * p + subOf l pl.u n
        a ≤ t && t < a + p / 2
      on n || on (n - 1)
    else
      let n := (t - th + p / 2) / p
      let c := subOf l pl.u n
      th + n * p - c ≤ t && t < th + n * p + c
  raw != pl.inv

/-- The instants in [a, e) at which the latch's pattern may change level. -/
def instants (l : Latch) (pl : PLatch) (a e : Int) : List Int :=
  let p : Int := 32 * max l.period 2
  let th : Int := 32 * l.theta
  let n0 := (a - th) / p - 1
  let cnt := ((e - a) / p).toNat + 4
  let all := (List.range cnt).flatMap fun (i : Nat) =>
    let n : Int := n0 + i
    let v := th + n * p
    let c := subOf l pl.u n
    if pl.pd.square then [v + c, v + c + p / 2] else if c = 0 then [] else [v - c, v + c]
  all.filter fun t => a ≤ t && t < e

/-- A latch's entry for pair `p`. -/
def platch (l : Latch) (p : Nat) : PLatch := (l.pairs.find? fun x => x.num = p).getD {}

/-- A stretch governed by one latch: start, end (1/32 counts). -/
structure Seg where
  a : Int
  e : Int
  l : Latch
  deriving DecidableEq, Repr

/-- The stretches of [h, e) from the latch in force at h and the later ones; the last reaches to `far`. -/
def segsFrom (cur : Latch) (h far : Int) : List Latch → List Seg
  | [] => [⟨32 * h, 32 * far, cur⟩]
  | l :: t => if l.r ≤ h then segsFrom l h far t else ⟨32 * h, 32 * l.r, cur⟩ :: segsFrom l l.r far t

/-- The commanded level changes of pair `p` over the stretches, the first at their start. -/
def transitions (p : Nat) : Option Bool → List Seg → List (Int × Bool)
  | _, [] => []
  | prev, s :: rest =>
    let pl := platch s.l p
    let step (acc : List (Int × Bool) × Option Bool) (t : Int) : List (Int × Bool) × Option Bool :=
      let v := levelAt s.l pl t
      if acc.2 = some v then acc else (acc.1 ++ [(t, v)], some v)
    let r := (s.a :: instants s.l pl s.a s.e).foldl step ([], prev)
    r.1 ++ transitions p r.2 rest

/-- The first change to level `v` after `x`. -/
def nextTo (tr : List (Int × Bool)) (v : Bool) (x : Int) : Option Int :=
  (tr.find? fun e => x < e.1 && e.2 == v).map (·.1)

/-- What the walk of a pair found: commutations (instant, level of the upper gate, dead time), the interval in
progress, pulses and notches dropped, the level of a suppressed interval that reaches past the span. -/
structure WalkOut where
  comms : List (Int × Bool × Int)
  cur : Option (Bool × Int)
  drops : Nat
  sup : Option Bool
  deriving DecidableEq, Repr

/-- Dead time and minimum pulse of pair `p` in force at `x`, 1/32 counts. -/
def timesAt (segs : List Seg) (p : Nat) (x : Int) : Int × Int :=
  let l := ((segs.find? fun s => x < s.e).map (·.l)).getD {}
  let pd := (platch l p).pd
  (32 * pd.td, 32 * pd.tmin)

/-- 05 R143: too short for its minimum. -/
def tooShort (up : Bool) (len td tmin : Int) : Bool := if up then len - td < tmin else len < 2 * td + tmin

/-- 05 R143, R154: decide the intervals from `x` on, each at its start, up to the span's end. -/
def walk (tr : List (Int × Bool)) (segs : List Seg) (p : Nat) (e far : Int) :
    Nat → Int → Bool → WalkOut → WalkOut
  | 0, _, _, w => w
  | fuel + 1, x, v, w =>
    if e ≤ x then w
    else
      let y := (nextTo tr (!v) x).getD far
      let (td, tmin) := timesAt segs p x
      if tooShort v (y - x) td tmin then
        let w := { w with drops := w.drops + 1 }
        if e ≤ y then { w with sup := some v }
        else match w.cur with
        | none => walk tr segs p e far fuel y (!v) w
        | some _ =>
          match nextTo tr v y with
          | some z => walk tr segs p e far fuel z v w
          | none => w
      else
        walk tr segs p e far fuel y (!v)
          { w with comms := w.comms ++ [(x, v, td)], cur := some (v, x) }

/-- 05 R143: the walk goes on after a suppressed interval of level `v` that began in an earlier span. -/
def resume (v : Bool) (tr : List (Int × Bool)) (segs : List Seg) (p : Nat) (e far : Int) (fuel : Nat) (w : WalkOut) : WalkOut :=
  match (tr.find? fun x => x.2 == !v).map (·.1) with
  | none => { w with sup := some v }
  | some y =>
    if e ≤ y then { w with sup := some v }
    else match w.cur with
    | none => walk tr segs p e far fuel y (!v) w
    | some _ =>
      match nextTo tr v y with
      | some z => walk tr segs p e far fuel z v w
      | none => w

/-- An item of a pair's physical pattern in time order: a reload boundary with its override bits, a formed turn-off or
turn-on of a gate (false upper, true lower) of commutation `uid`. -/
inductive EfItem where
  | bound (t : Int) (reload swap fen f0 f1 : Bool) (td : Int)
  | off (t : Int) (uid : Nat) (lower : Bool)
  | on (t : Int) (uid : Nat) (lower : Bool) (td : Int)
  deriving DecidableEq, Repr

def itemTime : EfItem → Int
  | .bound t .. => t | .off t .. => t | .on t .. => t
/-- Boundaries come before the transitions of the same instant (05 R138). -/
def itemRank : EfItem → Nat
  | .bound .. => 0 | .off .. => 1 | .on .. => 2

def insertItem (x : EfItem) : List EfItem → List EfItem
  | [] => [x]
  | y :: t =>
    if itemTime x < itemTime y || (itemTime x == itemTime y && itemRank x < itemRank y) then x :: y :: t
    else y :: insertItem x t
def sortItems (l : List EfItem) : List EfItem := l.foldl (fun a x => insertItem x a) []

/-- The physical levels that the override bits and the formed pattern ask for (05 R148). -/
def desired (u : PairU) : Bool × Bool :=
  let f := if u.fen then (u.f0, u.f1) else (u.fu, u.fl)
  if u.swap then (f.2, f.1) else f

/-- 05 R149: both gates go off at `t`; the records turn off what is on. -/
def blockAt (t : Int) (uid : Nat) (u : PairU) : PairU × List EfRec :=
  let rs := (if u.up then [EfRec.mk uid t false false] else []) ++ (if u.lo then [EfRec.mk uid t true false] else [])
  ({ u with up := false, lo := false, blocked := some t, shoots := u.shoots + 1,
            upOff := if u.up then t else u.upOff, loOff := if u.lo then t else u.loOff }, rs)

/-- Move to the desired levels at `t`, or block at a violation. -/
def driveTo (t td : Int) (uid : Nat) (u : PairU) : PairU × List EfRec :=
  let (du, dl) := desired u
  let offUp := u.up && !du
  let offLo := u.lo && !dl
  let onUp := du && !u.up
  let onLo := dl && !u.lo
  let bad := (du && dl) || (onUp && (u.lo || decide (t - u.loOff < td))) ||
    (onLo && (u.up || decide (t - u.upOff < td)))
  if bad then blockAt t uid u
  else
    ({ u with up := du, lo := dl, upOff := if offUp then t else u.upOff, loOff := if offLo then t else u.loOff },
     (if offUp then [EfRec.mk uid t false false] else []) ++ (if offLo then [EfRec.mk uid t true false] else []) ++
     (if onUp then [EfRec.mk uid t false true] else []) ++ (if onLo then [EfRec.mk uid t true true] else []))

/-- A formed transition under the bits in force. -/
def formed (t : Int) (uid : Nat) (lower level : Bool) (td : Int) (u : PairU) : PairU × List EfRec :=
  let u := if lower then { u with fl := level } else { u with fu := level }
  if u.blocked.isSome || u.fen then (u, [])
  else
    let g := lower != u.swap
    if level then
      if g then
        if u.up || decide (t - u.upOff < td) then blockAt t uid u else ({ u with lo := true }, [⟨uid, t, true, true⟩])
      else
        if u.lo || decide (t - u.loOff < td) then blockAt t uid u else ({ u with up := true }, [⟨uid, t, false, true⟩])
    else if g then ({ u with lo := false, loOff := if u.lo then t else u.loOff }, [⟨uid, t, true, false⟩])
    else ({ u with up := false, upOff := if u.up then t else u.upOff }, [⟨uid, t, false, false⟩])

/-- One item that is not a boundary. -/
def stepItem (it : EfItem) (u : PairU) : PairU × List EfRec :=
  match it with
  | .bound .. => (u, [])
  | .off t uid lower => formed t uid lower false 0 u
  | .on t uid lower td => formed t uid lower true td u

/-- 05 R149: does the stretch up to the next reload point run without a violation from state `u`? -/
def cleanRun : List EfItem → PairU → Bool
  | [], u => u.blocked.isNone
  | .bound .. :: _, u => u.blocked.isNone
  | it :: t, u => cleanRun t (stepItem it u).1

/-- The whole pattern of a pair: each boundary applies its bits, at a reload point may end the interlock's hold, and drives the change. `tail`:
what the last latch gives beyond the span. -/
def physical (tail : List EfItem) : List EfItem → Nat → PairU → List EfRec → PairU × List EfRec
  | [], _, u, rs => (u, rs)
  | .bound t reload swap fen f0 f1 td :: rest, uid, u, rs =>
    let changed := u.swap != swap || u.fen != fen || u.f0 != f0 || u.f1 != f1
    let u := { u with swap := swap, fen := fen, f0 := f0, f1 := f1 }
    match u.blocked with
    | some x =>
      if !reload || decide (t < x + td) then physical tail rest (uid + 1) u rs
      else
        let r := driveTo t td uid { u with blocked := none, up := false, lo := false }
        if cleanRun (rest ++ tail) r.1 then physical tail rest (uid + 1) r.1 (rs ++ r.2)
        else physical tail rest (uid + 1) u rs
    | none =>
      if changed then
        let r := driveTo t td uid u
        physical tail rest (uid + 1) r.1 (rs ++ r.2)
      else physical tail rest (uid + 1) u rs
  | it :: rest, uid, u, rs =>
    let r := stepItem it u
    physical tail rest uid r.1 (rs ++ r.2)

/-- A unit of records queued together: its pair, its first instant (1/32 counts), its records. -/
structure EfUnit where
  pair : Nat
  t : Int
  recs : List EfRec
  deriving DecidableEq, Repr

def insertUnit (x : EfUnit) : List EfUnit → List EfUnit
  | [] => [x]
  | y :: t => if x.t < y.t then x :: y :: t else y :: insertUnit x t

/-- The records grouped by unit, each unit once, in time order. -/
def unitsOf (pair : Nat) (rs : List EfRec) : List EfUnit :=
  (distinct (rs.map (·.uid))).foldl (fun acc id =>
    match rs.filter fun r => r.uid = id with
    | [] => acc
    | r :: t => insertUnit ⟨pair, r.t, r :: t⟩ acc) []

/-- What one pair gives in one processing of its group. -/
structure PairOut where
  pair : Nat
  pu : PairU
  units : List EfUnit
  drops : Nat
  keeps : Nat
  shoots : Nat
  deriving DecidableEq, Repr

/-- 05 R143, R144: the walk of a pair from `h` to `e` (1/32 counts), with the intervals kept at their minimum. -/
def pairWalk (segs : List Seg) (p : Nat) (pu : PairU) (h e far : Int) : WalkOut × Nat :=
  let tr := transitions p none segs
  let l0 := (tr.head?.map (·.2)).getD false
  let (td0, tm0) := timesAt segs p h
  let fuel := tr.length + 4
  let w0 : WalkOut := ⟨[], pu.cur, 0, none⟩
  match pu.sup with
  | some v => (resume v tr segs p e far fuel w0, 0)
  | none =>
    match pu.cur with
    | none => (walk tr segs p e far fuel h l0 w0, 0)
    | some (v, a) =>
      match (tr.find? fun x => x.2 == !v).map (·.1) with
      | none => (w0, 0)
      | some y0 =>
        let m := if v then a + td0 + tm0 else a + 2 * td0 + tm0
        let y := max y0 m
        (walk tr segs p e far fuel y (!v) w0, if y0 < y && y0 < e then 1 else 0)

/-- 05 R142: a walk's commutations as transitions. -/
def commItems (l : List (Int × Bool × Int)) : List EfItem :=
  (List.range l.length).flatMap fun i =>
    let c := l.getD i (0, false, 0)
    [EfItem.off c.1 i c.2.1, EfItem.on (c.1 + c.2.2) i (!c.2.1) c.2.2]

/-- 05 R143 to R150, R154: one pair over the span [h, h + T_c); `ext`: the first reload point at or after its end. -/
def pairRun (segs : List Seg) (h tc far ext : Int) (p : Nat) (held : Bool) (pu : PairU) : PairOut :=
  let e := 32 * (h + tc)
  let bits (l : Latch) : Bool × Bool × Bool × Bool :=
    let pl := platch l p
    if held && !pl.fen then (pl.swap, true, false, false) else (pl.swap, pl.fen, pl.f0, pl.f1)
  let bounds := (segs.filter fun s => s.a < e).map fun s =>
    let b := bits s.l
    EfItem.bound s.a (s.a = 32 * s.l.r) b.1 b.2.1 b.2.2.1 b.2.2.2 (32 * (platch s.l p).pd.td)
  if held then
    let pu := if pu.held then pu else { pu with cur := none, sup := none, fu := false, fl := false, up := pu.recUp, lo := pu.recLo }
    let r := physical [] bounds 100000 { pu with held := true } []
    { pair := p, pu := { r.1 with shoots := 0 }, units := unitsOf p r.2, drops := 0, keeps := 0, shoots := r.1.shoots }
  else
    let pu := if pu.held then { pu with held := false, cur := none, sup := none, fu := false, fl := false } else pu
    let (w, keeps) := pairWalk segs p pu (32 * h) e (32 * far)
    let tail := sortItems (commItems ((pairWalk segs p pu (32 * h) (32 * ext) (32 * far)).1.comms.filter fun c => e ≤ c.1))
    let r := physical tail (sortItems (bounds ++ commItems w.comms)) 100000 pu []
    { pair := p, pu := { r.1 with cur := w.cur, sup := w.sup, shoots := 0 }, units := unitsOf p r.2, drops := w.drops, keeps := keeps,
      shoots := r.1.shoots }

/-- The queueing of units (05 R152 to R154): next sequence number, records queued in the run and pairs capped; records; commutations skipped
and capped; coverage starts and ends; the levels that records left; the cycle in which the last record was queued; the instant (1/32 counts) from which the isle window leaves records unformed. -/
structure QueueAcc where
  seq : Nat
  queued : Nat
  capped : List Nat
  recs : List EdgeRec
  skips : Nat
  caps : Nat
  starts : List (Nat × Option Int)
  ends : List (Nat × Int)
  left : List (Nat × Bool × Bool)
  q : Int
  stop : Option Int
  deriving DecidableEq, Repr

/-- The edge record of a gate transition (05 Table MOD-5). -/
def edgeRec (tc gen seq pair : Nat) (r : EfRec) : EdgeRec :=
  let c := r.t / 32
  { gate := 2 * pair + b2n r.lower, level := r.level, frac := (r.t % 32).toNat, stamp := (c % tc).toNat,
    parity := (c / tc % 4).toNat, gen := gen % 1024, seq := seq % 65536 }

/-- 05 R153, R154, 03 R63: a record takes 6 cycles to queue; its queueing must end before the cycle `win` (02 R55). -/
def queueUnit (tc gen eMax lead : Nat) (win : Int) (a : QueueAcc) (x : EfUnit) : QueueAcc :=
  if a.stop.isSome then a
  else if a.capped.contains x.pair then { a with caps := a.caps + 1 }
  else if eMax < a.queued + x.recs.length then
    { a with caps := a.caps + 1, capped := x.pair :: a.capped, ends := a.ends ++ [(x.pair, x.t)] }
  else if x.t / 32 - lead ≤ a.q + 6 then
    { a with skips := a.skips + 1, starts := (x.pair, none) :: a.starts.filter fun e => e.1 ≠ x.pair }
  else if win ≤ a.q + 6 * x.recs.length then { a with stop := some x.t }
  else
    let rs := (List.range x.recs.length).map fun i => edgeRec tc gen (a.seq + i) x.pair (x.recs.getD i ⟨0, 0, false, false⟩)
    let starts := a.starts.map fun e => if e.1 = x.pair && e.2.isNone then (e.1, some x.t) else e
    { a with seq := (a.seq + rs.length) % 65536, queued := a.queued + rs.length, recs := a.recs ++ rs, starts := starts,
             left := a.left ++ x.recs.map (fun r => (x.pair, r.lower, r.level)), q := a.q + 6 * rs.length }

/-- Keep what a later cutoff can still ask for: entries within the longest lead before `base`, and the newest older one. -/
def pruneHanded {α : Type} (base : Int) : List (Int × α) → List (Int × α)
  | [] => []
  | e :: t => if base - 4000 ≤ e.1 then e :: pruneHanded base t else [e]

/-- Is the group held (05 R150)? `none`: the edge former emits nothing at all. -/
def efGate (n : Nat) (psc : Bool) (d : Dev) : Option Bool :=
  let u := d.isle n
  if d.mode = 3 && d.red.paired then none
  else if u.entry.role = 1 then
    let s := d.str u.entry.string
    if s.sstate = 3 || s.excl.contains u.entry.gPos then none
    else some (if s.sstate = 2 then false else if s.sstate = 1 then psc else true)
  else if u.entry.role = 2 then
    some !(d.mode = 4 && d.flag ⟨primAddr .nrw u.entry.ring 0x0C, u.entry.node, 1⟩)
  else none

/-- 03 Table ISL-14: the first edge record of the tick is queued `f` cycles after the edge: the latency from the arrival stamp. -/
def latMeasure (n f : Nat) (d : Dev) : Dev :=
  let u := d.isle n
  let lat := (f - (if d.tide.k % 2 = 0 then u.slot0 else u.slot1).stamp) % 65536
  let mean := d.f ⟨islReg n 0x18, 16, 16⟩
  let new : Int := if u.latLoaded then (mean : Int) + ((lat : Int) - mean + 32) / 64 else lat
  ((d.setF ⟨islReg n 0x18, 0, 16⟩ lat).setF ⟨islReg n 0x18, 16, 16⟩ new.toNat).modIsle n fun u => { u with latLoaded := true }

/-- 05 R150: a pair whose edge former emits nothing is held with both gates off. -/
def silentPair (u : PairU) : PairU :=
  { u with held := true, cur := none, sup := none, fu := false, fl := false, up := false, lo := false, recUp := false, recLo := false,
           blocked := none, fen := true, f0 := false, f1 := false }

/-- 05 R139, R141: a group's span of the current tick, [h, h + T_c), on the tick-number time line. -/
def spanStart (gd : GroupDef) (d : Dev) : Int := (d.tide.k * d.tc : Nat) + gd.span % (2 * d.tc)

/-- 05 R139 to R154: group `g` of isle `n` processed from cycle `f` of the current tick on, or once the records before are queued. -/
def efProcess (n g f : Nat) (d : Dev) : Dev :=
  let u := d.isle n
  let b := liveBank u
  let ef := u.ef
  let f := max f ef.busy
  if ef.done.contains g || b.ef.groups.length ≤ g || d.window ≤ f then d
  else
    let gd := b.ef.groups.getD g {}
    let gate := efGate n gd.psc d
    let held := gate.getD true
    let tc := d.tc
    let base : Int := d.tide.k * tc
    let h : Int := spanStart gd d
    let e := h + tc
    let far := e + 3 * max gd.period 2
    let last := ((ef.last.find? fun x => x.1 = g).map (·.2)).map (relatch b ef g h)
    let ls := groupLatches b ef g h e last
    let l0 := last.getD (let c := (ef.psc.find? fun c => c.1 < h - b.ef.lead); mkLatch b ef g h (if gd.psc then c.elim 0 (·.2) else 0) (c.elim (-1000000000000) (·.1)))
    let ll := (ls.getLast?).getD l0
    let ext := ((reloadsFrom ll.period ll.theta ll.reload far 8 e).head?).getD e
    let segs := segsFrom l0 h far ls
    let pairs := groupPairs b g
    let outs := pairs.map fun p =>
      if gate.isSome then pairRun segs h tc far ext p held (tget (fun _ => {}) ef.pairs p)
      else ⟨p, silentPair (tget (fun _ => {}) ef.pairs p), [], 0, 0, 0⟩
    let units := outs.foldl (fun acc o => o.units.foldl (fun acc x => insertUnit x acc) acc) []
    let q0 : QueueAcc := ⟨ef.seq, ef.queued, ef.capped, [], 0, 0, pairs.map fun p => (p, some (32 * h)), [], [], base + f, none⟩
    let q := units.foldl (queueUnit tc u.gen b.ef.eMax b.ef.lead (base + d.window)) q0
    let slots := pairs.map fun p => (b.ef.pairs.getD p {}).slot
    let before : Option Int := (ef.proc.find? fun y => y.1 = g).map (·.2)
    let ups : List Int := (distinct slots).flatMap fun s => ((tget (fun _ => []) ef.handed s).filter fun x => base ≤ x.1).map (·.1)
    let ups : List Int := ups ++ ((ef.ovrs.filter fun x => before.getD base ≤ x.1).map (·.1)) ++
      (if gd.psc then (ef.psc.filter fun x => match before with | some y => decide (y ≤ x.1) | none => true).map (·.1) else [])
    let lates : Nat := (ls.flatMap fun (l : Latch) => ups.filter fun (t : Int) => decide (l.r - (b.ef.lead : Int) ≤ t)).length
    let drops := (outs.map (·.drops)).sum
    let keeps := (outs.map (·.keeps)).sum
    let shoots := (outs.map (·.shoots)).sum
    let last32 : Int := q.stop.getD (32 * e)
    let cover := pairs.map fun p =>
      let fin : Int := min last32 (((q.ends.find? fun x => x.1 = p).map (·.2)).getD (32 * e)) / 32
      let sta : Int := match (q.starts.find? fun x => x.1 = p).map (·.2) with
        | some (some t) => t / 32
        | _ => fin
      { pair := p, fromPar := (sta / tc % 4).toNat, fromSt := (sta % tc).toNat,
        toPar := (fin / tc % 4).toNat, toSt := (fin % tc).toNat : Cover }
    let ptab := outs.foldl (fun t o => tput (fun _ => {}) t o.pair
      (q.left.foldl (fun (pu : PairU) x =>
        if x.1 ≠ o.pair then pu else if x.2.1 then { pu with recLo := x.2.2 } else { pu with recUp := x.2.2 }) o.pu)) ef.pairs
    let ef' : EfU := { ef with
      seq := q.seq, queued := q.queued, capped := q.capped, done := g :: ef.done, pairs := ptab, proc := tput (fun _ => 0) ef.proc g (base + f),
      busy := if q.stop.isSome then d.window else (q.q - base).toNat, fresh := ef.fresh.filter (· ≠ g), last := tput (fun _ => {}) ef.last g ll }
    let d := d.setIsle n { u with ef := ef' }
    let d := if gate.isNone then d else d.modRing u.entry.ring fun r => { r with egress := r.egress ++ [⟨u.entry.node, cover, q.recs, false⟩] }
    let d := whenDo (ef.queued = 0 && q.queued != 0) (latMeasure n (f + 6)) d
    let d := whenDo (lates != 0) (fun d => efTotal 0 lates ((d.raise (efStat n 17)).count (efLate n g) lates)) d
    let d := whenDo (drops != 0) (fun d => efTotal 1 drops ((d.raise (efStat n 16)).count (efDropCnt n) drops)) d
    let d := whenDo (keeps != 0) (fun d => efTotal 2 keeps (d.count (efKeepCnt n) keeps)) d
    let d := whenDo (shoots != 0) (fun d => efTotal 3 shoots (d.count (efBlkCnt n) shoots)) d
    let d := whenDo (q.skips != 0) (fun d => efTotal 4 q.skips ((d.raise (efStat n 18)).count (efSkipCnt n) q.skips)) d
    let d := whenDo (q.caps != 0) (fun d => efTotal 4 q.caps ((d.raise (efStat n 19)).count (efCapCnt n) q.caps)) d
    forEach outs (fun o d =>
      let d := d.setF (efStat n (8 + o.pair)) (b2n o.pu.blocked.isSome)
      let d := whenDo (o.shoots != 0) (fun d => d.raise (efStat n o.pair)) d
      d.setF (efVal n o.pair) (BitVec.ofInt 24 (platch ll o.pair).shown).toNat) d

/-- The groups with a pair that reads a slot. -/
def slotGroups (b : Bank) (slot : Nat) : List Nat :=
  (List.range b.ef.groups.length).filter fun g => b.ef.pairs.any fun p => p.group = g && p.slot = slot

/-- 05 R140: a value handed to a slot of a group that this run has processed misses every reload point of its span. -/
def efLateHand (n g : Nat) (d : Dev) : Dev :=
  let ef := (d.isle n).ef
  let b := liveBank (d.isle n)
  match ef.last.find? fun x => x.1 = g with
  | none => d
  | some (_, l) =>
    let h := spanStart (b.ef.groups.getD g {}) d
    let m := (reloadsFrom l.period l.theta l.reload (h + d.tc) (d.tc / max l.period 1 * 2 + 4) h).length
    whenDo (m != 0) (fun d => efTotal 0 m ((d.raise (efStat n 17)).count (efLate n g) m)) d

/-- 05 R109, R140, R152: a bound node hands its output to a slot at cycle `f`; of the groups that read the slot, those that no later node of
the run updates (`more`) are processed. -/
def efHand (n slot f : Nat) (v : Int) (more : List Nat) (d : Dev) : Dev :=
  let t : Int := d.tide.k * d.tc + f
  let d := d.modIsle n fun u =>
    let l := tget (fun _ => []) u.ef.handed slot
    { u with ef := { u.ef with handed := tput (fun _ => []) u.ef.handed slot ((t, v) :: pruneHanded (d.tide.k * d.tc) l) } }
  forEach (slotGroups (liveBank (d.isle n)) slot) (fun g d =>
    if (d.isle n).ef.done.contains g then efLateHand n g d else if more.contains g then d else efProcess n g f d) d

/-- 05 R152: the groups that no bound node updated are processed at the end of the graph. -/
def efFinish (n f : Nat) (d : Dev) : Dev :=
  forUpTo (liveBank (d.isle n)).ef.groups.length (fun g d => efProcess n g f d) d

/-- A new run of the edge former begins. -/
def efBegin (n : Nat) (d : Dev) : Dev :=
  d.modIsle n fun u => { u with ef := { u.ef with queued := 0, capped := [], done := [], busy := 0 } }

/-- 05 R150: may ISL_EF_OVR[n] be written now? OVR_LOCK is given by the caller. -/
def ovrAllowed (n : Nat) (lock : Bool) (d : Dev) : Bool :=
  let e := (d.isle n).entry
  !lock && (d.mode = 2 || (e.role = 1 && (d.str e.string).sstate = 0) ||
    (e.role = 2 && !d.flag ⟨primAddr .nrw e.ring 0x0C, e.node, 1⟩))

/-- 05 R140, R150, R155: a write of the override word at cycle `f`; a refused one is flagged and counted. -/
def efOverride (n : Nat) (w : Word) (f : Nat) (lock : Bool) (d : Dev) : Word × Dev :=
  if ovrAllowed n lock d then
    let v := w.toNat % 2 ^ 30
    let t : Int := d.tide.k * d.tc + f
    let d := d.wr (islReg n 0x30) (BitVec.ofNat 32 v)
    (0, d.modIsle n fun u => { u with ef := { u.ef with ovrs := (t, v) :: pruneHanded (d.tide.k * d.tc) u.ef.ovrs } })
  else (0x08000022, (d.raise (efStat n 20)).count (efRejCnt n))

/-- 05 R150: the override word is cleared when the string leaves OFF, or when the LV-bridge node is enabled. -/
def clearOverride (n : Nat) (d : Dev) : Dev :=
  if d.rd (islReg n 0x30) = 0 then d
  else
    (d.wr (islReg n 0x30) 0).modIsle n fun u =>
      { u with ef := { u.ef with ovrs := ((d.tide.k : Int) * d.tc, 0) :: u.ef.ovrs.take 3 } }

end Sys2Proof.Machine
end

