-- ==== Sys2Proof/Machine/Adc.lean ====
section
/-! DEFINITION. The station ADC (16): settings, the sequence of a tick, results and their publication, open-wire tests,
calibration, reference. -/
namespace Sys2Proof.Machine

def adcReg (off : Nat) : Nat := primAddr .adc 0 off
def adcsReg (s off : Nat) : Nat := primAddr .adcs s off
def adcStat (i : Nat) : Fld := ⟨adcReg 4, i, 1⟩
def adcSettled : Fld := adcStat 0
def adcConvFlt (c : Nat) : Fld := adcStat (2 + c)
def adcSeqErr : Fld := adcStat 7
def adcVal (s : Nat) : Fld := ⟨adcsReg s 0x18, 0, 16⟩
def adcAge (s : Nat) : Fld := ⟨adcsReg s 0x18, 16, 8⟩
def adcInvalid (s : Nat) : Fld := ⟨adcsReg s 0x18, 24, 1⟩
def adcStaleBit (s : Nat) : Fld := ⟨adcsReg s 0x18, 25, 1⟩
def adcRangeBit (s : Nat) : Fld := ⟨adcsReg s 0x18, 26, 1⟩
def adcCalBit (s : Nat) : Fld := ⟨adcsReg s 0x18, 27, 1⟩
def adcCause (s : Nat) : Fld := ⟨adcsReg s 0x18, 29, 3⟩
def adcCalBusy (s : Nat) : Fld := ⟨adcsReg s 0x1C, 3, 1⟩
def adcCalErr (s : Nat) : Fld := ⟨adcsReg s 0x1C, 4, 1⟩
def adcCalDone (s : Nat) : Fld := ⟨adcsReg s 0x1C, 5, 1⟩

def Dev.slot (d : Dev) (s : Nat) : AdcSlotU := tget (fun _ => {}) d.adc.slots s
def Dev.setSlot (d : Dev) (s : Nat) (u : AdcSlotU) : Dev :=
  { d with adc := { d.adc with slots := tput (fun _ => {}) d.adc.slots s u } }
def Dev.modSlot (d : Dev) (s : Nat) (f : AdcSlotU → AdcSlotU) : Dev := d.setSlot s (f (d.slot s))

/-- A setting in force (16 R470): the word that stood at the start of the sequence. -/
def Dev.adcCfg (d : Dev) (a : Nat) : Word := tget regReset d.adc.cfg a
/-- A field of slot `s` in force. -/
def Dev.scfg (d : Dev) (s off lo w : Nat) : Nat := fget (d.adcCfg (adcsReg s off)) lo w
/-- Slot `s` is enabled in the sequence in force. -/
def Dev.slotOn (d : Dev) (s : Nat) : Bool := d.scfg s 0 6 1 = 1
/-- Slot `s` tests for an open wire in tick `k` (16 R480). -/
def Dev.slotTests (d : Dev) (s k : Nat) : Bool :=
  d.scfg s 0 14 2 != 0 && k % (fget (d.adcCfg (adcReg 8)) 16 8 + 1) = 0

/-- The delivered value of slot `s` published at the last edge (16 R471). -/
def adcDelivered (s : Nat) (d : Dev) : Int := d.sf (adcVal s)

/-- The MV monitor slot of the set-up in force (13 Table SAF-8 byte 70); `none` without a checked bank. -/
def mvSlot (d : Dev) : Option Nat :=
  if d.saf.spb.isEmpty then none
  else let v := leAt d.saf.spb 70 1
    if v < 32 then some v else none

/-- 16 R478: the slot's settings and calibration are locked. -/
def adcLocked (d : Dev) (s : Nat) : Bool := mvSlot d = some s && d.mode != 2

/-- 16 R469: the duration of slot `s` under the settings `rd`: its conversions, and its test conversion whether or not it tests. -/
def slotDuration (rd : Nat → Word) (s : Nat) : Nat :=
  let c := rd (adcsReg s 0)
  if fget c 6 1 = 0 then 0
  else 2 ^ fget c 8 3 * (fget (rd (adcsReg s 4)) 0 12 + 140) +
    (if fget c 14 2 != 0 then fget (rd (adcReg 0xC)) 0 13 + 140 else 0)

/-- 16 R469, R470: the durations of the first `n` steps, which is where step `n` starts. -/
def stepStart (rd : Nat → Word) (n : Nat) : Nat :=
  ((List.range n).map fun j => max (slotDuration rd j) (slotDuration rd (j + 16))).sum

/-- 16 R469: the sequence duration D_seq under the registers of `d`. -/
def adcDuration (d : Dev) : Nat := stepStart d.rd 16

/-- 16 R469, R472: the expected end of slot `n`'s next conversion, in counts after the edge before the sequence's tick. -/
def conversionDue (n : Nat) (d : Dev) : Nat :=
  let cnt := 2 ^ d.scfg n 0 8 3
  let one := d.scfg n 4 0 12 + 140
  let u := d.slot n
  d.tc - fget (d.adcCfg (adcReg 8)) 0 16 + stepStart d.adcCfg (n % 16) +
    (if u.n < cnt then (u.n + 1) * one else cnt * one + fget (d.adcCfg (adcReg 0xC)) 0 13 + 140)

/-- Has slot `n` no conversion left in the sequence: it is off, its converter's rest is skipped, or it is done (16 R469, R472)? -/
def slotDone (d : Dev) (n : Nat) : Bool :=
  let u := d.slot n
  !d.slotOn n || (if n < 16 then d.adc.skip0 else d.adc.skip1) || (u.x.isSome && (!d.slotTests n d.adc.tick || u.tested))

/-- 16 R469: slot `n` is converting: the sequence runs and no slot of an earlier step has a conversion left. -/
def converting (d : Dev) (n : Nat) : Bool :=
  d.adc.running && d.domOn 11 && !slotDone d n && (List.range (n % 16)).all fun j => slotDone d j && slotDone d (j + 16)

/-- 19 R564, R566: HOLD is set, and seen by a sweep in progress. -/
def setHold (d : Dev) : Dev := { d.setF ⟨0x40040000, 0, 1⟩ 1 with bus := { d.bus with holdSeen := true } }
/-- 19 R566: HOLD is cleared. -/
def releaseHold (d : Dev) : Dev := { d.setF ⟨0x40040000, 0, 1⟩ 0 with bus := { d.bus with holdTmo := false } }

/-- 19 R567: the supervisor sets HOLD, and commits a new reference once the change is applied. -/
def cfcRenew (d : Dev) : Dev :=
  if d.mode < 2 || !d.flag ⟨0x40040004, 0, 1⟩ then d
  else let d := (setHold d).raise ⟨0x40040004, 5, 1⟩
    { d with bus := { d.bus with commit := true, renew := true } }

/-- The field of `v` kept where it is legal, else the old one's. -/
def keepFld (ok : Bool) (lo w : Nat) (old v : Word) : Word := if ok then v else fset v lo w (fget old lo w)

/-- 16 R466, R467, R479: a slot configuration whose channel, DIFF and test go together. -/
def slotCfgOk (c : Word) : Bool :=
  let ch := fget c 0 5
  ch != 31 && (fget c 5 1 = 0 || (ch < 24 && ch % 2 = 0)) && (fget c 14 2 = 0 || ch < 24)

/-- 16 R470, R484: the settings of the block, other than commands: refused fields keep their value; a setting whose
sequence does not fit, or of a locked slot, is refused whole. -/
def adcWrite (a : Nat) (v : Word) (d : Dev) : Word × Dev :=
  match decodeAddr a with
  | some ⟨.adcs, s, off⟩ =>
    if adcLocked d s then (refusedCode, d.raise (adcStat 9))
    else
      let old := d.rd a
      let w := match off with
        | 0 => keepFld (fget v 8 3 ≤ 4) 8 3 old (keepFld (fget v 12 2 != 3) 12 2 old (keepFld (fget v 14 2 != 3) 14 2 old v))
        | 4 => keepFld (60 ≤ fget v 0 12 && fget v 0 12 ≤ 4000) 0 12 old (keepFld (1 ≤ fget v 16 15) 16 15 old v)
        | _ => v
      let d' := d.store a w
      let bad := (off = 0 && !slotCfgOk w) || decide (d.f ⟨adcReg 8, 0, 16⟩ < adcDuration d')
      if bad then (refusedCode, d.raise (adcStat 8))
      else
        let d' := d'.setF ⟨adcReg 0x10, 0, 16⟩ (adcDuration d')
        let d' := whenDo (d'.f ⟨adcReg 8, 0, 16⟩ ≤ d'.tc) (fun d => d.lower adcSeqErr) d'
        if w = v then (0, d') else (refusedCode, d'.raise (adcStat 8))
  | _ =>
    let old := d.rd a
    let w :=
      if a = adcReg 8 then
        keepFld (200 ≤ fget v 0 16 && fget v 0 16 ≤ d.tc) 0 16 old (keepFld (1 ≤ fget v 24 8) 24 8 old v)
      else if a = adcReg 0xC then keepFld (200 ≤ fget v 0 13 && fget v 0 13 ≤ 8000) 0 13 old v
      else if a = adcReg 0 then keepFld (fget v 0 2 != 3) 0 2 old v
      else v
    let d' := d.store a w
    if d'.f ⟨adcReg 8, 0, 16⟩ < adcDuration d' then (refusedCode, d.raise (adcStat 8))
    else
      let d' := d'.setF ⟨adcReg 0x10, 0, 16⟩ (adcDuration d')
      let d' := whenDo (a = adcReg 8 && d'.f ⟨adcReg 8, 0, 16⟩ ≤ d'.tc) (fun d => d.lower adcSeqErr) d'
      if w = v && !(a = adcReg 0 && fget v 0 2 = 3) then (0, d') else (refusedCode, d'.raise (adcStat 8))

/-- 16 R470: a change of T that leaves SEQ_LEAD above T_c stops the sequencer. -/
def adcTideCheck (d : Dev) : Dev :=
  if d.tc < d.f ⟨adcReg 8, 0, 16⟩ then
    let d := d.raise adcSeqErr
    { d with adc := { d.adc with running := false } }
  else d

/-- 16 R469 to R471: the sequence of a tick starts SEQ_LEAD before its edge, `at_` counts after the edge before. The settings take effect,
SEQ_LEAD with the start itself (DEDUCED); a changed slot's filter starts anew (R475); a calibration commanded since begins. -/
def execSequenceStart (at_ : Nat) (s : State) : Host.Outcome State Fault Refusal := runCore s fun d =>
  if d.flag adcSeqErr || d.adc.running || at_ + d.f ⟨adcReg 8, 0, 16⟩ != d.tc then d
  else
    let old := d.adc.cfg
    let cfg : Table Word := d.regs.filter fun e => 0x43200000 ≤ e.1 && e.1 < 0x43210000
    let d := { d with adc := { d.adc with cfg := cfg, running := true, tick := d.tide.k + 1, skip0 := false, skip1 := false,
                                          tmo0 := if d.adc.skip0 then d.adc.tmo0 else 0
                                          tmo1 := if d.adc.skip1 then d.adc.tmo1 else 0 } }
    let sel (t : Table Word) : Nat := fget (tget regReset t (adcReg 0)) 0 2
    let d := whenDo (sel old != sel cfg) (fun d => d.lower adcSettled) d
    forUpTo 32 (fun j d => d.modSlot j fun u =>
      let chg (o : Nat) : Bool := tget regReset old (adcsReg j o) != tget regReset cfg (adcsReg j o)
      let u := { u with sum := 0, n := 0, refBad := false, x := none, tested := false,
                        cal := u.cal.map fun c => { c with begun := true } }
      if chg 0 || chg 4 then { u with loaded := false, viol := 0, fails := 0, isOpen := false } else u) d

/-- 16 R480: the test code fails against the slot's code. -/
def openFails (diff : Bool) (dir delta : Nat) (xt x : Int) : Bool :=
  decide ((delta : Int) < (xt - x).natAbs) ||
    (if diff then decide (xt = if dir = 1 then 32767 else -32768) else decide (xt = if dir = 1 then 65535 else 0))

/-- 16 R473, R476, R480: a conversion of slot `n` ends with a code. The first n conversions are averaged; the one after
them is the test conversion of a tick in which the slot tests. Steps run in order (R469), so a slot of a later step converts nothing yet. -/
def execConversionEnd (n : Fin 32) (code : BitVec 16) (s : State) : Host.Outcome State Fault Refusal := runCore s fun d =>
  let u := d.slot n
  let cnt := 2 ^ d.scfg n 0 8 3
  let diff := d.scfg n 0 5 1 = 1
  let c : Int := if diff then code.toInt else code.toNat
  if !converting d n then d
  else if u.n < cnt then
    let u := { u with sum := u.sum + c, n := u.n + 1, refBad := u.refBad || !d.flag adcSettled }
    if u.n < cnt then d.setSlot n u
    else
      let x := (u.sum + (cnt / 2 : Nat)) / (cnt : Int)
      (d.setSlot n { u with x := some x }).setF ⟨adcsReg n 0x14, 0, 16⟩ (unsigned 16 x)
  else if d.slotTests n d.adc.tick && !u.tested then
    let bad := openFails diff (d.scfg n 0 14 2) (fget (d.adcCfg (adcReg 0xC)) 16 16) c (u.x.getD 0)
    let fails := if bad then u.fails + 1 else 0
    let now := if bad then u.isOpen || decide (2 ≤ fails) else false
    let d := (d.setSlot n { u with tested := true, fails := min fails 2, isOpen := now }).setF ⟨adcsReg n 0x14, 16, 16⟩ code.toNat
    whenDo (now && !u.isOpen) (fun d => (d.raise (adcStat 5)).count ⟨adcReg 0x14, 16, 8⟩) d
  else d

/-- 16 R472: a conversion of slot `n` has not ended 40 counts after its expected end: `at_` counts after the edge. -/
def execConversionTimeout (n : Fin 32) (at_ : Nat) (s : State) : Host.Outcome State Fault Refusal := runCore s fun d =>
  let c := n.val / 16
  if !converting d n || at_ < conversionDue n d + 40 then d
  else
    let t := (if c = 0 then d.adc.tmo0 else d.adc.tmo1) + 1
    let d := d.modSlot n fun u => { u with x := none }
    let d := { d with adc := if c = 0 then { d.adc with skip0 := true, tmo0 := min t 3 } else { d.adc with skip1 := true, tmo1 := min t 3 } }
    let d := (d.raise (adcStat 4)).count ⟨adcReg 0x14, 8 * c, 8⟩
    whenDo (3 ≤ t) (fun d => d.raise (adcConvFlt c)) d

/-- 16 R474: the corrected value of code `x` under zero code, mantissa and shift. -/
def adcCorrect (x z gm σ : Int) : Int :=
  let p := (x - z) * gm
  if 15 ≤ σ then satS 16 (p * 2 ^ (σ - 15).toNat)
  else satS 16 ((p + 2 ^ (14 - σ).toNat) / 2 ^ (15 - σ).toNat)

/-- 16 R475: the value of MODE for a corrected value. -/
def adcDeliver (mode : Nat) (a y : Int) (u : AdcSlotU) : Int × AdcSlotU :=
  let v : Int := if mode = 2 then min y.natAbs 32767 else y
  if mode = 0 then (y, { u with loaded := true })
  else
    let f := if u.loaded then intAdd u.filt (mac a 0 (v - intQ15 u.filt)) else v * 2 ^ 16
    (intQ15 f, { u with filt := f, loaded := true })

/-- 16 R476: the cause of slot `n`'s result at publication: 0 valid, none where the sequence gave the slot no result. -/
def adcResult (d : Dev) (n : Nat) : Option Nat :=
  let u := d.slot n
  let c := n / 16
  if d.flag adcSeqErr then some 6
  else if !d.domOn 11 then some 3
  else if d.flag (adcConvFlt c) then some 2
  else if !d.adc.running then none
  else match u.x with
    | none => if (if c = 0 then d.adc.skip0 else d.adc.skip1) then some 1 else none
    | some _ => some (if u.refBad then 4 else if u.isOpen then 5 else 0)

/-- 16 R471, R475 to R477, R481: slot `n` at the tick edge. -/
def adcPublishSlot (n : Nat) (d : Dev) : Dev :=
  if !d.slotOn n then d
  else match adcResult d n with
  | none => d
  | some 0 =>
    let u := d.slot n
    let x := u.x.getD 0
    let y := adcCorrect x (signed 17 (d.scfg n 0xC 0 17)) (signed 16 (d.scfg n 0x10 0 16)) (signed 4 (d.scfg n 0x10 16 4))
    let u := if d.flag (adcStaleBit n) then { u with loaded := false } else u
    let d := (((d.lower (adcInvalid n)).setF (adcAge n) 0).lower (adcStaleBit n)).setF (adcCause n) 0
    match u.cal with
    | some c =>
      if c.begun && c.cnt < 64 then d.setSlot n { u with cal := some { c with sum := c.sum + x, cnt := c.cnt + 1 } } else d.setSlot n u
    | none =>
      let (v, u) := adcDeliver (d.scfg n 0 12 2) (d.scfg n 4 16 15) y u
      let out := v < signed 16 (d.scfg n 8 0 16) || signed 16 (d.scfg n 8 16 16) < v
      let viol := if out then min (u.viol + 1) 16 else 0
      let declared := decide (d.scfg n 0 18 4 + 1 ≤ viol)
      let show_ := if declared && d.scfg n 0 17 1 = 1 then u.good else v
      let u := { u with viol := viol, good := if out then u.good else v, pre := v }
      ((d.setSlot n u).setF (adcVal n) (unsigned 16 show_)).setF (adcRangeBit n) (b2n declared)
  | some c => ((d.raise (adcInvalid n)).count (adcAge n)).setF (adcCause n) c

/-- 16 R471: the results of the sequence are published together at the tick edge; calibrations count the tick. -/
def adcPublish (d : Dev) : Dev :=
  let d := forUpTo 32 adcPublishSlot d
  let d := forUpTo 32 (fun j d => d.modSlot j fun u => { u with cal := u.cal.map fun c => { c with ticks := min (c.ticks + 1) 256 } }) d
  { d with adc := { d.adc with running := false } }

/-- 16 R476. -/
def execAdcStale (n : Fin 32) (s : State) : Host.Outcome State Fault Refusal := runCore s fun d =>
  if fget (d.adcCfg (adcReg 8)) 24 8 ≤ d.f (adcAge n) && d.flag (adcInvalid n) && !d.flag (adcStaleBit n) then
    (d.raise (adcStaleBit n)).raise (adcStat 6)
  else d

/-- The start of a calibration (16 R481), refused on a locked slot (R478). -/
def calStart (n : Nat) (c : CalU) (d : Dev) : Dev :=
  if adcLocked d n then d.raise (adcStat 9)
  else (((d.modSlot n fun u => { u with cal := some c }).raise (adcCalBusy n)).raise (adcCalBit n))

/-- The end of a calibration. -/
def calStop (n : Nat) (d : Dev) : Dev :=
  ((d.modSlot n fun u => { u with cal := none }).lower (adcCalBusy n)).lower (adcCalBit n)

/-- 16 R481. -/
def execCalZero (n : Fin 32) (s : State) : Host.Outcome State Fault Refusal := runCore s (calStart n { fs := false, vfs := 0 })

/-- 16 R481: full-scale calibration to the target v_fs, which the command register holds. -/
def execCalFs (n : Fin 32) (vfs : BitVec 16) (s : State) : Host.Outcome State Fault Refusal := runCore s fun d =>
  if adcLocked d n then d.raise (adcStat 9)
  else calStart n { fs := true, vfs := vfs.toInt } (d.setF ⟨adcsReg n 0x1C, 16, 16⟩ vfs.toNat)

/-- 16 R481. -/
def execCalAbort (n : Fin 32) (s : State) : Host.Outcome State Fault Refusal := runCore s fun d =>
  if adcLocked d n then d.raise (adcStat 9) else calStop n d

/-- 16 R481: the gain mantissa for shift σ, rounded half up; `q` is F − Z. -/
def gainFor (vfs q σ : Int) : Int :=
  let n := (if q < 0 then -vfs else vfs) * 2 ^ (15 - σ).toNat
  let q := (q.natAbs : Int)
  (2 * n + q) / (2 * q)

/-- 16 R481: the smallest shift whose mantissa fits. -/
def gainSearch (vfs q : Int) : Option (Int × Int) :=
  (((List.range 16).map fun (i : Nat) => ((i : Int) - 8, gainFor vfs q ((i : Int) - 8))).find? fun e => e.2.natAbs ≤ 32767)

/-- 16 R481: 64 valid sequences are averaged; Z, or gain and shift, are set, and the reference of the configuration check
is taken anew (19 R567). -/
def execCalDone (n : Fin 32) (s : State) : Host.Outcome State Fault Refusal := runCore s fun d =>
  match (d.slot n).cal with
  | none => d
  | some c =>
    if c.cnt < 64 then d
    else
      let m := (c.sum + 32) / 64
      let z := d.sf ⟨adcsReg n 0xC, 0, 17⟩
      let d := calStop n d
      if c.fs then
        if m = z || c.vfs * (m - z) < 0 then d.raise (adcCalErr n)
        else match gainSearch c.vfs (m - z) with
          | none => d.raise (adcCalErr n)
          | some (σ, g) =>
            ((d.setF ⟨adcsReg n 0x10, 0, 16⟩ (unsigned 16 g)).setF ⟨adcsReg n 0x10, 16, 4⟩ (unsigned 4 σ)).raise (adcCalDone n) |> cfcRenew
      else if 4096 < m.natAbs then d.raise (adcCalErr n)
      else (d.setF ⟨adcsReg n 0xC, 0, 17⟩ (unsigned 17 m)).raise (adcCalDone n) |> cfcRenew

/-- 16 R481: 256 ticks pass without 64 valid sequences. -/
def execCalTimeout (n : Fin 32) (s : State) : Host.Outcome State Fault Refusal := runCore s fun d =>
  match (d.slot n).cal with
  | none => d
  | some c => if 256 ≤ c.ticks && c.cnt < 64 then (calStop n d).raise (adcCalErr n) else d

/-- 16 R472, Table ADC-6. -/
def adcFltClr (c0 c1 : Bool) (d : Dev) : Dev :=
  let clr (c : Nat) (d : Dev) : Dev :=
    let d := d.lower (adcConvFlt c)
    { d with adc := if c = 0 then { d.adc with tmo0 := 0 } else { d.adc with tmo1 := 0 } }
  whenDo c1 (clr 1) (whenDo c0 (clr 0) d)

/-- 16 R472. -/
def execAdcFltClr (c0 c1 : Bool) (s : State) : Host.Outcome State Fault Refusal := runCore s (adcFltClr c0 c1)

/-- 16 R468, R470: the new selection takes effect at the start of the next sequence, which clears REF_SETTLED. -/
def execRefSelWrite (v : Fin 4) (s : State) : Host.Outcome State Fault Refusal := runCore s fun d =>
  (adcWrite (adcReg 0) (BitVec.ofNat 32 v) d).2

/-- 16 R468: the reference has stayed in its window without a break for `elapsed` counts: 1 ms settles it. -/
def execRefSettled (elapsed : Nat) (s : State) : Host.Outcome State Fault Refusal := runCore s fun d =>
  if d.domOn 11 && decide (400000 ≤ elapsed) then d.raise adcSettled else d

/-- 16 R468. -/
def execRefErr (s : State) : Host.Outcome State Fault Refusal := runCore s fun d =>
  if d.flag adcSettled then ((d.lower adcSettled).raise (adcStat 1)).count ⟨adcReg 0x14, 24, 8⟩ else d

end Sys2Proof.Machine
end

