-- ==== Sys2Proof/Machine/Feedback.lean ====
section
/-! DEFINITION. The feedback interfaces (15): counting, interpolation, SSI, the position counter, index and reference,
speed, the latch at a tick edge, settings. Instants are counts of 2.5 ns on the running count of the tide unit. -/
namespace Sys2Proof.Machine

def encReg (f off : Nat) : Nat := primAddr .enc f off
def encMode (f : Nat) : Fld := ⟨encReg f 0, 0, 3⟩
def encStat (f i : Nat) : Fld := ⟨encReg f 4, i, 1⟩
def encDir (f : Nat) : Fld := encStat f 1
def encStill (f : Nat) : Fld := encStat f 2
def encMethod (f : Nat) : Fld := encStat f 3
def encRefOk (f : Nat) : Fld := encStat f 4
def encRefPend (f : Nat) : Fld := encStat f 6
def encAmpErr (f : Nat) : Fld := encStat f 11
def encCable (f : Nat) : Fld := encStat f 12
def encSsiFlt (f : Nat) : Fld := encStat f 14
def encCfgRej (f : Nat) : Fld := encStat f 16

def Dev.enc (d : Dev) (f : Nat) : EncU := tget (fun _ => {}) d.encs f
def Dev.setEnc (d : Dev) (f : Nat) (u : EncU) : Dev := { d with encs := tput (fun _ => {}) d.encs f u }
def Dev.modEnc (d : Dev) (f : Nat) (g : EncU → EncU) : Dev := d.setEnc f (g (d.enc f))

/-- The instant `at_` counts after the current edge, on the running count. -/
def Dev.now (d : Dev) (at_ : Nat) : Nat := d.tide.abs + at_

/-- Modes that interpolate: SINCOS, SSI_SINCOS. -/
def sinMode (m : Nat) : Bool := m = 2 || m = 5
/-- Modes that count A and B: INC, SSI_INC. -/
def incMode (m : Nat) : Bool := m = 1 || m = 4
/-- Hybrid modes: SSI_INC, SSI_SINCOS. -/
def hybridMode (m : Nat) : Bool := m = 4 || m = 5

/-- 15 R459: SPD_VALID. -/
def encValid (f : Nat) (d : Dev) : Bool :=
  let m := d.f (encMode f)
  let u := d.enc f
  m != 0 && !u.qerrHold && !(m = 3 && u.ssiGood < 2) && !d.flag (encAmpErr f) && !d.flag (encCable f) &&
    !(sinMode m && !d.domOn 11)

/-- The word of ENC_STAT_f: SPD_VALID, AT_LIMIT, CORR_PEND and, in SSI mode, METHOD (R455) show the state beside the stored bits
(15 Table FBK-10). -/
def encStatWord (f : Nat) (d : Dev) : Word :=
  let u := d.enc f
  let lim := decide (u.pos = signed 32 (d.rd (encReg f 0x14)).toNat) || decide (u.pos = signed 32 (d.rd (encReg f 0x18)).toNat)
  let w := if d.f (encMode f) = 3 then fset (d.rd (encReg f 4)) 3 1 1 else d.rd (encReg f 4)
  fset (fset (fset w 0 1 (b2n (encValid f d))) 5 1 (b2n lim)) 7 1 (b2n u.corr.isSome)

/-- 15 R448: the counter moves by `n` within the soft limits; counts beyond are lost and clear REF_OK. -/
def encCount (f : Nat) (n : Int) (d : Dev) : Dev :=
  let u := d.enc f
  let lo := signed 32 (d.rd (encReg f 0x14)).toNat
  let hi := signed 32 (d.rd (encReg f 0x18)).toNat
  let want := u.pos + n
  let got := if 0 ≤ n then max u.pos (min want hi) else min u.pos (max want lo)
  let lost := (want - got).natAbs
  let d := d.setEnc f { u with pos := got }
  whenDo (lost != 0) (fun d => (d.count ⟨encReg f 0x74, 0, 16⟩ lost).lower (encRefOk f)) d

/-- 15 R454, R457, R458: a change of `n` counts at instant `t`: first change after standstill, reversal, or the end of a
period. The first change after a quadrature error only starts a period (R438). -/
def encChange (f : Nat) (n : Int) (t : Nat) (d : Dev) : Dev :=
  if n = 0 then d
  else
    let u := d.enc f
    let dir := b2n (decide (n < 0))
    let u := { u with acc := signed 48 (unsigned 48 (u.acc + n)) }
    let d := d.setF ⟨encReg f 0x6C, 0, 24⟩ (t - d.tide.abs)
    let d := d.setF ⟨encReg f 0x6C, 24, 8⟩ 0
    if d.flag (encStill f) || u.lastT.isNone then
      let rev := d.f (encDir f) != dir
      ((d.setEnc f { u with lastT := some t, broken := false, period := none, idle := 0, sinceRev := if rev then 0 else u.sinceRev }).setF (encDir f) dir).lower (encStill f)
    else if d.f (encDir f) != dir then
      ((d.setEnc f { u with lastT := some t, broken := false, period := none, idle := 0, sinceRev := 0 }).setF (encDir f) dir).setF (encMethod f) 0
    else
      d.setEnc f { u with lastT := some t, broken := false, idle := 0,
                          period := if u.broken then none else some (n.natAbs, u.lastT.getD t, t) }

/-- 15 R438: a quadrature error. The first complete period after it is measured between changes that both follow it. -/
def encQerr (f : Nat) (d : Dev) : Dev :=
  let d := d.modEnc f fun u => { u with qerrHold := true, cleanRun := 0, broken := true, period := none }
  ((d.raise (encStat f 10)).count ⟨encReg f 0x70, 0, 8⟩).lower (encRefOk f)

/-- 15 R452: the value of p_I + n·CPR nearest `c`, a tie to the lower n. -/
def nearestIndex (p cpr c : Int) : Int :=
  let n := (c - p) / cpr
  let r := c - p - n * cpr
  if 2 * r ≤ cpr then p + n * cpr else p + (n + 1) * cpr

/-- 15 R450: the levels of A and B that ZQ names. -/
def zqHolds (zq : Nat) (a b : Bool) : Bool :=
  match zq with | 0 => true | 1 => a && b | 2 => a && !b | _ => !a && b

/-- 15 R450: Z is accepted at its active level, Z_POL, and A and B at the levels that ZQ names. -/
def atIndex (f : Nat) (d : Dev) : Bool :=
  let u := d.enc f
  u.z == d.flag ⟨encReg f 0x2C, 11, 1⟩ && zqHolds (d.f ⟨encReg f 0x2C, 9, 2⟩) u.a u.b

/-- 15 R451, R452: the effect of an index event. In the hybrid modes REF_ARM awaits the next valid frame (R447), so an index event
there references nothing (DEDUCED). -/
def encIndex (f : Nat) (d : Dev) : Dev :=
  let u := d.enc f
  let d := d.wr (encReg f 0x24) (BitVec.ofNat 32 (unsigned 32 u.pos))
  if d.flag (encRefPend f) && !hybridMode (d.f (encMode f)) then
    let v := signed 32 (d.rd (encReg f 0x20)).toNat
    let d := d.modEnc f fun u => { u with pos := v, pIdx := some v, pIdxNext := false, corr := none }
    ((d.raise (encRefOk f)).lower (encStat f 8)).lower (encRefPend f)
  else if d.flag (encRefOk f) && (u.pIdxNext || u.pIdx.isNone) then
    d.modEnc f fun u => { u with pIdx := some u.pos, pIdxNext := false }
  else
    let cpr : Int := d.f ⟨encReg f 0x1C, 0, 31⟩
    if !d.flag (encRefOk f) || cpr = 0 then d
    else
      let e := u.pos - nearestIndex (u.pIdx.getD 0) cpr u.pos
      if e = 0 then d.modEnc f fun u => { u with corr := none }
      else
        let d := ((d.raise (encStat f 8)).wr (encReg f 0x28) (BitVec.ofNat 32 (unsigned 32 e))).count ⟨encReg f 0x70, 8, 8⟩
        if d.flag ⟨encReg f 0x2C, 8, 1⟩ && decide (e.natAbs ≤ d.f ⟨encReg f 0x2C, 0, 8⟩) then
          if u.corr = some e then
            encCount f (-e) (((d.modEnc f fun u => { u with corr := none }).raise (encStat f 9)).count ⟨encReg f 0x70, 16, 8⟩)
          else d.modEnc f fun u => { u with corr := some e }
        else d.lower (encRefOk f)

/-- 15 R450: an index event occurs in the first cycle in which its condition holds. `d` is the device before the levels
accepted in this cycle, `e` after them and after a count of the same cycle (Table FBK-5: the index captures the count after the edge). -/
def indexAfter (f : Nat) (d e : Dev) : Dev :=
  let m := e.f (encMode f)
  whenDo ((incMode m || sinMode m) && atIndex f e && !atIndex f d) (encIndex f) e

/-- 15 R450 to R452: Z is accepted at level `z`; that is an index event where A and B stand at the levels of ZQ. -/
def execIndexEvent (f : Fin 4) (z : Bool) (s : State) : Host.Outcome State Fault Refusal := runCore s fun d =>
  indexAfter f d (d.modEnc f fun u => { u with z := z })

/-- The place of levels (A, B) in the quadrature sequence in which a leading B counts down (15 R437). -/
def quadOf (a b : Bool) : Int := if a then (if b then 2 else 1) else (if b then 3 else 0)

/-- The quadrant of the squared sine and cosine, in the sense in which the angle rises (15 R439). -/
def sinQuad (a b : Bool) : Int := if a then (if b then 0 else 1) else (if b then 3 else 2)

/-- A difference modulo 4 as −1, 0, +1 or 2. -/
def quadStep (p q : Int) : Int := let r := (q - p) % 4; if r = 3 then -1 else r

/-- 15 R437, R438: the count of a change of A or B from the levels that `u` held. A leading B counts up, DIR_INV reverses. Under
CABLE_FLT the position stands and the edges count for the speed alone (Table FBK-3). In the sine/cosine modes the quadrant follows,
and under AMP_ERR the position and the frozen angle with it. -/
def encQuad (f : Nat) (u : EncU) (t : Nat) (d : Dev) : Dev :=
  let m := d.f (encMode f)
  let v := d.enc f
  let inv (n : Int) : Int := if d.flag ⟨encReg f 0, 3, 1⟩ then -n else n
  if u.a != v.a && u.b != v.b then encQerr f d
  else if incMode m then
    let n := inv (quadStep (quadOf u.a u.b) (quadOf v.a v.b))
    let run1 := if u.cleanRun != 0 && d.f (encDir f) = b2n (decide (n < 0)) then u.cleanRun + 1 else 1
    let d := d.modEnc f fun v => { v with edges := min (v.edges + 1) 32767, cleanRun := min run1 2, qerrHold := v.qerrHold && run1 < 2 }
    whenDo (!d.flag (encCable f)) (encCount f n) (encChange f n t d)
  else
    let n := quadStep (sinQuad u.a u.b) (sinQuad v.a v.b)
    let d := d.modEnc f fun v => { v with quad := v.quad + n, edges := min (v.edges + 1) 32767 }
    if d.flag (encAmpErr f) && !d.flag (encCable f) then
      let d := d.modEnc f fun v => { v with phi := v.phi.map fun p => ((Int.ofNat p + 1024 * n) % 4096).toNat }
      let c := inv (n * 2 ^ d.f ⟨encReg f 0x50, 16, 4⟩)
      encCount f c (encChange f c t d)
    else d

/-- 15 R437, R438, R450: A and B are accepted at the levels given, stamped `at_` counts after the edge. The comparators of the
sine/cosine modes lie in PD_11 (R436). -/
def execQuadEdge (f : Fin 4) (a b : Bool) (at_ : Nat) (s : State) : Host.Outcome State Fault Refusal := runCore s fun d =>
  let u := d.enc f
  let m := d.f (encMode f)
  if sinMode m && !d.domOn 11 then d
  else
    let e := d.setEnc f { u with a := a, b := b }
    if (u.a == a && u.b == b) || (!incMode m && !sinMode m) then e
    else indexAfter f d (encQuad f u (d.now at_) e)

/-- The bits of an angle, most significant first: one for the lower half plane, then the doubled angle. -/
def angleBits : Nat → Int → Int → Nat → Nat
  | 0, _, _, a => a
  | n + 1, c, s, a =>
    let low := decide (s < 0) || (s = 0 && decide (c < 0))
    let c2 := c * c - s * s
    let s2 := 2 * c * s
    let k : Int := Int.ofNat (max c2.natAbs s2.natAbs / 2 ^ 40 + 1)
    angleBits n (c2 / k) (s2 / k) (2 * a + b2n low)

/-- 15 R439: the angle within the signal period to 12 bits, atan2(sin′, cos′); the accuracy of Table FBK-3 (±4 counts) is open. -/
def encAngle (sn cs : Int) : Nat :=
  let dev := max (-4) (min (Config.interpDeviation sn cs) 4)
  ((Int.ofNat (angleBits 12 cs sn 0) + dev) % 4096).toNat

/-- 15 R439: x′ = (x − offset) · gain. -/
def scCorrect (x off gain : Int) : Int := (x - off) * gain

/-- 15 R439 to R441: a sample of the sine/cosine pair in converter LSB, taken `at_` counts after the edge; the sequence restarts at
each edge and samples every 2 µs, so at no other instant. Under AMP_ERR the angle stands frozen; after CABLE_FLT, whose position stood, the
first sample only sets it (DESIGN CHOICE: the rules say nothing of the first sample). -/
def execSincosSample (f : Fin 4) (sn cs : BitVec 16) (at_ : Nat) (s : State) : Host.Outcome State Fault Refusal := runCore s fun d =>
  let m := d.f (encMode f)
  if !sinMode m || !d.domOn 11 || at_ % 800 != 0 then d
  else
    let s' := scCorrect sn.toInt (d.sf ⟨encReg f 0x48, 0, 16⟩) (d.f ⟨encReg f 0x4C, 0, 16⟩)
    let c' := scCorrect cs.toInt (d.sf ⟨encReg f 0x48, 16, 16⟩) (d.f ⟨encReg f 0x4C, 16, 16⟩)
    let amp := isqrtFrom (s' * s' + c' * c').toNat 34 0 / 2 ^ 15
    let u := d.enc f
    let lowA := decide (amp * 100 < 16384 * d.f ⟨encReg f 0x50, 0, 8⟩)
    let highA := decide (16384 * d.f ⟨encReg f 0x50, 8, 8⟩ < amp * 100)
    let out := lowA || highA
    let u := { u with ampOut := if out then min (u.ampOut + 1) 4 else 0, ampIn := if out then 0 else min (u.ampIn + 1) 500,
                      ampLow := if amp * 10 < 16384 then min (u.ampLow + 1) 4 else 0 }
    let d := (d.setEnc f u).setF ⟨encReg f 0x54, 0, 16⟩ (min amp 32767)
    if d.flag (encCable f) then d.modEnc f fun v => { v with phi := none }
    else if d.flag (encAmpErr f) then d
    else
      let phi := encAngle s' c'
      let q := ((phi / 1024 : Nat) : Int)
      match u.phi with
      | none => d.setEnc f { u with phi := some phi, quad := u.quad + quadStep u.quad q }
      | some p =>
        let step := signed 12 ((phi + 4096 - p) % 4096)
        let dq := quadStep u.quad q
        let bad := dq = 2 || decide (1024 < step.natAbs)
        if bad then (encQerr f d).modEnc f fun v => { v with phi := some phi, quad := v.quad + dq }
        else
          let sh := 10 - min (d.f ⟨encReg f 0x50, 16, 4⟩) 10
          let n := (p + step) / 2 ^ sh - (p : Int) / 2 ^ sh
          let n := if d.flag ⟨encReg f 0, 3, 1⟩ then -n else n
          let run1 := if n = 0 then u.cleanRun else if u.cleanRun != 0 && d.f (encDir f) = b2n (decide (n < 0)) then u.cleanRun + 1 else 1
          let d := d.setEnc f { u with phi := some phi, quad := u.quad + dq, cleanRun := min run1 2, qerrHold := u.qerrHold && decide (run1 < 2) }
          encCount f n (encChange f n (d.now at_) d)

/-- 15 Table FBK-3. -/
def execAmpErr (f : Fin 4) (s : State) : Host.Outcome State Fault Refusal := runCore s fun d =>
  if sinMode (d.f (encMode f)) && 4 ≤ (d.enc f).ampOut && !d.flag (encAmpErr f) then
    (d.raise (encAmpErr f)).count ⟨encReg f 0x74, 16, 8⟩
  else d

/-- 15 Table FBK-3: 500 consecutive samples inside the window. -/
def execAmpErrClear (f : Fin 4) (s : State) : Host.Outcome State Fault Refusal := runCore s fun d =>
  if 500 ≤ (d.enc f).ampIn then d.lower (encAmpErr f) else d

/-- 15 R441, Table FBK-3: in the sine/cosine modes after 4 samples below 10 %; in the incremental modes when a
receiver input has been below its threshold for 1 µs (400 counts); `elapsed` tells for how many counts. -/
def execCableFlt (f : Fin 4) (elapsed : Nat) (s : State) : Host.Outcome State Fault Refusal := runCore s fun d =>
  let m := d.f (encMode f)
  if ((incMode m && 400 ≤ elapsed) || (sinMode m && 4 ≤ (d.enc f).ampLow)) && !d.flag (encCable f) then
    ((d.raise (encCable f)).count ⟨encReg f 0x74, 24, 8⟩).lower (encRefOk f)
  else d

/-- Modes with SSI frames. -/
def ssiMode (m : Nat) : Bool := m = 3 || m = 4 || m = 5

/-- 15 R442, R444: a frame starts SSI_LEAD counts before the edge of each tick that SSI_DIV divides: `at_` counts after the current
edge. The clock gives one falling edge for the latch and one for each data, error and parity bit. -/
def execSsiFrameStart (f : Fin 4) (at_ : Nat) (s : State) : Host.Outcome State Fault Refusal := runCore s fun d =>
  let span := at_ + d.f ⟨encReg f 0x5C, 8, 16⟩
  let tick := d.tide.k + span / d.tc
  if ssiMode (d.f (encMode f)) && span % d.tc = 0 && tick % (d.f ⟨encReg f 0x5C, 0, 8⟩ + 1) = 0 then
    let w := d.rd (encReg f 0x58)
    (d.modEnc f fun u => { u with ssi := some ⟨u.acc, u.pos, tick⟩ }).emit
      (.ssiClock f (1 + fget w 0 6 + fget w 7 1 + fget w 8 1) (fget w 16 7))
  else d

/-- Gray code to binary over `n` bits (15 R442). -/
def grayBits : Nat → Nat → Bool → Nat → Nat
  | 0, _, _, r => r
  | i + 1, g, prev, r => let b := g.testBit i != prev; grayBits i g b (2 * r + b2n b)

/-- 15 R446: an invalid or rejected frame. -/
def ssiBadFrame (f : Nat) (d : Dev) : Dev :=
  let d := d.modEnc f fun u => { u with ssi := none, ssiGood := 0, ssiBad := min (u.ssiBad + 1) 3 }
  (d.raise (encStat f 13)).count ⟨encReg f 0x70, 24, 8⟩

/-- REF_OK is set by SET or an SSI frame: the next index event records its count (15 R451). -/
def encReferenced (f : Nat) (d : Dev) : Dev :=
  (d.raise (encRefOk f)).modEnc f fun u => { u with pIdxNext := true }

/-- A rounding of num/den that the spec leaves open: the quotient below or above. -/
def openRound (num den : Nat) : Nat :=
  if den = 0 then 0 else if num % den = 0 then num / den else num / den + Config.speedRounding num den % 2

/-- A speed in 1/16 count per second: `n` counts in `t` counts of 2.5 ns (15 R453: saturated). -/
def speedOf (n : Int) (t : Nat) : Int :=
  let m := min (openRound (n.natAbs * 16 * 400000000) t) (2 ^ 31 - 1)
  if n < 0 then -m else m

/-- 15 R445 to R447: the value of a valid frame is taken: the first one sets the position, a later one adds its change in SSI mode
or serves as a comparison in the hybrid modes. A load waits while SSI_FLT stands, since REF_OK stays clear until FLT_CLR (R446). -/
def ssiTake (f : Nat) (x : SsiDue) (d : Dev) : Dev :=
  let m := d.f (encMode f)
  let u := d.enc f
  let nb := d.f ⟨encReg f 0x58, 0, 6⟩
  let v : Int := if d.flag ⟨encReg f 0x58, 6, 1⟩ then grayBits nb x.raw false 0 else x.raw
  let ofs := signed 32 (d.rd (encReg f 0x64)).toNat
  let tol : Int := d.f ⟨encReg f 0x68, 0, 24⟩
  let good (d : Dev) : Dev :=
    (d.wr (encReg f 0x60) (BitVec.ofNat 32 v.toNat)).modEnc f fun u =>
      { u with ssiPrev := some v, ssiGood := min (u.ssiGood + 1) 2, ssiBad := 0 }
  let sh : Int := if m = 3 then 1 else 2 ^ d.f ⟨encReg f 0x5C, 24, 4⟩
  let load := u.ssiLoad || u.ssiPrev.isNone
  let ch := signed nb (unsigned nb (v - u.ssiPrev.getD v))
  if load && d.flag (encSsiFlt f) then (good d).modEnc f fun u => { u with ssiLoad := true }
  else if load then
    let target := v * sh + ofs + (if m = 3 then 0 else u.acc - x.start.acc)
    let d := (good d).modEnc f fun u => { u with pos := signed 32 (unsigned 32 target), ssiUnwrap := v, ssiLoad := false, ssiSpeed := 0 }
    (encReferenced f d).lower (encRefPend f)
  else if m = 3 && decide (tol < ch.natAbs) then ssiBadFrame f d
  else
    let d := (good d).modEnc f fun u => { u with ssiUnwrap := u.ssiUnwrap + ch }
    if m = 3 then
      let d := d.modEnc f fun u => { u with ssiSpeed := speedOf ch ((d.f ⟨encReg f 0x5C, 0, 8⟩ + 1) * d.tc) }
      encCount f ch (encChange f ch d.tide.abs d)
    else
      let diff := x.start.pos - ((u.ssiUnwrap + ch) * sh + ofs)
      whenDo (tol < diff.natAbs) (fun d => (d.raise (encStat f 15)).lower (encRefOk f)) d

/-- 15 R444: the valid frames whose tick edge has come, in order. -/
def ssiPresent (f : Nat) (d : Dev) : Dev :=
  let now := fun (x : SsiDue) => decide (x.start.tick ≤ d.tide.k)
  let due := (d.enc f).ssiDue.filter now
  due.foldl (fun d x => ssiTake f x d) (d.modEnc f fun u => { u with ssiDue := u.ssiDue.filter fun x => !now x })

/-- 15 R443, R444: an SSI frame ends: DAT before the first clock and after its first falling edge, the data as received, the error
and parity bits, DAT by the end of t_m. The parity is that of data, error and parity bits together (DEDUCED). A valid frame's value is
presented from the edge of its tick on, a frame that ends after that edge at once. -/
def execSsiFrameEnd (f : Fin 4) (before low : Bool) (data : BitVec 32) (errBit parBit high : Bool) (s : State) :
    Host.Outcome State Fault Refusal := runCore s fun d =>
  match (d.enc f).ssi with
  | none => d
  | some st =>
    if !ssiMode (d.f (encMode f)) then d
    else
      let nb := d.f ⟨encReg f 0x58, 0, 6⟩
      let raw := data.toNat % 2 ^ nb
      let err := d.flag ⟨encReg f 0x58, 7, 1⟩
      let odd := (popCount nb raw + (if err then b2n errBit else 0) + b2n parBit) % 2 = 1
      if before && low && !(err && errBit) && !(d.flag ⟨encReg f 0x58, 8, 1⟩ && odd) && high then
        ssiPresent f (d.modEnc f fun u => { u with ssi := none, ssiDue := u.ssiDue ++ [⟨st, raw⟩] })
      else ssiBadFrame f d

/-- 15 R446: three consecutive invalid or rejected frames. -/
def execSsiFlt (f : Fin 4) (s : State) : Host.Outcome State Fault Refusal := runCore s fun d =>
  if 3 ≤ (d.enc f).ssiBad then (d.raise (encSsiFlt f)).lower (encRefOk f) else d

/-- 15 R449: SET. -/
def encSet (f : Nat) (d : Dev) : Dev :=
  let d := d.modEnc f fun u => { u with pos := signed 32 (d.rd (encReg f 0x10)).toNat, corr := none }
  encReferenced f (d.raise (encStat f 9))

/-- 15 R449. -/
def execSet (f : Fin 4) (s : State) : Host.Outcome State Fault Refusal := runCore s (encSet f)

/-- 15 R451, R447, R445: REF_ARM. In the modes with frames the next valid frame loads the position. -/
def encRefArm (f : Nat) (d : Dev) : Dev :=
  let m := d.f (encMode f)
  (d.raise (encRefPend f)).modEnc f fun u => { u with ssiLoad := u.ssiLoad || ssiMode m }

/-- 15 R451. -/
def execRefArm (f : Fin 4) (s : State) : Host.Outcome State Fault Refusal := runCore s (encRefArm f)

/-- 15 Table FBK-9: FLT_CLR clears CABLE_FLT and SSI_FLT whose cause is absent; in SSI mode the next frame loads anew (R445).
SSI_FLT's cause, the three frames, has passed when it is latched (DEDUCED). -/
def encFltClr (f : Nat) (cablePresent : Bool) (d : Dev) : Dev :=
  let u := d.enc f
  let m := d.f (encMode f)
  let d := whenDo (!cablePresent && !(sinMode m && u.ampLow != 0)) (fun d => d.lower (encCable f)) d
  whenDo (d.flag (encSsiFlt f) || m = 3) (fun d =>
    (d.lower (encSsiFlt f)).modEnc f fun u => { u with ssiBad := 0, ssiLoad := u.ssiLoad || m = 3 }) d

/-- 15 R441, R446: `cablePresent` tells whether a receiver input still lies below its threshold. -/
def execEncFltClr (f : Fin 4) (cablePresent : Bool) (s : State) : Host.Outcome State Fault Refusal := runCore s (encFltClr f cablePresent)

/-- 15 R457: no position change for the standstill time, at `at_` counts after the edge. The speed is 0 from the next latch on, while
SPD_VALID is 1 (R453). -/
def execStandstill (f : Fin 4) (at_ : Nat) (s : State) : Host.Outcome State Fault Refusal := runCore s fun d =>
  let u := d.enc f
  match u.lastT with
  | none => d
  | some t =>
    if d.flag (encStill f) || d.now at_ < t + 400000 * d.f ⟨encReg f 0x34, 0, 10⟩ then d
    else ((d.setEnc f { u with lastT := none, period := none, ssiSpeed := 0 }).raise (encStill f)).setF (encMethod f) 0

/-- 15 R454: the period method's speed at instant `now`. -/
def periodSpeed (u : EncU) (down : Bool) (now : Nat) : Int :=
  match u.period with
  | none => 0
  | some (n, t1, t2) =>
    let v := min (speedOf n (t2 - t1)) (if t2 < now then speedOf n (now - t2) else 2 ^ 31 - 1)
    if down then -v else v

/-- 15 R455: the count method's speed: the change of the accumulator over the last `w` ticks. -/
def countSpeed (u : EncU) (w tc : Nat) : Int := speedOf (u.acc - u.hist.getD (w - 1) u.acc) (w * tc)

/-- 15 R461, Table FBK-4: the eight port inputs of interface `f`, of the values just latched. p_I is 0 until an index has recorded
one (DESIGN CHOICE). -/
def encInputs (f : Nat) (d : Dev) : List Int :=
  let u := d.enc f
  let pos := signed 32 (d.rd (encReg f 8)).toNat
  let sp := d.f ⟨encReg f 0x40, 0, 27⟩
  let cpr : Int := d.f ⟨encReg f 0x1C, 0, 31⟩
  let speed : Int := if sp = 0 then 0 else satS 16 ((2 * u.speed * 32768 + 16 * sp) / (2 * (16 * sp)))
  let angle : Int := if cpr = 0 || !d.flag (encRefOk f) then 0
    else signed 16 ((((pos - u.pIdx.getD 0) % cpr) * 65536 / cpr).toNat % 65536)
  [signed 16 (unsigned 16 pos), signed 16 (unsigned 16 (pos / 65536)), speed,
   signed 16 ((encStatWord f d).toNat % 65536), angle,
   if sinMode (d.f (encMode f)) then d.f ⟨encReg f 0x54, 0, 16⟩ else 0, u.edges, u.idle]

/-- 15 R453 to R458, R461: the latch of interface `f` at a tick edge, instant `now`. -/
def encLatch (f : Nat) (d : Dev) : Dev :=
  let d := ssiPresent f d
  let m := d.f (encMode f)
  let u := d.enc f
  let now := d.tide.abs
  let w := d.f ⟨encReg f 0x34, 10, 10⟩
  let co := 16 * d.f ⟨encReg f 0x38, 0, 26⟩
  let hys := 16 * d.f ⟨encReg f 0x3C, 0, 26⟩
  let still := d.flag (encStill f) || u.lastT.isNone
  let ps := if still then 0 else periodSpeed u (d.flag (encDir f)) now
  let cs := countSpeed u w d.tc
  let counting := d.flag (encMethod f)
  let toCount := !counting && decide (co + hys < ps.natAbs) && decide (w ≤ u.sinceRev) && decide (w ≤ u.hist.length)
  let method := if m = 3 then true else if counting then !decide (cs.natAbs < co) else toCount
  let v := if m = 3 then (if still then 0 else u.ssiSpeed) else if method then cs else ps
  let v := if encValid f d then v else u.speed
  let d := d.setEnc f { u with speed := v, hist := (u.acc :: u.hist).take 1000, sinceRev := min (u.sinceRev + 1) 1000,
                               idle := min (u.idle + 1) 32767 }
  let d := d.setF (encMethod f) (b2n (m != 0 && method))
  let d := d.setF ⟨encReg f 0x6C, 24, 8⟩ (min (d.f ⟨encReg f 0x6C, 24, 8⟩ + 1) 255)
  let d := (d.wr (encReg f 8) (BitVec.ofNat 32 (unsigned 32 u.pos))).wr (encReg f 0x30) (BitVec.ofNat 32 (unsigned 32 v))
  d.modEnc f fun u => { u with latched := encInputs f d, edges := 0 }

/-- 15 R435: every motor port whose FB_SEL names the interface is OFF. -/
def encIdle (f : Nat) (d : Dev) : Bool :=
  (List.range 4).all fun p => d.f ⟨primAddr .mpo p 0, 12, 2⟩ != f || d.f ⟨primAddr .mpo p 4, 0, 3⟩ = 0

/-- 13 Table SAF-9: byte `i` of port `p`'s entry in the set-up in force. -/
def spbPort (d : Dev) (p i n : Nat) : Nat := leAt d.saf.spb (116 + 16 * p + i) n

/-- 15 R435: a MODE write that the safety set-up forbids. -/
def encModeLocked (f m : Nat) (d : Dev) : Bool :=
  !d.saf.spb.isEmpty && (List.range 4).any fun p =>
    spbPort d p 1 1 = f &&
      (((m = 0 || m = 3) && d.flag ⟨primAddr .saf 0 (0x20 + 4 * p), 8, 1⟩) ||
       (d.mode != 2 && (spbPort d p 0 1).testBit 0))

/-- 15 R434, R435: MODE. An accepted write clears REF_OK and the speed history and starts in standstill; SPD_VALID is 1 at once, in
SSI mode too (R459). -/
def encModeWrite (f m : Nat) (d : Dev) : Word × Dev :=
  if 5 < m || !encIdle f d || encModeLocked f m d then (refusedCode, d.raise (encCfgRej f))
  else
    let d := d.setF (encMode f) m
    let d := d.modEnc f fun u =>
      { u with phi := none, qerrHold := false, cleanRun := 0, lastT := none, broken := false, period := none, sinceRev := 0, hist := [], speed := 0,
               ssiSpeed := 0, ssi := none, ssiDue := [], ssiPrev := none, ssiLoad := true, ssiGood := 2, ssiBad := 0, corr := none,
               ampOut := 0, ampIn := 0, ampLow := 0 }
    (0, ((d.lower (encRefOk f)).raise (encStill f)).setF (encMethod f) 0)

/-- 15 R434, R435. -/
def execEncModeWrite (f : Fin 4) (m : Fin 8) (s : State) : Host.Outcome State Fault Refusal := runCore s fun d => (encModeWrite f m d).2

/-- A value within bounds. -/
def within (lo v hi : Nat) : Bool := lo ≤ v && v ≤ hi

/-- Do `n` clocks more than the data, error and parity bits of an SSI frame, whose set-up is `w`, last less than, or, `orEqual`, at most,
`t` counts of 2.5 ns (15 R442)? -/
def ssiFits (n : Nat) (w : Word) (orEqual : Bool) (t : Nat) : Bool :=
  (n + fget w 0 6 + fget w 7 1 + fget w 8 1) * 4000 < t * fget w 16 7 + b2n orEqual

/-- 15 R444, R448, R464: is the word legal for the register at offset `off`? -/
def encLegal (f off : Nat) (v : Word) (d : Dev) : Bool :=
  let ssiOk (a b : Word) : Bool :=
    ssiFits 0 a false (fget b 8 16) && 400 * fget a 24 7 ≤ (fget b 0 8 + 1) * d.tc &&
      ssiFits 1 a true ((fget b 0 8 + 1) * d.tc - 400 * fget a 24 7)
  match off with
  | 0x14 => decide (v.toInt ≤ (d.rd (encReg f 0x18)).toInt)
  | 0x18 => decide ((d.rd (encReg f 0x14)).toInt ≤ v.toInt)
  | 0x1C => fget v 0 31 = 0 || 4 ≤ fget v 0 31
  | 0x34 => within 1 (fget v 0 10) 1000 && within 1 (fget v 10 10) 1000
  | 0x38 => within 1000 (fget v 0 26) 50000000 && d.f ⟨encReg f 0x3C, 0, 26⟩ ≤ fget v 0 26
  | 0x3C => fget v 0 26 ≤ d.f ⟨encReg f 0x38, 0, 26⟩
  | 0x40 => within 1 (fget v 0 27) 134217727
  | 0x50 => within 20 (fget v 0 8) 90 && within 110 (fget v 8 8) 200 && fget v 16 4 ≤ 10
  | 0x58 => within 8 (fget v 0 6) 32 && within 1 (fget v 16 7) 100 && within 1 (fget v 24 7) 100 && ssiOk v (d.rd (encReg f 0x5C))
  | 0x5C => ssiOk (d.rd (encReg f 0x58)) v
  | _ => true

/-- 15 R435, R464: a write to a register of the interface, with its command bits. ENC_POS_SET, the value of SET, may be written
in every port state as SET may (DEDUCED). Whether a receiver input still lies below its threshold when FLT_CLR is written is drawn. -/
def encWrite (f off : Nat) (v : Word) (d : Dev) : Word × Dev :=
  match off with
  | 0 =>
    let old := d.rd (encReg f 0)
    let (r, d) : Word × Dev :=
      if fget v 0 4 = fget old 0 4 then (0, d)
      else if fget v 0 3 = fget old 0 3 then
        if encIdle f d then (0, d.setF ⟨encReg f 0, 3, 1⟩ (fget v 3 1)) else (refusedCode, d.raise (encCfgRej f))
      else
        let x := encModeWrite f (fget v 0 3) d
        if x.1 = 0 then (0, x.2.setF ⟨encReg f 0, 3, 1⟩ (fget v 3 1)) else x
    let d := whenDo (v.getLsbD 4) (encRefArm f) d
    let d := whenDo (v.getLsbD 5) (encSet f) d
    (r, whenDo (v.getLsbD 6) (fun d => let (p, d) := d.draw 2; encFltClr f (incMode (d.f (encMode f)) && p != 0) d) d)
  | 4 => (0, d.store (encReg f 4) v)
  | 0x10 => (0, d.store (encReg f 0x10) v)
  | _ =>
    if !encIdle f d || !encLegal f off v d then (refusedCode, d.raise (encCfgRej f))
    else (0, d.store (encReg f off) v)

end Sys2Proof.Machine
end

