-- ==== Sys2Proof/Machine/MotorPorts.lean ====
section
/-! DEFINITION. The motor ports (14): states, inputs, the modulator, latch events and reload points, bootstrap refresh, the
delay lines, settings. Instants are counts on the tick-number time line (05 R133), or 1/32 counts where transitions are kept. -/
namespace Sys2Proof.Machine

def mpoReg (p off : Nat) : Nat := primAddr .mpo p off
def mpoState (p : Nat) : Fld := ⟨mpoReg p 4, 0, 3⟩
def mpoSto (p : Nat) : Fld := ⟨mpoReg p 4, 3, 1⟩
def mpoCause (p : Nat) : Fld := ⟨mpoReg p 4, 4, 4⟩
def mpoStat (p i : Nat) : Fld := ⟨mpoReg p 4, i, 1⟩
def mpoFltLvl (p : Nat) : Fld := mpoStat p 12
def mpoEn (p : Nat) : Fld := ⟨mpoReg p 0, 0, 1⟩
def mpoPer (p : Nat) : Fld := ⟨mpoReg p 8, 0, 20⟩
def mpoTheta (p : Nat) : Fld := ⟨mpoReg p 0xC, 0, 20⟩
def mpoTd (p : Nat) : Fld := ⟨mpoReg p 0x10, 0, 12⟩
def mpoTmin (p : Nat) : Fld := ⟨mpoReg p 0x10, 16, 12⟩
def mpoBsMax (p : Nat) : Fld := ⟨mpoReg p 0x14, 0, 8⟩
def mpoTref (p : Nat) : Fld := ⟨mpoReg p 0x14, 8, 10⟩
def mpoAngle (p : Nat) : Fld := ⟨mpoReg p 0x3C, 0, 32⟩

def Dev.port (d : Dev) (p : Nat) : PortU := tget (fun _ => {}) d.ports p
def Dev.setPort (d : Dev) (p : Nat) (u : PortU) : Dev := { d with ports := tput (fun _ => {}) d.ports p u }
def Dev.modPort (d : Dev) (p : Nat) (f : PortU → PortU) : Dev := d.setPort p (f (d.port p))

/-- The isle that the running plan gives the port (03 R77). -/
def portIsle (p : Nat) (d : Dev) : Option Nat := (d.isles.find? fun e => e.2.entry.role = 3 && e.2.entry.port = p).map (·.1)

/-- The run request: the value handed last to slot 3 of the port isle (14 R408). -/
def portRun (p : Nat) (d : Dev) : Bool :=
  match portIsle p d with
  | none => false
  | some n =>
    let u := d.isle n
    match tget (fun _ => []) u.ef.handed 3 with
    | (_, v) :: _ => v != 0
    | [] => (liveBank u).ef.init.getD 3 0 != 0

/-- All gates of the port go off; what the phases counted is dropped. -/
def portGatesOff (p : Nat) (d : Dev) : Dev :=
  let d := d.modPort p fun u => { u with phases := [], cur := none }
  forUpTo 3 (fun x d => d.lower (mpoStat p (8 + x))) d

/-- 14 Table MPO-2: OFF. -/
def portOff (p : Nat) (d : Dev) : Dev :=
  ((portGatesOff p d).modPort p fun u => { u with ready := false, bscDone := false }).setF (mpoState p) 0

/-- 14 Table MPO-3: a fault cause in ARMED, CHARGE or RUN takes the port to FAULT. -/
def portFault (p cause : Nat) (d : Dev) : Dev :=
  let st := d.f (mpoState p)
  if st = 1 || st = 2 || st = 3 then
    let d := (portGatesOff p d).modPort p fun u => { u with ready := false, bscDone := false, toggle := 0, togEnded := false }
    ((d.setF (mpoState p) 4).setF (mpoCause p) cause).raise (mpoStat p 23)
  else d

/-- 04 R625, 14 Table MPO-4: ISLE_FAULT. -/
def portIsleFault (p : Nat) (d : Dev) : Dev := portFault p 8 d

/-- 14 Table MPO-3: ARMED to CHARGE, with the lower gates on, once ready and with the run request. -/
def portCharge (p : Nat) (d : Dev) : Dev :=
  if d.f (mpoState p) = 1 && (d.port p).ready && portRun p d && d.flag ⟨mpoReg p 0, 5, 1⟩ then
    (d.modPort p fun u =>
      { u with bscDone := false, phases := forUpTo 3 (fun x t => tput (fun _ => {}) t x { pins := { lo := true } }) u.phases }).setF (mpoState p) 2
  else d

/-- The pin level of the fault input is its active level (14 Table MPO-9, FLT_POL). -/
def fltActive (p : Nat) (lvl : Bool) (d : Dev) : Bool := lvl == d.flag ⟨mpoReg p 0x1C, 16, 1⟩
/-- An enabled trip input stands at its active level. -/
def tripActive (p i : Nat) (d : Dev) : Bool :=
  d.flag ⟨mpoReg p 0x18, 13 + 16 * i, 1⟩ && d.flag (mpoStat p (13 + i)) == d.flag ⟨mpoReg p 0x18, 12 + 16 * i, 1⟩

/-- 14 Table MPO-3, R426, R427: entry into ARMED. The enable pin is high, so the fault input is evaluated; a trip that still
stands faults the port again. -/
def portArm (p : Nat) (d : Dev) : Dev :=
  let d := (portGatesOff p d).setF (mpoState p) 1
  let d := d.modPort p fun u => { u with ready := !fltActive p (d.flag (mpoFltLvl p)) d, bscDone := false }
  if tripActive p 0 d then portFault p 1 d
  else if tripActive p 1 d then portFault p 2 d
  else portCharge p d

/-- 14 Table MPO-3: the transitions that follow from the enable, the device mode, safe torque off, the port isle and the run
request, taken in the cycle of their cause. A port that was OFF while T changed is enabled with the period it holds: 02 R52 checks it as it is written,
and no rule checks it again (DESIGN CHOICE, log 95). -/
def portEval (p : Nat) (d : Dev) : Dev :=
  let st := d.f (mpoState p)
  let may := d.flag (mpoEn p) && d.mode = 4 && !d.flag (mpoSto p)
  if st = 4 then d
  else if !may then (if st = 0 then d else portOff p d)
  else if st = 0 then
    match portIsle p d with
    | some n => if (d.isle n).istate = 0 then d else portArm p d
    | none => d
  else if st = 1 then portCharge p d
  else if portRun p d then d else portArm p d

/-- 14 R427: the enable toggle is complete. A cause that a commit must lift stands while the isle is stopped (R429). -/
def portToggled (p : Nat) (d : Dev) : Dev :=
  let stuck := (d.f (mpoCause p) = 6 || d.f (mpoCause p) = 7) &&
    (match portIsle p d with | some n => decide ((d.isle n).istate = 0) | none => true)
  if stuck then d
  else
    let d := (d.modPort p fun u => { u with toggle := 0, togEnded := false }).setF (mpoCause p) 0
    let d := d.count ⟨mpoReg p 0x48, 24, 8⟩
    portEval p (portArm p d)

/-- 14 R408, R427: a write of EN_REQ. -/
def portEnWrite (p : Nat) (en : Bool) (d : Dev) : Dev :=
  let d := d.setF (mpoEn p) (b2n en)
  if d.f (mpoState p) = 4 then
    let u := d.port p
    if !en then d.modPort p fun u => { u with toggle := 1, togEnded := false }
    else if u.toggle = 1 then
      let d := d.modPort p fun u => { u with toggle := 2 }
      if u.togEnded then portToggled p d else d
    else d
  else portEval p d

/-- 14 R408, R427. -/
def execEnReqWrite (p : Fin 4) (en : Bool) (s : State) : Host.Outcome State Fault Refusal := runCore s (portEnWrite p en)

/-- 14 R427: `elapsed`, in 0.1 ms, since EN_REQ went 0. -/
def execToggleComplete (p : Fin 4) (elapsed : Nat) (s : State) : Host.Outcome State Fault Refusal := runCore s fun d =>
  let u := d.port p
  if u.toggle = 0 || d.f (mpoState p) != 4 || elapsed < d.f ⟨mpoReg p 0x20, 10, 10⟩ then d
  else
    let d := d.modPort p fun u => { u with togEnded := true }
    if u.toggle = 2 then portToggled p d else d

/-- 02 R52: the ratio rule for a period of `p` counts under T_c. -/
def ratioOk (tc p : Nat) : Bool :=
  p != 0 && (List.range 16).any fun i => p = (i + 1) * tc || (i + 1) * p = tc

/-- 14 R409, R432: is the word legal for the register at `off`? -/
def mpoLegal (p off : Nat) (v : Word) (d : Dev) : Bool :=
  match off with
  | 0 => fget v 6 2 != 0
  | 8 =>
    let n := fget v 0 20
    n % 2 = 0 && ratioOk d.tc n && 4 * (d.f (mpoTd p) + d.f (mpoTmin p)) ≤ n && d.f (mpoTheta p) < n
  | 0xC => fget v 0 20 < d.f (mpoPer p)
  | 0x10 => within 20 (fget v 0 12) 4000 && fget v 16 12 ≤ 4000 && 4 * (fget v 0 12 + fget v 16 12) ≤ d.f (mpoPer p) &&
      fget v 16 12 ≤ d.f (mpoTref p)
  | 0x14 => 1 ≤ fget v 0 8 && within 40 (fget v 8 10) 800 && fget v 18 10 ≤ 1000 && d.f (mpoTmin p) ≤ fget v 8 10
  | 0x18 => fget v 0 12 ≤ 4000 && fget v 16 12 ≤ 4000
  | 0x1C => fget v 0 16 ≤ 40000
  | 0x20 => within 1 (fget v 0 10) 1000 && within 1 (fget v 10 10) 1000
  | 0x24 => 1 ≤ fget v 0 16
  | 0x28 => fget v 0 15 ≤ d.tc / 2
  | _ => true

/-- 14 R409: a write to a register of the port. EN_REQ and MPO_HCMD_p are written in any state. -/
def mpoWrite (p off : Nat) (v : Word) (d : Dev) : Word × Dev :=
  if off = 0x2C || off = 4 then (0, d.store (mpoReg p off) v)
  else
    let en := v.getLsbD 0
    let same := off = 0 && fset v 0 1 0 = fset (d.rd (mpoReg p 0)) 0 1 0
    let legal := d.f (mpoState p) = 0 && mpoLegal p off v d
    let keep := d.f (mpoEn p)
    let (r, d) : Word × Dev :=
      if same then (0, d)
      else if legal then (0, (d.store (mpoReg p off) (if off = 0 then fset v 0 1 keep else v)))
      else (refusedCode, d.raise (mpoStat p 22))
    (r, if off = 0 && en != d.flag (mpoEn p) then portEnWrite p en d else d)

/-- 14 R409: a write of `v` to the setting at register offset `off`. -/
def execPortSettingWrite (p : Fin 4) (off : Fin 76) (v : Word) (s : State) : Host.Outcome State Fault Refusal := runCore s fun d =>
  if off.val = 0 then (mpoWrite p 0 (fset v 0 1 (d.f (mpoEn p))) d).2
  else if (regDefAt ⟨.mpo, p, off⟩).isSome then (mpoWrite p off v d).2 else d

/-- 14 R425: a trip input is accepted at level `lvl`. -/
def execTripAccept (p : Fin 4) (i : Fin 2) (lvl : Bool) (s : State) : Host.Outcome State Fault Refusal := runCore s fun d =>
  let d := d.setF (mpoStat p (13 + i)) (b2n lvl)
  if tripActive p i d then portFault p (1 + i) (d.count ⟨mpoReg p 0x48, 8 * i, 8⟩) else d

/-- 14 R422: the cause of an active fault input at instant `t`. -/
def fltCause (p : Nat) (t : Int) (d : Dev) : Nat :=
  match (d.port p).lastRefresh with
  | some v => if d.f (mpoState p) = 3 && t ≤ v + 2 * d.f (mpoBsMax p) * d.f (mpoPer p) then 4 else 3
  | none => 3

/-- 14 R422, R426: the fault input is accepted at level `lvl`, `at_` counts after the edge. -/
def execFaultInputAccept (p : Fin 4) (lvl : Bool) (at_ : Nat) (s : State) : Host.Outcome State Fault Refusal := runCore s fun d =>
  let d := d.setF (mpoFltLvl p) (b2n lvl)
  let st := d.f (mpoState p)
  let en := st = 1 || st = 2 || st = 3
  if fltActive p lvl d then
    let d := d.count ⟨mpoReg p 0x48, 16, 8⟩
    if en && (d.port p).ready then portFault p (fltCause p (d.tide.k * d.tc + at_) d) d else d
  else if en then portCharge p (d.modPort p fun u => { u with ready := true })
  else d

/-- 14 R426: `elapsed`, in 0.1 ms, since the entry into ARMED. -/
def execReadyTimeout (p : Fin 4) (elapsed : Nat) (s : State) : Host.Outcome State Fault Refusal := runCore s fun d =>
  if d.f (mpoState p) = 1 && !(d.port p).ready && d.f ⟨mpoReg p 0x20, 0, 10⟩ ≤ elapsed then portFault p 5 d else d

/-- 14 Table MPO-3: `elapsed`, in 10 µs, in CHARGE; the port enters RUN at the next reload point. -/
def execTBscExpiry (p : Fin 4) (elapsed : Nat) (s : State) : Host.Outcome State Fault Refusal := runCore s fun d =>
  if d.f (mpoState p) = 2 && d.f ⟨mpoReg p 0x14, 18, 10⟩ ≤ elapsed then d.modPort p fun u => { u with bscDone := true } else d

/-! ### The modulator -/

/-- sin(π/2 · x/2^30) at Q40 for x up to 2^30, by its series. -/
def sinQuarter (x : Int) : Int :=
  let y := x * 1727108826179 / 2 ^ 30
  let y2 := y * y / 2 ^ 40
  let step (t : Int) (n : Int) : Int := -(t * y2 / 2 ^ 40) / n
  let t3 := step y 6
  let t5 := step t3 20
  let t7 := step t5 42
  let t9 := step t7 72
  let t11 := step t9 110
  y + t3 + t5 + t7 + t9 + t11

/-- The sine at Q15 of an angle of 32 bits, read from the port's table: within ±2 LSB of the exact value (14 R414). -/
def sineAt (a : Nat) : Int :=
  let q := a % 2 ^ 32 / 2 ^ 30
  let r := a % 2 ^ 30
  let v := sinQuarter (Int.ofNat (if q % 2 = 0 then r else 2 ^ 30 - r))
  let v := (v + 2 ^ 24) / 2 ^ 25
  (if q < 2 then v else -v) + max (-2) (min (Config.sineDeviation a) 2)

/-- 14 R414 step 1: the advance of the angle over `dist` counts. -/
def angleStep (f : Int) (fbase dist : Nat) : Int := (2 * f * fbase * dist * 2 ^ 15 + 10 ^ 10) / (2 * 10 ^ 10)

/-- 14 R414 steps 2 to 4: the three references. The spec gives no rounding to r_x and to half of max + min: half up and down (DESIGN CHOICE, log 94). -/
def vectorRefs (m : Int) (inj : Bool) (theta : Nat) : List Int :=
  let m := max m 0
  let g : Int := if inj then 37837 else 32768
  let r := (List.range 3).map fun x => (m * g * sineAt (theta + 2 ^ 33 - x * 2 ^ 32 / 3) + 2 ^ 29) / 2 ^ 30
  let r0 := r.getD 0 0
  let r1 := r.getD 1 0
  let r2 := r.getD 2 0
  let c := if inj then (max (max r0 r1) r2 + min (min r0 r1) r2) / 2 else 0
  r.map fun v => satS 16 (v - c)

/-- 14 R411: N, the carrier periods from one with reload points to the next. -/
def portN (p : Nat) (d : Dev) : Int := d.f ⟨mpoReg p 0, 8, 4⟩ + 1

/-- 14 R411: is instant `r` a reload point? -/
def isReload (p : Nat) (r : Int) (d : Dev) : Bool :=
  let per : Int := max (d.f (mpoPer p)) 2
  let sel := d.f ⟨mpoReg p 0, 6, 2⟩
  let on (x : Int) : Bool := x % per = 0 && x / per % portN p d = 0
  (sel.testBit 0 && on (r - d.f (mpoTheta p))) || (sel.testBit 1 && on (r - d.f (mpoTheta p) - per / 2))

/-- The first reload point after `r`. -/
def reloadAfter (p : Nat) (r : Int) (d : Dev) : Int :=
  let per : Int := max (d.f (mpoPer p)) 2
  let np := portN p d * per
  let sel := d.f ⟨mpoReg p 0, 6, 2⟩
  let nx (o : Int) : Int := o + ((r - o) / np + 1) * np
  let v := nx (d.f (mpoTheta p))
  let k := nx (d.f (mpoTheta p) + per / 2)
  if sel = 1 then v else if sel = 2 then k else min v k

/-- The last reload point before `r`. -/
def reloadBefore (p : Nat) (r : Int) (d : Dev) : Int :=
  let per : Int := max (d.f (mpoPer p)) 2
  let np := portN p d * per
  let sel := d.f ⟨mpoReg p 0, 6, 2⟩
  let pv (o : Int) : Int := o + (r - 1 - o) / np * np
  let v := pv (d.f (mpoTheta p))
  let k := pv (d.f (mpoTheta p) + per / 2)
  if sel = 1 then v else if sel = 2 then k else max v k

/-- The slot values of the port isle handed before instant `t` (14 R412). -/
def portSlots (n : Nat) (t : Int) (d : Dev) : List Int :=
  let u := d.isle n
  (List.range 4).map fun i => (newestBefore (tget (fun _ => []) u.ef.handed i) t).getD ((liveBank u).ef.init.getD i 0)

/-- 14 R412 to R414: the latch event `at_` counts after the edge, for the reload point 64 counts later. -/
def execLatchEvent (p : Fin 4) (at_ : Nat) (s : State) : Host.Outcome State Fault Refusal := runCore s fun d =>
  let t : Int := d.tide.k * d.tc + at_
  let r := t + 64
  match portIsle p d with
  | none => d
  | some n =>
    if !isReload p r d then d
    else
      let vals := portSlots n t d
      let vector := d.flag ⟨mpoReg p 0, 1, 1⟩
      let th := d.f (mpoAngle p)
      let dist := (r - reloadBefore p r d).toNat
      let th := if vector && d.f (mpoState p) = 3 then unsigned 32 (th + angleStep (vals.getD 1 0) (d.f ⟨mpoReg p 0x24, 0, 16⟩) dist) else th
      let refs := if vector then vectorRefs (vals.getD 0 0) (d.flag ⟨mpoReg p 0, 2, 1⟩) th else vals.take 3
      let fine := d.flag ⟨mpoReg p 0, 4, 1⟩
      let pd : PairDef := { mapping := 2, td := d.f (mpoTd p), tmin := d.f (mpoTmin p) }
      let per := d.f (mpoPer p)
      let l : Latch :=
        { r := r, reload := d.f ⟨mpoReg p 0, 6, 2⟩, theta := d.f (mpoTheta p), period := per, dither := d.flag ⟨mpoReg p 0, 3, 1⟩ && !fine,
          compat := fine, pairs := (List.range 3).map fun x => { num := x, pd := pd, u := mapped pd per fine (refs.getD x 0) } }
      let used := if vector then [0, 1, 3] else [0, 1, 2, 3]
      let late := (used.map fun i => (tget (fun _ => []) (d.isle n).ef.handed i).countP fun e => e.1 = t).sum
      let d := d.setF (mpoAngle p) th
      let d := d.modPort p fun u => { u with pend := some l, vals := vals }
      let d := forUpTo 3 (fun x d => d.setF ⟨mpoReg p (0x30 + 4 * x), 0, 24⟩ (platch l x).u) d
      whenDo (late != 0) (fun d => (d.raise (mpoStat p 16)).count ⟨mpoReg p 0x40, 0, 16⟩ late) d

/-! ### Pins -/

/-- An event of a phase's refresh count: 0 a valley, 1 the upper gate off, 2 the upper gate on. -/
def bsEvents (ph : PhaseU) (theta per : Int) (lim : Int) : List (Int × Nat) :=
  let cnt := ((lim - ph.seen) / (32 * per)).toNat + 2
  let n0 := (ph.seen / 32 - theta) / per
  let vs := (List.range cnt).map fun (i : Nat) => 32 * (theta + (n0 + i + 1) * per)
  let vs := (vs.filter fun v => ph.seen < v && v ≤ lim).map fun v => (v, 0)
  let rs := (ph.plan.filter fun r => !r.lower && ph.seen ≤ r.t && r.t < lim).map fun r => (r.t, if r.level then 2 else 1)
  let ins (l : List (Int × Nat)) (x : Int × Nat) : List (Int × Nat) :=
    l.filter (fun y => y.1 < x.1 || (y.1 = x.1 && y.2 ≤ x.2)) ++ [x] ++ l.filter (fun y => x.1 < y.1 || (x.1 = y.1 && x.2 < y.2))
  (vs ++ rs).foldl ins []

/-- 14 R420: the count of carrier periods without an upper off-interval of at least `need`, taken up to `lim`. -/
def bsAccount (theta per need lim : Int) (ph : PhaseU) : PhaseU :=
  let step (ph : PhaseU) (e : Int × Nat) : PhaseU :=
    let met := ph.met || (match ph.offAt with | some t => decide (t + need ≤ e.1) | none => false)
    match e.2 with
    | 0 => { ph with periods := if met then 0 else min (ph.periods + 1) 255, met := false }
    | 1 => { ph with met := met, offAt := some e.1 }
    | _ => { ph with met := met, offAt := none }
  { (bsEvents ph theta per lim).foldl step ph with seen := max ph.seen lim }

/-- 14 R421: an upper off-interval long enough, 1/32 counts. -/
def bsNeed (p : Nat) (d : Dev) : Int := 32 * (2 * d.f (mpoTd p) + d.f (mpoTref p))

/-- The levels the phase's pins reach at the end of its plan. -/
def pinsAfter (ph : PhaseU) : PairU :=
  ph.plan.foldl (fun (u : PairU) r =>
    if r.lower then { u with lo := r.level, loOff := if r.level then u.loOff else r.t }
    else { u with up := r.level, upOff := if r.level then u.upOff else r.t }) ph.pins

/-- 14 R416 to R418, R423: phase `x` from reload point `r` to the next, `e`. -/
def playPhase (p x : Nat) (l : Latch) (r e : Int) (d : Dev) : Dev :=
  let u := d.port p
  let ph := bsAccount l.theta l.period (bsNeed p d) (32 * r) (tget (fun _ => {}) u.phases x)
  let far := e + 3 * l.period
  let o := pairRun [⟨32 * r, 32 * far, { l with r := r }⟩] r (e - r) far e x false ph.pins
  let rs := o.units.flatMap (·.recs)
  let rs := if l.compat && d.flag (mpoStat p 11) then rs.map fun c => { c with t := (c.t + 16) / 32 * 32 } else rs
  let stop := ph.notchEnd.getD (32 * r)
  let rs := rs.filter fun c => stop ≤ c.t || 32 * e ≤ stop
  let ph := { ph with startUp := ph.pins.up, plan := rs, notchEnd := if 32 * e ≤ stop then ph.notchEnd else none }
  let fin := pinsAfter { ph with pins := { o.pu with up := ph.pins.up, lo := ph.pins.lo } }
  let ph := { ph with pins := if ph.notchEnd.isNone && stop ≤ 32 * r then o.pu else fin }
  let d := d.setPort p { u with phases := tput (fun _ => {}) u.phases x ph }
  let d := whenDo (o.drops != 0) (fun d => (d.raise (mpoStat p 17)).count ⟨mpoReg p 0x40, 16, 16⟩ o.drops) d
  let d := whenDo (o.keeps != 0) (fun d => d.count ⟨mpoReg p 0x44, 0, 8⟩ o.keeps) d
  let d := whenDo (o.shoots != 0) (fun d => (d.raise (mpoStat p (19 + x))).count ⟨mpoReg p 0x44, 16, 8⟩ o.shoots) d
  d.setF (mpoStat p (8 + x)) (b2n o.pu.blocked.isSome)

/-- 14 Table MPO-3: entry into RUN at reload point `r`. -/
def portEnterRun (p : Nat) (r : Int) (d : Dev) : Dev :=
  (d.modPort p fun u =>
    { u with phases := forUpTo 3 (fun x t => tmod (fun _ => {}) t x fun ph =>
        { ph with plan := [], startUp := false, periods := 0, met := false, offAt := some (32 * r), seen := 32 * r }) u.phases }).setF (mpoState p) 3

/-- 14 R411, R419, R423: reload point `at_` counts after the edge: a tap table measured comes into force; the latched
compares govern from here to the next reload point. -/
def execReloadPoint (p : Fin 4) (at_ : Nat) (s : State) : Host.Outcome State Fault Refusal := runCore s fun d =>
  let r : Int := d.tide.k * d.tc + at_
  if !isReload p r d then d
  else
    let d := d.modPort p fun u => { u with tap := u.tapPend.getD u.tap, tapPend := none }
    let u := d.port p
    let st := d.f (mpoState p)
    let d := if (st = 2 && u.bscDone) || (st = 1 && u.ready && portRun p d && !d.flag ⟨mpoReg p 0, 5, 1⟩) then portEnterRun p r d else d
    let l := match u.pend with
      | some l => if l.r = r then some l else u.cur
      | none => u.cur
    match l with
    | none => d
    | some l =>
      let d := d.modPort p fun u => { u with cur := some l, pend := none }
      if d.f (mpoState p) = 3 then forUpTo 3 (fun x d => playPhase p x l r (reloadAfter p r d) d) d else d

/-- 14 R420, R421: phase `x`'s count has reached BS_MAX at the valley `at_` counts after the edge: the notch is forced; commands
inside it are ignored; the count restarts. -/
def execBootstrapRefresh (p : Fin 4) (x : Fin 3) (at_ : Nat) (s : State) : Host.Outcome State Fault Refusal := runCore s fun d =>
  let v : Int := d.tide.k * d.tc + at_
  let u := d.port p
  let per : Int := max (d.f (mpoPer p)) 2
  let td : Int := 32 * d.f (mpoTd p)
  let need := bsNeed p d
  let ph := bsAccount (d.f (mpoTheta p)) per need (32 * v) (tget (fun _ => {}) u.phases x)
  if d.f (mpoState p) != 3 || !d.flag ⟨mpoReg p 0, 5, 1⟩ || (v - d.f (mpoTheta p)) % per != 0 || ph.periods < d.f (mpoBsMax p) then d
  else
    let w := 32 * v
    let e := w + need
    let before := ph.plan.filter fun r => r.t < w
    let on := ((before.filter fun r => !r.lower).getLast?.map (·.level)).getD ph.startUp
    let notch := (if on then [EfRec.mk 200000 w false false] else []) ++
      [⟨200000, w + td, true, true⟩, ⟨200000, w + need - td, true, false⟩, ⟨200000, e, false, true⟩]
    let ph := { ph with plan := before ++ notch ++ ph.plan.filter (fun (r : EfRec) => decide (e ≤ r.t)), notchEnd := some e, periods := 0, met := false }
    let ph := { ph with pins := pinsAfter ph }
    let d := d.setPort p { u with phases := tput (fun _ => {}) u.phases x ph, refreshed := true, lastRefresh := some v }
    (d.raise (mpoStat p 18)).count ⟨mpoReg p 0x44, 8, 8⟩

/-- 14 R419: the calibration engine has measured that 32 taps span `span` ps. -/
def execDelayLineCalibration (p : Fin 4) (span : Nat) (s : State) : Host.Outcome State Fault Refusal := runCore s fun d =>
  if span < 2500 then (d.raise (mpoStat p 11)).count ⟨mpoReg p 0x44, 24, 8⟩
  else (d.lower (mpoStat p 11)).modPort p fun u => { u with tapPend := some span }

/-- 14 R428, Table MPO-5: at WAKE_OFS the port writes its inputs and sets VALID in the mailbox slot of its isle. -/
def execPortWake (p : Fin 4) (s : State) : Host.Outcome State Fault Refusal := runCore s fun d =>
  match portIsle p d with
  | none => d
  | some n =>
    let u := d.port p
    let h := d.rd (mpoReg p 0x2C)
    let inputs := (d.enc (d.f ⟨mpoReg p 0, 12, 2⟩)).latched ++
      [if d.saf.a.ss1.testBit p then 32767 else 0, (d.f (mpoState p) : Int), if u.refreshed then 32767 else 0,
       signed 16 (d.f ⟨mpoReg p 0x3C, 16, 16⟩), u.vals.getD 0 0, u.vals.getD 1 0, signed 16 (fget h 0 16), signed 16 (fget h 16 16)]
    let d := d.setPort p { u with inputs := inputs, refreshed := false }
    let sl : Slot := { valid := true, tick := d.tide.k, smp := ⟨List.replicate 8 0, List.replicate 8 0, 0⟩,
                       stamp := d.f ⟨mpoReg p 0x28, 0, 15⟩ }
    d.modIsle n fun i => if d.tide.k % 2 = 0 then { i with slot0 := sl } else { i with slot1 := sl }

/-! ### A step of the tick line (02 R44) -/

/-- A pair's instants moved by `δ` counts. -/
def shiftPair (δ : Int) (u : PairU) : PairU :=
  { u with cur := u.cur.map fun c => (c.1, c.2 + 32 * δ), upOff := u.upOff + 32 * δ, loOff := u.loOff + 32 * δ, blocked := u.blocked.map (· + 32 * δ) }
/-- An edge former's. -/
def shiftEf (δ : Int) (u : EfU) : EfU :=
  let at_ {α : Type} (l : List (Int × α)) : List (Int × α) := l.map fun x => (x.1 + δ, x.2)
  { u with handed := u.handed.map fun e => (e.1, at_ e.2), ovrs := at_ u.ovrs, psc := at_ u.psc,
           last := u.last.map fun e => (e.1, { e.2 with r := e.2.r + δ, addT := e.2.addT + δ }), proc := u.proc.map fun e => (e.1, e.2 + δ),
           pairs := u.pairs.map fun e => (e.1, shiftPair δ e.2) }
/-- A motor port's. -/
def shiftPort (δ : Int) (u : PortU) : PortU :=
  { u with pend := (u.pend.map fun l => { l with r := l.r + δ }), cur := (u.cur.map fun l => { l with r := l.r + δ }),
           lastRefresh := (u.lastRefresh.map fun x => x + δ),
           phases := (u.phases.map fun e => (e.1,
             { e.2 with pins := shiftPair δ e.2.pins, plan := (e.2.plan.map fun c => { c with t := c.t + 32 * δ }),
                        notchEnd := (e.2.notchEnd.map fun x => x + 32 * δ), offAt := (e.2.offAt.map fun x => x + 32 * δ),
                        seen := e.2.seen + 32 * δ })) }

/-- 02 R44: when the label of the edge moves, by `δ` counts of the tick-number line, the carriers and what they have in hand move with it, so that
every carrier keeps its place relative to the edge. -/
def stepCarriers (δ : Int) (d : Dev) : Dev :=
  if δ = 0 then d
  else { d with isles := d.isles.map fun e => (e.1, { e.2 with ef := shiftEf δ e.2.ef }), ports := d.ports.map fun e => (e.1, shiftPort δ e.2) }

end Sys2Proof.Machine
end

