-- ==== Sys2Proof/Machine/Protect.lean ====
section
/-! DEFINITION. The safety functions as every block calls on them (13) and the halt matrix (09): the stop requests and STO
outputs of both class A channels, class A and class B faults, HALT decisions. -/
namespace Sys2Proof.Machine

def safReg (off : Nat) : Nat := primAddr .saf 0 off
def safA (i : Nat) : Fld := ⟨safReg 0xC, i, 1⟩
def safB (i : Nat) : Fld := ⟨safReg 0x10, i, 1⟩
def safPort (p lo w : Nat) : Fld := ⟨safReg (0x20 + 4 * p), lo, w⟩

/-- 13 Table SAF-8: byte `b` of input pair `i`'s entry; 0 without a checked bank (Table SAF-10). -/
def spbPair (d : Dev) (i b : Nat) : Nat := leAt d.saf.spb (84 + 4 * i + b) 1
/-- The function of pair `i` (Table SAF-2). -/
def pairFn (d : Dev) (i : Nat) : Nat := spbPair d i 0 % 8
/-- A pair of function `fn` whose mask names `p` is in demand in the channel. -/
def pairDemand (d : Dev) (c : SafCh) (fn p : Nat) : Bool :=
  (List.range 8).any fun i => pairFn d i = fn && c.demand.testBit i && (spbPair d i 1).testBit p

/-- 13 R375: CLASS_A_EN, SLS_EN, SS1_MODE, SLS_REACT, HOST_RESET of port `p` (Table SAF-9 byte 0). -/
def spbFlag (d : Dev) (p b : Nat) : Bool := (spbPort d p 0 1).testBit b

/-- 13 R386: SLS is in force on the port in the channel. -/
def slsOn (d : Dev) (c : SafCh) (p : Nat) : Bool := spbFlag d p 1 || pairDemand d c 3 p

/-- 13 R386: a violation that one channel finds stands in both. -/
def slsViolated (d : Dev) (p : Nat) : Bool := d.saf.a.viol.testBit p || d.saf.b.viol.testBit p

/-- 13 Table SAF-3: is SS1 asked for on the port? -/
def ss1Asked (d : Dev) (c : SafCh) (p : Nat) : Bool := pairDemand d c 2 p || (slsViolated d p && spbFlag d p 3)

/-- 13 Table SAF-3: a cause of level STO other than SS1 complete. -/
def stoAsked (d : Dev) (c : SafCh) (p : Nat) : Bool :=
  d.rd (safReg 0xC) != 0 || d.mode != 4 || pairDemand d c 1 p || (slsViolated d p && !spbFlag d p 3)

/-- 13 R382: the stop request: 0 NONE, 1 SS1, 2 STO. -/
def stopReq (d : Dev) (c : SafCh) (p : Nat) : Nat :=
  if stoAsked d c p then 2 else if ss1Asked d c p then (if c.done.testBit p then 2 else 1) else 0

/-- The absolute speed of the port's feedback, 1/16 count/s. -/
def portSpeed (d : Dev) (p : Nat) : Nat := (signed 32 (d.rd (encReg (spbPort d p 1 1) 0x30)).toNat).natAbs

/-- 13 R382 to R384: one channel's timers and interlock for port `p`. -/
def channelPort (d : Dev) (p : Nat) (c : SafCh) : SafCh :=
  let asked := ss1Asked d c p && !stoAsked d c p
  let start := asked && !c.ss1.testBit p
  let c := { c with ss1 := nsetBit c.ss1 p asked
                    done := nsetBit c.done p (c.done.testBit p && asked && !start)
                    v0 := if start then tput (fun _ => 0) c.v0 p (portSpeed d p) else c.v0 }
  { c with reset := nsetBit c.reset p (c.reset.testBit p && stopReq d c p = 0) }
/-- 13 R375, R383: a channel's output for port `p`; `reset`: both channels have seen the reset of the interlock. -/
def channelOut (d : Dev) (p : Nat) (reset : Bool) (c : SafCh) : SafCh :=
  let r := stopReq d c p
  let base := d.mode = 4 && !d.saf.spb.isEmpty && spbFlag d p 0 && d.rd (safReg 0xC) = 0 && !d.saf.hot
  { c with out := nsetBit c.out p (base && ((r = 0 && reset) || (r = 1 && c.out.testBit p))) }

/-- The registers that show a port's safety state (13 Table SAF-17, 14 Table MPO-11), and the port's own reaction. -/
def showPort (p : Nat) (d : Dev) : Dev :=
  let a := d.saf.a
  let b := d.saf.b
  let sto := !(a.out.testBit p && b.out.testBit p)
  let d := d.setF (safPort p 0 2) (b2n (!d.saf.spb.isEmpty && spbFlag d p 0) + 2 * b2n sto)
  let d := d.setF (safPort p 3 1) (b2n ((a.ss1.testBit p && !a.done.testBit p) || (b.ss1.testBit p && !b.done.testBit p)))
  let d := (d.setF (safPort p 4 2) (stopReq d a p)).setF (safPort p 6 2) (stopReq d b p)
  let d := d.setF (safPort p 8 1) (b2n (slsOn d a p))
  let d := d.setF (safPort p 9 1) (b2n !(a.reset.testBit p && b.reset.testBit p))
  let d := (d.setF (safPort p 10 1) (b2n (a.out.testBit p))).setF (safPort p 11 1) (b2n (b.out.testBit p))
  portEval p (d.setF (mpoSto p) (b2n sto))

/-- 13 R373, R375, R382: everything that follows at once from a change of demands, faults, mode, set-up or resets. -/
def safetyUpdate (d : Dev) : Dev :=
  let d := forUpTo 4 (fun p d =>
    let d := { d with saf := { d.saf with a := channelPort d p d.saf.a, b := channelPort d p d.saf.b } }
    let reset := d.saf.a.reset.testBit p && d.saf.b.reset.testBit p
    { d with saf := { d.saf with a := channelOut d p reset d.saf.a, b := channelOut d p reset d.saf.b } }) d
  let sfi := (d.saf.a.lvl % 65536) + 65536 * ((d.saf.a.demand ||| d.saf.b.demand) % 256) + 2 ^ 24 * ((d.saf.a.disc ||| d.saf.b.disc) % 256)
  let d := d.wr (safReg 0x14) (BitVec.ofNat 32 sfi)
  let d := d.setF ⟨safReg 0, 6, 1⟩ (b2n (d.rd (safReg 0xC) != 0))
  let d := d.setF ⟨safReg 0, 7, 1⟩ (b2n (d.rd (safReg 0x10) != 0))
  forUpTo 4 showPort d

/-- 13 R388: a class A fault latches and stops every port, while the channels have power. -/
def classA (bit : Nat) (d : Dev) : Dev := if d.domOn 3 then safetyUpdate (capFire 4 (d.raise (safA bit))) else d

/-- 13 R393: a class B fault: its bit (0 INJ, 1 HM_INJ, 2 CFG_SWEEP, 3 MV_LOSS, 4 LVB_FAULT) and SAF_B_LAST with the isle; a
fault of no isle and no segment leaves that field open. -/
def classB (bit : Nat) (isle : Option Nat) (d : Dev) : Dev :=
  let x : Nat × Dev := match isle with | some n => (n % 64, d) | none => d.draw 64
  let d := (x.2.raise (safB bit)).wr (safReg 0x18) (BitVec.ofNat 32 (bit + 256 * x.1))
  capFire 4 (d.raise ⟨safReg 0, 7, 1⟩)

/-- 13 R391: a SAFE command to a string in place of the host, at the next tick edge. -/
def safeCommand (s : Nat) (d : Dev) : Dev := d.modStr s fun u => { u with safeReq := true }
/-- 13 R391: to every string. -/
def safeAll (d : Dev) : Dev := forEach d.heldStrings safeCommand d

/-- 13 R398: the absolute limits of channel `c` for an isle role: 1 cell, 2 LV-bridge; else, and without a checked bank, none. -/
def absLimits (role c : Nat) (d : Dev) : Int × Int :=
  if d.saf.spb.isEmpty || (role != 1 && role != 2) then (-32768, 32767)
  else
    let o := (if role = 1 then 4 else 36) + 4 * c
    (signed 16 (leAt d.saf.spb o 2), signed 16 (leAt d.saf.spb (o + 2) 2))

/-- 13 R392: the trip output of string segment `s`: 0 or 1. -/
def tripOf (d : Dev) (s : Nat) : Nat := leAt d.saf.spb 76 8 / 2 ^ s % 2

/-! ### The halt matrix (09) -/

def nrwReg (r off : Nat) : Nat := primAddr .nrw r off
def nrwHdrEn (r i : Nat) : Fld := ⟨nrwReg r 0x0C, i, 1⟩
def haltStat (r i : Nat) : Fld := ⟨nrwReg r 0x150, i, 1⟩
def hpol (r i lo w : Nat) : Fld := ⟨nrwReg r (0x100 + 4 * i), lo, w⟩
/-- The nodes of a ring, N (08 Table NRW-16: NODES_M1). -/
def nodesOf (r : Nat) (d : Dev) : Nat := d.f ⟨nrwReg r 0, 4, 4⟩ + 1

/-- The isle that owns a node under the running plan. -/
def isleOf (r i : Nat) (d : Dev) : Option Nat :=
  (d.isles.find? fun e => (e.2.entry.role = 1 || e.2.entry.role = 2) && e.2.entry.ring = r && e.2.entry.node = i).map (·.1)

/-- 09 R272, R273: HALT to one node whose halt bit does not stand; the entries that go with it. -/
def haltOne (r i : Nat) (byp : Bool) (stamp : Nat) (d : Dev) : Dev :=
  if haltStands r i d then d
  else
    let d := setHalt r i true d
    let d := if d.flag ⟨nrwReg r 0, 0, 1⟩ && d.domOn (if r < 8 then 8 else 9) then
        giveOrdered r (2500 * stamp) false [haltBlk i byp d.tide.k]
          (((d.count ⟨nrwReg r 0x28, 16, 16⟩).emit (.halt r i byp)).modRing r fun u => { u with echoes := u.echoes ++ [i] })
      else d
    match isleOf r i d with
    | some n => if (d.isle n).entry.role = 1 then cellFault n 0x06 stamp d else whenDo (d.flag (nrwHdrEn r i)) (classB 4 (some n)) d
    | none => d

/-- 09 R271: the severest action for the cause bits (SC, driver fault, node internal) under a node's policy: 0 REPORT,
1 NODE, 2 NODE_BYP, 3 GROUP. -/
def haltAction (r i causes : Nat) (d : Dev) : Nat :=
  let a (b lo : Nat) : Nat := if causes.testBit b then d.f (hpol r i lo 2) else 0
  max (max (a 0 0) (a 1 2)) (a 2 4)

/-- 09 R271 to R273: the decision on an ALERT of node `i` with its cause bits. -/
def haltDecide (r i causes stamp : Nat) (d : Dev) : Dev :=
  if haltStands r i d then d
  else
    let act := haltAction r i causes d
    let group := d.f (hpol r i 8 4)
    if act = 0 then d
    else
      let d := haltOne r i (act != 1) stamp d
      let d := if act != 3 then d else
        forUpTo 16 (fun q d => forUpTo (nodesOf q d) (fun j d =>
          if (q = r && j = i) || d.f (hpol q j 8 4) != group then d else haltOne q j false stamp d) d) (d.raise (haltStat r 5))
      capFire 3 d

/-- 03 R74, 01 Table ARC-9, 13 R390: an LV-bridge isle that stops halts its node, and raises LVB_FAULT while the node is enabled. -/
def lvbStop (n stamp : Nat) (d : Dev) : Dev :=
  let e := (d.isle n).entry
  let d := whenDo (d.flag (nrwHdrEn e.ring e.node)) (classB 4 (some n)) d
  if haltStands e.ring e.node d then d else capFire 3 (haltOne e.ring e.node false stamp d)
/-- 13 R390, 04 R625: an LV-bridge isle's fault acts while its node is enabled. -/
def lvbFault (n stamp : Nat) (d : Dev) : Dev :=
  let e := (d.isle n).entry
  if d.flag (nrwHdrEn e.ring e.node) then lvbStop n stamp d else d

/-- 04 R112, R113, R124, R625: a FAULT of isle `n`: a cell isle enters its string's queue, an LV-bridge isle's node is
halted with LVB_FAULT, a port isle's port faults. -/
def isleFault (n cause stamp : Nat) (d : Dev) : Dev :=
  let e := (d.isle n).entry
  match e.role with
  | 1 => cellFault n cause stamp d
  | 2 => lvbFault n stamp d
  | 3 => portIsleFault e.port d
  | _ => d

/-- 03 R66, Table ISL-3: a word of a graph bank of isle `n` is damaged: that bank no longer verifies. -/
def hurtBank (n word : Nat) (d : Dev) : Dev :=
  d.modIsle n fun u =>
    if word < 128 then { u with bankA := { u.bankA with sound := false } }
    else if word < 256 then { u with bankB := { u.bankB with sound := false } } else u

/-- 01 Table ARC-9, 13 Table SAF-7: an uncorrectable error in the local memory of isle `n`: it stops at once and stays
stopped until a commit. -/
def isleUe (n stamp : Nat) (d : Dev) : Dev :=
  let e := (d.isle n).entry
  let d := (d.modIsle n fun u => { u with istate := 0, ueStop := true })
  match e.role with
  | 1 => cellFault n 0x01 stamp d
  | 2 => lvbStop n stamp d
  | 3 => portFault e.port 7 d
  | _ => d

end Sys2Proof.Machine
end

