-- ==== Sys2Proof/Machine/Reply.lean ====
section
/-! DEFINITION. Harbour messages that the device sends (17 R498 to R500, R505) and the answers to those who wait for a result. -/
namespace Sys2Proof.Machine

/-- Table DIC-6: the header. Flags: 1 FIRST, 2 LAST, 4 RESPONSE. -/
def hbHeader (typ session seq req target len tx flags : Nat) : List Byte :=
  ([0x48, 0x42, 0x01] : List Byte) ++ leBytes 1 typ ++ leBytes 4 session ++ leBytes 8 seq ++ leBytes 4 req ++ leBytes 2 (target % 4096) ++
    leBytes 2 len ++ leBytes 4 tx ++ leBytes 1 flags ++ leBytes 3 0

/-- R500: the first 16 bytes of HMAC-SHA-256 over header and body. -/
def hbTag (key m : List Byte) : List Byte := (hmac key m).take 16

/-- R498: a whole message. -/
def hbMessage (key : List Byte) (typ session seq req tx flags : Nat) (body : List Byte) : List Byte :=
  let m := hbHeader typ session seq req 0 body.length tx flags ++ body
  m ++ hbTag key m

/-- R499: the parts of a body, of at most `n` bytes each; `k` bounds their number. -/
def parts (n : Nat) : Nat → List Byte → List (List Byte)
  | 0, _ => []
  | k + 1, l => if l.length ≤ n then [l] else l.take n :: parts n k (l.drop n)
/-- The parts of a whole body. -/
def partsOf (n : Nat) (l : List Byte) : List (List Byte) := parts n (l.length + 1) l

def sessionOf (sid : Nat) (d : Dev) : Option Session := d.host.sessions.find? fun x => x.id = sid
def modSession (sid : Nat) (f : Session → Session) (d : Dev) : Dev :=
  { d with host := { d.host with sessions := d.host.sessions.map fun x => if x.id = sid then f x else x } }

/-- What one part adds: its message goes out and the session's sequence rises. -/
def sendPart (sid typ req tx n : Nat) (x : Nat × List Byte) (d : Dev) : Dev :=
  match sessionOf sid d with
  | none => d
  | some s =>
    let flags := b2n (x.1 = 0) + 2 * b2n (x.1 + 1 = n) + 4
    modSession sid (fun s => { s with sent := s.sent + 1 })
      (d.emit (.harbour s.ip 47130 (hbMessage s.key typ sid (s.sent + 1) req tx flags x.2)))

/-- R498, R499: a response within a session. -/
def sendResponse (sid typ req tx : Nat) (body : List Byte) (d : Dev) : Dev :=
  let ps := partsOf 1400 body
  forEach ((List.range ps.length).zip ps) (sendPart sid typ req tx ps.length) d

/-- R505: the response goes out and is kept for 10 s. -/
def respond (sid typ req tx : Nat) (body : List Byte) (d : Dev) : Dev :=
  modSession sid (fun s => { s with kept := (s.kept.filter fun k => d.tide.abs < k.at_ + 4000000000) ++ [⟨req, d.tide.abs, typ, body⟩] })
    (sendResponse sid typ req tx body d)

/-- 11 R346: the reply to a forwarded request goes back in ferries of up to 496 bytes. -/
def sendReply (addr id : Nat) (body : List Byte) (d : Dev) : Dev :=
  let ps := partsOf 496 body
  forEach ((List.range ps.length).zip ps) (fun x d =>
    d.emit (.send (.addr addr) 0x31 (16 + x.2.length) (.dicRsp id x.1 (x.1 = 0) (x.1 + 1 = ps.length) x.2))) d

/-- 11 R346, R347: the reply goes back, and is kept for 10 s. -/
def replyTo (addr id : Nat) (body : List Byte) (d : Dev) : Dev :=
  let d := sendReply addr id body d
  { d with fab := { d.fab with replies := (d.fab.replies.filter fun r => d.tide.abs < r.at_ + 4000000000) ++ [⟨addr, id, d.tide.abs, body⟩] } }

/-- 18 R527 step 5: the result of a command that took longer than its step reaches the one who waits. -/
def answerAsker (code : Word) (d : Dev) : Dev :=
  let a := d.host.asker
  let d := { d with host := { d.host with asker := none } }
  match a with
  | none => d
  | some (.harbour req sid typ) => respond sid typ req 0 (leBytes 4 code.toNat) d
  | some (.gateway addr id) => replyTo addr id (leBytes 4 code.toNat) d
  | some .can => d.emit (.usdo code [])

end Sys2Proof.Machine
end

