-- ==== Sys2Proof/Machine/ClassSafety.lean ====
section
/-! DEFINITION. The commands of the safety functions (13): safety inputs, stops, diagnostics, class B acknowledgement, the
protection set-up and its confirmation. A channel is false for the safety core (A), true for Skerry (B). -/
namespace Sys2Proof.Machine

def Dev.chan (d : Dev) (ch : Bool) : SafCh := if ch then d.saf.b else d.saf.a
def Dev.setChan (d : Dev) (ch : Bool) (c : SafCh) : Dev :=
  { d with saf := if ch then { d.saf with b := c } else { d.saf with a := c } }
def safCnt (i : Nat) : Fld := ⟨safReg 0x30, 8 * i, 8⟩

/-- R376: a contact (false SFI_A, true SFI_B) of pair `i` is in demand at level `lvl`. -/
def contactDemand (d : Dev) (i : Nat) (b lvl : Bool) : Bool := if b && (spbPair d i 0).testBit 4 then lvl else !lvl

/-- R383: a reset of the restart interlock of the ports in `mask`, in one channel; without effect while a cause stands. -/
def resetPorts (ch : Bool) (mask : Nat) (d : Dev) : Dev :=
  forUpTo 4 (fun p d =>
    let c := d.chan ch
    if mask.testBit p && stopReq d d.saf.a p = 0 && stopReq d d.saf.b p = 0 then
      let d := d.setChan ch { c with reset := nsetBit c.reset p true }
      if (d.chan (!ch)).reset.testBit p then d.setF (safPort p 2 1) 0 else d
    else d) d

/-- R381, R391: a STRING_SAFE pair in demand in the safety core commands SAFE to the strings of its trip mask. -/
def stringSafePairs (d : Dev) : Dev :=
  forUpTo 8 (fun i d =>
    if pairFn d i = 4 && d.saf.a.demand.testBit i then
      forEach d.heldStrings (fun s d =>
        let live := (d.str s).sstate = 1 || (d.str s).sstate = 2
        if (spbPair d i 1).testBit (tripOf d s) && live then (safeCommand s d).wr (safReg 0x18) (BitVec.ofNat 32 (8 + 256 * s)) else d) d
    else d) d

/-- R377 to R380: channel `ch` accepts contact `b` of pair `i` at level `lvl`. -/
def sfiAccept (ch : Bool) (i : Nat) (b lvl : Bool) (d : Dev) : Dev :=
  let c := d.chan ch
  let at_ := if b then i + 8 else i
  if c.lvl.testBit at_ = lvl then d
  else
    let was := c.demand.testBit i
    let l := nsetBit c.lvl at_ lvl
    let da := contactDemand d i false (l.testBit i)
    let db := contactDemand d i true (l.testBit (i + 8))
    let fault := c.disc.testBit i
    let cleared := fault && c.stage.testBit i && !da && !db
    let dem := da || db || (fault && !cleared)
    let c := { c with lvl := l, win := nsetBit c.win i (da != db), demand := nsetBit c.demand i dem,
                      disc := nsetBit c.disc i (fault && !cleared),
                      stage := nsetBit c.stage i (fault && !cleared && (c.stage.testBit i || (da && db))) }
    let d := d.setChan ch c
    let d := whenDo (!ch && dem && !was) (fun d => d.count (safCnt 0)) d
    let d := safetyUpdate d
    let d := whenDo (was && !dem && !fault && pairFn d i = 5) (fun d => safetyUpdate (resetPorts ch (spbPair d i 1) d)) d
    whenDo (!ch && dem && !was) stringSafePairs d

/-- R377 to R380. -/
def execSfiAccept (ch : Bool) (i : Fin 8) (b lvl : Bool) (s : State) : Host.Outcome State Fault Refusal := runCore s (sfiAccept ch i b lvl)

/-- R379, R380: the discrepancy window of pair `i` ends, `elapsed` ms after the first contact. -/
def execDiscrepancyFault (ch : Bool) (i : Fin 8) (elapsed : Nat) (s : State) : Host.Outcome State Fault Refusal := runCore s fun d =>
  let c := d.chan ch
  let lim := if d.saf.spb.isEmpty then 20 else 2 * spbPair d i 3
  if !c.win.testBit i || elapsed < lim then d
  else
    let c := { c with win := nsetBit c.win i false, disc := nsetBit c.disc i true, stage := nsetBit c.stage i false,
                      demand := nsetBit c.demand i true }
    let d := d.setChan ch c
    safetyUpdate (whenDo (!ch) (fun d => d.count (safCnt 1)) d)

/-- R374, R388: a test pulse on an active STO output; `stuck`: a pad stayed high through it. -/
def execStoTestPulse (ch : Bool) (p : Fin 4) (stuck : Bool) (s : State) : Host.Outcome State Fault Refusal := runCore s fun d =>
  if (d.chan ch).out.testBit p && stuck then classA 4 d else d

/-- R374, R388: a pad has read differently from its command for `elapsed` ns. -/
def execReadbackMismatch (elapsed : Nat) (s : State) : Host.Outcome State Fault Refusal :=
  runCore s fun d => if 1000 < elapsed then classA 4 d else d

/-- R384: t_SS1 has run for `elapsed` ms in the channel. -/
def execSs1TimerExpiry (ch : Bool) (p : Fin 4) (elapsed : Nat) (s : State) : Host.Outcome State Fault Refusal := runCore s fun d =>
  let c := d.chan ch
  if c.ss1.testBit p && spbPort d p 2 2 ≤ elapsed then safetyUpdate (d.setChan ch { c with done := nsetBit c.done p true }) else d

/-- R386, R389: the SLS verdict of a channel; the other learns of it through cross-monitoring. -/
def slsVerdict (ch : Bool) (p : Nat) (viol : Bool) (d : Dev) : Dev :=
  let new := viol && !slsViolated d p
  let d := d.setChan ch { d.chan ch with viol := nsetBit (d.chan ch).viol p viol }
  let d := whenDo new (fun d => (d.setF (safPort p 2 1) 1).count (safCnt 2)) d
  safetyUpdate d

/-- R384 to R386: the safety core checks a speed value of port `p`, `elapsed` ms after an SS1 request in progress. -/
def execSafetySpeedCheck (p : Fin 4) (elapsed : Nat) (s : State) : Host.Outcome State Fault Refusal := runCore s fun d =>
  if d.saf.spb.isEmpty then d
  else
    let f := spbPort d p 1 1
    let cpr := 16 * spbPort d p 12 4
    let valid := encValid f d
    let v := portSpeed d p
    let on := slsOn d d.saf.a p
    let fast := !valid || decide (spbPort d p 8 2 * cpr < v * 600)
    let d := if (on && fast) || d.saf.a.viol.testBit p then slsVerdict false p (on && fast) d else d
    let c := d.saf.a
    if c.ss1.testBit p && spbFlag d p 2 then
      let v0 := tget (fun _ => 0) c.v0 p
      let bound : Int := v0 * 60000 + ((spbPort d p 11 1 : Int) * 1000 - spbPort d p 6 2 * elapsed) * cpr
      let viol := !valid || decide (bound < v * 60000)
      let still := valid && decide (v * 600 ≤ spbPort d p 4 2 * cpr)
      if viol || still then safetyUpdate (d.setChan false { c with done := nsetBit c.done p true }) else d
    else d

/-- R386: a 1 ms window of Skerry ends with `edges` counted; while PD_11 is off an interface squared by its comparators shows none. -/
def execSkerrySlsWindow (p : Fin 4) (edges : Nat) (s : State) : Host.Outcome State Fault Refusal := runCore s fun d =>
  let fast := slsOn d d.saf.b p && decide (spbPort d p 10 1 < edges)
  if fast || d.saf.b.viol.testBit p then slsVerdict true p fast d else d

/-- R389: a difference between the channels' requests or demands has lasted 10 ms. SS1 that one channel has completed is the same
request. -/
def channelsDiffer (d : Dev) : Bool :=
  let lvl (c : SafCh) (p : Nat) : Nat := if stoAsked d c p then 2 else if ss1Asked d c p then 1 else 0
  d.saf.a.demand != d.saf.b.demand || (List.range 4).any fun p => lvl d.saf.a p != lvl d.saf.b p

/-- R389: a difference has lasted `elapsed` ms. -/
def execXchk (elapsed : Nat) (s : State) : Host.Outcome State Fault Refusal :=
  runCore s fun d => if channelsDiffer d && 10 ≤ elapsed then classA 3 d else d
/-- R388: the safety core's heartbeat has been missing for `elapsed` ms. -/
def execWdg (elapsed : Nat) (s : State) : Host.Outcome State Fault Refusal := runCore s fun d => if 2 ≤ elapsed then classA 2 d else d
/-- R388: Skerry's check of its timers and counters, every 10 ms, and whether it failed. -/
def execSkerrySelfCheck (failed : Bool) (s : State) : Host.Outcome State Fault Refusal := runCore s fun d => if failed then classA 7 d else d
/-- R388. -/
def execLockstepMismatch (s : State) : Host.Outcome State Fault Refusal := runCore s (classA 6)

/-- R383: a host reset of the ports in the mask that have HOST_RESET. -/
def hostReset (mask : Nat) (d : Dev) : Dev :=
  let m := (List.range 4).foldl (fun a p => nsetBit a p (mask.testBit p && spbFlag d p 4 && !d.saf.spb.isEmpty)) 0
  safetyUpdate (resetPorts true m (resetPorts false m d))
/-- R383. -/
def execHostReset (mask : BitVec 4) (s : State) : Host.Outcome State Fault Refusal := runCore s (hostReset mask.toNat)

/-- R391: the monitor value lies below U_MV_MIN, a STALE one counting as below (16 R478). -/
def mvBelow (d : Dev) : Bool :=
  match mvSlot d with
  | none => false
  | some n => d.flag (adcStaleBit n) || decide ((d.slot n).pre < leAt d.saf.spb 72 2)

/-- R393: the class B causes that still stand. -/
def classBStands (bit : Nat) (d : Dev) : Bool :=
  match bit with
  | 0 => d.isles.any fun e => e.2.ueStop
  | 1 => d.saf.hmFails != 0
  | 2 => d.saf.sweeps != 0
  | 3 => mvBelow d
  | _ => d.isles.any fun e => e.2.entry.role = 2 && (e.2.stalled || haltStands e.2.entry.ring e.2.entry.node d)

/-- R393: host software acknowledges bits whose cause has cleared. -/
def classBAck (mask : Nat) (d : Dev) : Dev :=
  let d := forUpTo 5 (fun b d => if mask.testBit b && !classBStands b d then d.lower (safB b) else d) d
  d.setF ⟨safReg 0, 7, 1⟩ (b2n (d.rd (safReg 0x10) != 0))
/-- R393. -/
def execClassBAck (mask : Word) (s : State) : Host.Outcome State Fault Refusal := runCore s (classBAck mask.toNat)

/-- R391, Table SAF-6: the monitor value has been below for `elapsed` ms. -/
def execMvLoss (elapsed : Nat) (s : State) : Host.Outcome State Fault Refusal := runCore s fun d =>
  if mvBelow d && leAt d.saf.spb 71 1 ≤ elapsed then classB 3 none (safeAll d) else d

/-! ### Protection set-up -/

/-- R396, Table SAF-8, SAF-9: the SPB's reserved fields are 0 and its values in range. -/
def spbValid (l : List Byte) : Bool :=
  let at_ (i n : Nat) : Nat := leAt l i n
  let sorted (o : Nat) : Bool := decide (signed 16 (at_ o 2) ≤ signed 16 (at_ (o + 2) 2))
  let pairOk (i : Nat) : Bool :=
    let b := at_ (84 + 4 * i) 1
    let m := at_ (85 + 4 * i) 1
    b % 8 ≤ 5 && !b.testBit 3 && b < 32 && m < (if b % 8 = 4 then 4 else 16) &&
      within 1 (at_ (86 + 4 * i) 1) 20 && within 1 (at_ (87 + 4 * i) 1) 250
  let portOk (p : Nat) : Bool :=
    let o := 116 + 16 * p
    at_ o 1 < 32 && at_ (o + 1) 1 < 4 && within 100 (at_ (o + 2) 2) 60000 && 1 ≤ at_ (o + 6) 2 && 1 ≤ at_ (o + 8) 2 &&
      1 ≤ at_ (o + 10) 1 && 1 ≤ at_ (o + 12) 4
  l.length = 192 && at_ 0 2 = 1 && at_ 2 1 < 8 && at_ 3 1 < 4 &&
    (List.range 8).all (fun c => sorted (4 + 4 * c) && sorted (36 + 4 * c)) &&
    within 56 (at_ 68 1) 254 && within 56 (at_ 69 1) 254 && (at_ 70 1 < 32 || at_ 70 1 = 255) && within 1 (at_ 71 1) 100 &&
    at_ 72 2 < 32768 && at_ 74 2 = 0 && (List.range 8).all pairOk && (List.range 4).all portOk && at_ 180 12 = 0

/-- R387: a port with SLS whose feedback is SSI only. -/
def spbSlsSsi (l : List Byte) (d : Dev) : Bool :=
  (List.range 4).any fun p =>
    let named := (leAt l (116 + 16 * p) 1).testBit 1 ||
      (List.range 8).any fun i => leAt l (84 + 4 * i) 1 % 8 = 3 && (leAt l (85 + 4 * i) 1).testBit p
    named && d.f (encMode (leAt l (117 + 16 * p) 1)) = 3

/-- R399: an SPB is written. Both channels compute its check value. -/
def spbWrite (l : List Byte) (d : Dev) : Word × Dev :=
  if d.mode != 2 || l.length != 192 then (refusedCode, d)
  else
    let d := { d with saf := { d.saf with staged := some l } }
    let d := d.wr (safReg 4) (BitVec.ofNat 32 (crc32c l))
    (0, d.setF ⟨safReg 0, 5, 1⟩ (b2n (l != d.saf.spb)))
/-- R399. -/
def execSpbWrite (l : List Byte) (s : State) : Host.Outcome State Fault Refusal := runCore s fun d => (spbWrite l d).2

/-- Tj and VPP_FUSE lie in the fuse window (20 R582): Tj 0 to 85 °C. -/
def tjInWindow (d : Dev) : Bool := let t := d.sf ⟨0x40020028, 0, 12⟩; decide (0 ≤ t) && decide (t ≤ 340)
/-- 20 Table MPT-4: rail 7, VPP_FUSE, inside its window. -/
def vppInWindow (d : Dev) : Bool := d.flag ⟨0x4001003C, 16, 1⟩

/-- The lowest fuse bank not used (R400). -/
def freeBank (d : Dev) : Option Nat := (List.range 4).find? fun b => !d.flag ⟨safReg 0, 8 + b, 1⟩

/-- R400, Table SAF-11: the refusal of a confirmation request, 0 for none. -/
def confirmRefusal (v : Word) (d : Dev) : Word :=
  match d.saf.staged with
  | none => refusedCode
  | some l =>
    if d.mode != 2 || d.saf.burn.isSome then refusedCode
    else if v != BitVec.ofNat 32 (crc32c l) then 0x0A500001
    else if (freeBank d).isNone then 0x0A500002
    else if !tjInWindow d then 0x0A500003
    else if !vppInWindow d then 0x0A500004
    else if !spbValid l || spbSlsSsi l d then 0x0A500005
    else 0

/-- The bank to be burned: SPB, check value, marker, Harbour key (R396, 20 R583); the key staged, else that in force, else zeros. -/
def bankImage (l : List Byte) (b : Nat) (key : List Byte) : List Byte :=
  l ++ leBytes 4 (crc32c l) ++ [0x5A, 0xC3, 0x0F, BitVec.ofNat 8 b] ++ (key ++ List.replicate 32 0).take 32 ++ List.replicate 24 0

/-- The Harbour key of the bank in force (20 R578). -/
def keyInForce (d : Dev) : List Byte :=
  let b := d.f ⟨safReg 0, 0, 4⟩
  if d.flag ⟨safReg 0, 4, 1⟩ && b < 4 then slice (d.banks.getD b []) 200 32 else List.replicate 32 0

/-- R400: a confirmation request, journalled as sequence `q`: refused, or the burn starts. -/
def confirmStart (v : Word) (q : Nat) (d : Dev) : Word × Dev :=
  let r := confirmRefusal v d
  if r != 0 then (r, d)
  else
    let l := d.saf.staged.getD []
    let b := (freeBank d).getD 0
    let img := bankImage l b (d.saf.key.getD (keyInForce d))
    let d := { d with saf := { d.saf with staged := none, key := none, burn := some (img, b, q) } }
    (0, (d.raise ⟨safReg 0, 8 + b, 1⟩).raise ⟨0x40030800, 9, 1⟩)

/-- R400: a confirmation request; journalled with its result (18 Table JRN-2), which comes with the end of the burn. -/
def confirm (o : Origin) (v : Word) (d : Dev) : Word × Dev :=
  let d := jPending o 0x5200 3 4 0 false crc32c (leBytes 4 v.toNat) [BitVec.ofNat 8 ((freeBank d).getD 0)] d
  let q := d.jrn.seq
  let r := confirmStart v q d
  (r.1, if r.1 = 0 then r.2 else jDone q r.1 r.2)
/-- R400. -/
def execConfirm (o : Origin) (v : Word) (s : State) : Host.Outcome State Fault Refusal := runCore s fun d => (confirm o v d).2

/-- R397: the bank's marker is complete. -/
def bankMarked (b : Nat) (l : List Byte) : Bool := slice l 196 4 = [0x5A, 0xC3, 0x0F, BitVec.ofNat 8 b]
/-- R397: the bank's check value agrees with its SPB. -/
def bankChecks (l : List Byte) : Bool := leAt l 192 4 = crc32c (l.take 192)

/-- The bits of the burn in progress that took. -/
def burnTaken (taken : List Byte) (d : Dev) : Option (Nat × List Byte) :=
  d.saf.burn.map fun x => (x.2.1, List.zipWith (· &&& ·) x.1 taken)

/-- The end of a burn with its result, which the journal takes. -/
def burnEnd (r : Word) (d : Dev) : Dev :=
  match d.saf.burn with
  | none => d
  | some x =>
    let d := { d with saf := { d.saf with burn := none } }
    let d := whenDo (r = 0) (fun d => d.count (safCnt 3)) d
    answerAsker r (jDone x.2.2 r (d.lower ⟨0x40030800, 9, 1⟩))

/-- R400: the burn ends; `taken` gives the bits that took. The bank is read back and checked by R397. -/
def execFuseBurnDone (taken : List Byte) (s : State) : Host.Outcome State Fault Refusal :=
  runBurn s (burnTaken taken) fun d =>
    match d.saf.burn with
    | none => d
    | some x =>
      let l := List.zipWith (· &&& ·) x.1 taken
      burnEnd (if bankMarked x.2.1 l && bankChecks l then 0 else 0x0A500006) d

end Sys2Proof.Machine
end

