-- ==== Sys2Proof/Machine/FerryWire.lean ====
section
/-! DEFINITION. A ferry as bytes (11 Tables FTR-1, FTR-8, FTR-9, 10 Tables FTP-2, FTP-4, 12 Table RED-1). A body whose layout the spec does not
give has open bytes. -/
namespace Sys2Proof.Machine

def byteOf (n : Nat) : Byte := BitVec.ofNat 8 n

/-- 10 Table FTP-2. -/
def helloBody (h : Hello) : List Byte :=
  leBytes 8 h.uid ++ leBytes 4 h.fab ++ leBytes 2 (h.addr % 4096) ++
    [byteOf h.prio, byteOf (h.port % 4 + 4 * b2n h.pair + 8 * b2n h.solitary + 16 * b2n h.run + 32 * b2n h.merging)] ++
    leBytes 8 h.rootUid ++ [byteOf h.rootPrio, byteOf h.hops] ++ leBytes 2 h.epoch ++ leBytes 8 h.heard ++ leBytes 4 h.lsaSeq
/-- 10 Table FTP-4. -/
def lsaBody (l : Lsa) : List Byte :=
  leBytes 8 l.uid ++ leBytes 4 l.seq ++ leBytes 2 (l.addr % 4096) ++
    [byteOf l.prio, byteOf (b2n l.run + 2 * b2n l.solitary + 4 * b2n l.isRoot + 8 * b2n l.merging)] ++ leBytes 4 l.lease ++
    (List.range 4).flatMap fun p => leBytes 8 (l.nbrs.getD p 0)
/-- 11 Tables FTR-8, FTR-9: bytes 0 to 11; byte 11 is `b`. -/
def cwBytes (h : CwHead) (b : Nat) : List Byte :=
  leBytes 6 h.tick ++ leBytes 2 (h.gen % 1024 + 1024 * (h.variant % 4) + 4096 * (h.seg % 4)) ++ leBytes 2 (h.head % 4096) ++ [byteOf h.string, byteOf b]
/-- 11 Table FTR-8. -/
def cwListBody (h : CwHead) (part parts : Nat) (t : CwTot) (cells : List CellKey) : List Byte :=
  cwBytes h (part % 16 + 16 * parts) ++ leBytes 2 t.act ++ leBytes 2 cells.length ++
    (if part = 0 then leBytes 4 (unsigned 32 t.sum) ++ leBytes 4 (unsigned 32 t.sq) ++ leBytes 2 (unsigned 16 t.least) ++ leBytes 2 (unsigned 16 t.most) ++
      List.replicate 4 0 else List.replicate 16 0) ++
    cells.flatMap fun c => leBytes 4 (unsigned 32 c.sortv) ++ leBytes 2 (unsigned 16 c.key) ++ leBytes 2 c.gPos
/-- 11 Table FTR-9: CW_WORD. -/
def cwWordBody (h : CwHead) (w : StrWord) (sstate : Nat) : List Byte :=
  cwBytes h (sstate % 4) ++ ((List.range 4).flatMap fun i => leBytes 2 (unsigned 16 (w.fields.getD i 0))) ++
    (List.range 2).flatMap fun i => leBytes 4 (unsigned 32 (w.integ.getD i 0))
/-- 11 Table FTR-9: CW_FAULT. -/
def cwFaultBody (h : CwHead) (safe : Bool) (cause pos stamp : Nat) : List Byte :=
  cwBytes h (b2n safe) ++ [byteOf cause, 0] ++ leBytes 2 pos ++ leBytes 4 stamp ++ List.replicate 8 0
/-- 12 Table RED-1. -/
def hbBody (h : Heartbeat) : List Byte :=
  leBytes 6 h.tick ++ [byteOf h.mode,
      byteOf (b2n h.run + 2 * b2n h.relinquish + 4 * b2n h.pause + 8 * b2n h.preferred + 16 * b2n h.takeReady + 32 * h.side)] ++
    ((List.range 16).flatMap fun r => let x := h.rings.getD r (0, 0, 0); leBytes 2 x.1 ++ leBytes 2 x.2.1 ++ leBytes 2 x.2.2) ++
    (List.range 64).flatMap fun s =>
      let x := h.strings.getD s ⟨0, 0, 0, 0, 0⟩
      leBytes 4 (x.sstate % 4 + 4 * (x.variant % 4) + 16 * (x.gen % 1024) + 2 ^ 14 * (x.ex1 % 512) + 2 ^ 23 * (x.ex2 % 512))

/-- The body of a ferry of `len` bytes from the address `src`. -/
def ferryBody (src len : Nat) (m : Msg) : List Byte :=
  match m with
  | .hello h => helloBody h
  | .lsa l => lsaBody l
  | .cwList h part parts t cells => cwListBody h part parts t cells
  | .cwWord h w sstate => cwWordBody h w sstate
  | .cwFault h safe cause pos stamp => cwFaultBody h safe cause pos stamp
  | .capTrig kt epoch => leBytes 6 kt ++ leBytes 2 epoch ++ leBytes 2 src
  | .capData set kt offset total data => leBytes 2 set ++ leBytes 6 kt ++ leBytes 4 offset ++ leBytes 4 total ++ data
  | .pairHb h => hbBody h
  | .pub body => body
  | .other body => body
  | m => (List.range len).map (Config.bodyByte m)

/-- 11 R346: FIRST and LAST of a ferry in its message. -/
def ferryPlace : Msg → Nat
  | .dicReq _ _ _ _ first last _ => b2n first + 2 * b2n last
  | .dicRsp _ _ first last _ => b2n first + 2 * b2n last
  | _ => 3

/-- 11 R320, R321: bytes 0 to 21 of the header with the hop count `hops`. -/
def ferryHead (f : Ferry) (hops : Nat) : List Byte :=
  leBytes 2 (f.dest % 4096 + 4096 * (f.cls % 4)) ++ leBytes 2 (f.src % 4096) ++ [byteOf f.typ, byteOf hops] ++ leBytes 2 f.len ++ leBytes 2 f.seq ++
    leBytes 2 f.epoch ++ leBytes 8 f.time ++ [byteOf (ferryPlace f.msg), 0]
/-- 11 R320 to R323: a ferry as it goes out; bytes 5, 22 and 23 count as zero in the trailer, whose complement marks one found bad on its way. -/
def ferryBytes (f : Ferry) : List Byte :=
  let h := ferryHead f f.hops
  let body := (ferryBody f.src f.len f.msg ++ List.replicate f.len 0).take f.len
  let t := crc32c (ferryHead f 0 ++ [0, 0] ++ body)
  withCrc h ++ body ++ leBytes 4 (if f.stomp then 2 ^ 32 - 1 - t else t)

end Sys2Proof.Machine
end

