-- ==== Sys2Proof/Machine/Engine.lean ====
section
/-! DEFINITION. The control engine of an isle (04 R104 to R129, 06 R162, R169 to R171): channel checks, the node types, the
run of a law graph up to the string barrier and on to its end. -/
namespace Sys2Proof.Machine

def lawStat (n i : Nat) : Fld := ⟨islReg n 0x20, i, 1⟩
def lawSatNode (n : Nat) : Fld := ⟨islReg n 0x20, 28, 4⟩
def lawAccCnt (n : Nat) : Fld := ⟨islReg n 0x24, 0, 16⟩
def lawOutCnt (n : Nat) : Fld := ⟨islReg n 0x24, 16, 16⟩
def lawOscCnt (n : Nat) : Fld := ⟨islReg n 0x28, 0, 16⟩
def chRangeCnt (n : Nat) : Fld := ⟨islReg n 0x2C, 0, 16⟩
def chStaleCnt (n : Nat) : Fld := ⟨islReg n 0x2C, 16, 16⟩

/-- 05 Table MOD-9: the records queued in the last run. -/
def efQueuedLast (n : Nat) : Fld := ⟨islReg n 0x44, 16, 16⟩

/-- A supervisor total of 04 R129: 0 accumulator, 1 store, 2 oscillation, 3 range, 4 freeze. -/
def ctlTotal (i n : Nat) (d : Dev) : Dev :=
  { d with ctlTotals := tmod (fun _ => 0) d.ctlTotals i fun v => satAdd 32 v n }

/-- Costs of Table CTL-4 in cycles (04 R116, 03 R63). -/
def nodeCost : Nat → Nat
  | 1 => 110 | 2 => 40 | 3 => 30 | 4 => 16 | 5 => 36 | 6 => 24 | 7 => 16 | 8 => 50 | 9 => 150 | 10 => 80 | 11 => 88
  | 12 => 20 | 13 => 32 | _ => 0

/-- A parameter word in force: the image's, unless the variant in force overrides it (06 R178). -/
def paramAt (d : Dev) (u : IsleU) (i : Nat) : Nat :=
  let b := liveBank u
  let ovrs := if u.entry.role = 1 then
      match variantOf (d.str u.entry.string) with | some v => v.ovrs | none => []
    else []
  match (ovrs.filter fun o => (b.nodes.getD o.node {}).par + o.word = i).getLast? with
  | some o => o.value
  | none => b.params.getD i 0

/-- A parameter word as a signed 16-bit number. -/
def paramS (d : Dev) (u : IsleU) (i : Nat) : Int := signed 16 (paramAt d u i % 65536)

/-- mac of the coefficient at parameter words i, i+1 with x (04 R98, R102). -/
def macAt (d : Dev) (u : IsleU) (i : Nat) (x : Int) : Int := mac (paramS d u i) (shiftOf (paramAt d u (i + 1))) x

/-- The newest string word whose tick is at most k − 1 (04 R127). -/
def newestWord (s : StringU) (k : Nat) : Option StrWord := s.words.find? fun w => w.tick < k

/-- 06 R163: the rank position ρ. -/
def rankPos (r n : Nat) : Int := if n = 0 then 0 else (2 * ((2 * (r : Int) - n + 1) * 32768) + n) / (2 * n)

/-- The value of a source code (04 R105, Table CTL-2). -/
def source (d : Dev) (u : IsleU) (code : Nat) : Int :=
  let i := code % 4096
  match code / 4096 with
  | 1 => (tget (fun _ => ({} : ChanU)) u.chans i).val
  | 2 => (tget (fun _ => ({} : ChanU)) u.chans i).inst
  | 3 => (tget (fun _ => ({} : NodeU)) u.nodes i).out
  | 4 => (tget (fun _ => ({} : NodeU)) u.nodes i).start
  | 5 => if (tget (fun _ => ({} : NodeU)) u.nodes i).flag then 32767 else 0
  | 6 => paramS d u i
  | 7 => match newestWord (d.str u.entry.string) d.tide.k with | some w => w.fields.getD i 0 | none => 0
  | 8 => (tget (fun _ => ({} : PortU)) d.ports (i / 16)).inputs.getD (i % 16) 0
  | 9 => adcDelivered i d
  | 10 => if u.entry.role = 1 then (d.str u.entry.string).vals.getD i 0 else 0
  | _ => 0

/-- What one run of a node gives. -/
structure NodeOut where
  out : Int := 0
  flag : Bool := false
  lines : List (Nat × Line) := []
  sat : Sat := {}
  lowV : Bool := false
  osc : Bool := false
  oscFault : Bool := false
  head : Bool := false
  word : Option (List Int × List Int) := none
  deriving DecidableEq, Repr

/-- The carry bit of a state word (03 Table ISL-4). -/
def carried (b : Bank) (w : Nat) : Bool := (b.carry.getD ((w - 256) / 8) 0).getLsbD ((w - 256) % 8)

/-- 04 R110: is state word `w` of the node initialised now? -/
def initNow (b : Bank) (v : NodeU) (w : Nat) : Bool := 2 ≤ v.first || (v.first = 1 && !carried b w)

/-- 04 R117, R118, R127. -/
def runPid (d : Dev) (u : IsleU) (b : Bank) (j : Nat) (nd : NodeDef) (v : NodeU) (x : Nat → Int) : NodeOut :=
  let first := initNow b v nd.st
  let l := tget (fun _ => 0) u.words nd.st
  let p := nd.par
  let y := x 1
  let yPrev := if first then y else lineS l 48 16
  let d0 := if first then 0 else lineS l 32 16
  let (e, q) := store15 ((x 0 - y) * 2 ^ 15) {}
  let (dy, q) := store15 ((yPrev - y) * 2 ^ 15) q
  let (a, q) := accSum [macAt d u (p + 6) d0, macAt d u (p + 4) dy] q
  let (dd, q) := store15 a q
  let fromWord : Option Int :=
    if v.first = 3 && nd.leadOnly then
      match newestWord (d.str u.entry.string) d.tide.k, b.nodes.find? fun m => m.typ = 13 with
      | some w, some m =>
        if paramAt d u m.par = j then w.integ[0]?
        else if paramAt d u (m.par + 1) = j then w.integ[1]? else none
      | _, _ => none
    else none
  let i0 := if !first then lineS l 0 32
    else match fromWord with
      | some i => i
      | none =>
        if nd.bumpless then satS 32 (2 * (source d u nd.hold * 2 ^ 15 - macAt d u p e - dd * 2 ^ 15)) else 0
  let (a, q) := accSum [macAt d u p e, intHalf i0, dd * 2 ^ 15] q
  let (w, q) := store15 a q
  let o := min (max w (x 2)) (x 3)
  let hold := !nd.bumpless && source d u nd.hold != 0
  let (i1, q) :=
    if hold then (i0, q)
    else
      let (t, q) := store15 ((o - w) * 2 ^ 15) q
      let (a, q) := accSum [macAt d u (p + 2) e, macAt d u (p + 8) t] q
      (intAdd i0 a, q)
  { out := o, flag := o != w, lines := [(nd.st, mkLine [(0, 32, i1), (32, 16, dd), (48, 16, y)])], sat := q }

/-- 04 R119. -/
def runRamp (d : Dev) (u : IsleU) (b : Bank) (nd : NodeDef) (v : NodeU) (x : Nat → Int) : NodeOut :=
  let o0 := if initNow b v nd.st then x 1 else lineS (tget (fun _ => 0) u.words nd.st) 0 16
  if x 2 = 0 then { out := x 1, lines := [(nd.st, mkLine [(0, 16, x 1)])] }
  else
    let o := o0 + max (-paramS d u (nd.par + 1)) (min (x 0 - o0) (paramS d u nd.par))
    { out := o, flag := o = x 0, lines := [(nd.st, mkLine [(0, 16, o)])] }

/-- 04 R120. -/
def runFilt (d : Dev) (u : IsleU) (b : Bank) (nd : NodeDef) (v : NodeU) (x : Nat → Int) : NodeOut :=
  let s := if initNow b v nd.st then x 0 * 2 ^ 16 else lineS (tget (fun _ => 0) u.words nd.st) 0 32
  let s := intAdd s (mac (paramS d u nd.par) 0 (x 0 - intQ15 s))
  { out := intQ15 s, lines := [(nd.st, mkLine [(0, 32, s)])] }

/-- 04 R120. -/
def runLimit (x : Nat → Int) : NodeOut :=
  let o := min (max (x 0) (x 1)) (x 2)
  { out := o, flag := o != x 0 }

/-- 04 R120. -/
def runSum (d : Dev) (u : IsleU) (nd : NodeDef) (x : Nat → Int) : NodeOut :=
  let (a, q) := accSum ((List.range 4).map fun i => macAt d u (nd.par + 2 * i) (x i)) {}
  let (o, q) := store15 a q
  { out := o, sat := q }

/-- 04 R120: the product exact at Q30, scaled by the node's shift. -/
def runProd (d : Dev) (u : IsleU) (nd : NodeDef) (x : Nat → Int) : NodeOut :=
  let (a, q) := accSum [mac (x 0) (shiftOf (paramAt d u nd.par)) (x 1)] {}
  let (o, q) := store15 a q
  { out := o, sat := q }

/-- 04 R120. -/
def runSel (d : Dev) (u : IsleU) (nd : NodeDef) (x : Nat → Int) : NodeOut :=
  match paramAt d u nd.par with
  | 0 => { out := if x 3 = 0 then x 0 else x 1 }
  | 1 => { out := min (min (x 0) (x 1)) (x 2) }
  | 2 => { out := max (max (x 0) (x 1)) (x 2) }
  | _ => { out := max (min (x 0) (x 1)) (min (max (x 0) (x 1)) (x 2)) }

/-- 04 R121. -/
def runFfwd (d : Dev) (u : IsleU) (b : Bank) (nd : NodeDef) (v : NodeU) (x : Nat → Int) : NodeOut :=
  let xp := if initNow b v nd.st then x 0 else lineS (tget (fun _ => 0) u.words nd.st) 0 16
  let (dx, q) := store15 ((x 0 - xp) * 2 ^ 15) {}
  let (a, q) := accSum [macAt d u nd.par (x 0), macAt d u (nd.par + 2) dx, paramS d u (nd.par + 4) * 2 ^ 15] q
  let (o, q) := store15 a q
  { out := o, lines := [(nd.st, mkLine [(0, 16, x 0)])], sat := q }

/-- The exact d of 04 R122 for power p and stored product q > 0, in Q15: sign(k)·(1 − √(1 − |k|))/2; the integers at or below it and at or above. -/
def dabExact (p q : Int) : Int × Int :=
  let num := min (p.natAbs * 32768) (if 0 ≤ p then 32767 * q.toNat else 32768 * q.toNat)
  let den := 32768 * q.toNat
  let rad := 2 ^ 28 * (den - num)
  let fl := isqrt (rad / den)
  let ce := if fl * fl * den = rad then fl else fl + 1
  let lo : Int := 16384 - ce
  let hi : Int := 16384 - fl
  if 0 ≤ p then (lo, hi) else (-hi, -lo)

/-- 04 R122: the table's deviation from the exact value is open within ±4 LSB. -/
def runDab (d : Dev) (u : IsleU) (nd : NodeDef) (x : Nat → Int) : NodeOut :=
  let dMax := paramS d u nd.par
  let vMin := paramS d u (nd.par + 1)
  if x 1 < vMin || x 2 < vMin then { flag := true, lowV := true }
  else
    let (q, s) := store15 (x 1 * x 2) {}
    if q ≤ 0 then { flag := true, lowV := true, sat := s }
    else
      let e := dabExact (x 0) q
      let o := max (e.2 - 4) (min (e.1 + Config.dabDeviation (x 0) (x 1) (x 2)) (e.1 + 4))
      { out := max (-dMax) (min o dMax), sat := s }

/-- 04 R123, R124: the end of a window after `pos` runs with `cnt` transitions: the run and the count of the next window,
detection, latch, whether it detected and whether that is a fault. Below W runs nothing ends. -/
def oscWindow (d : Dev) (u : IsleU) (nd : NodeDef) (pos cnt det latch : Nat) : (Nat × Nat) × (Nat × Nat) × Bool × Bool :=
  if pos < paramAt d u (nd.par + 2) then ((pos, cnt), (det, latch), false, false)
  else
    let hit := decide (paramAt d u (nd.par + 3) ≤ cnt)
    let fault := hit && paramAt d u (nd.par + 4) = 3 && latch = 0
    let latch := if fault then 1 else latch
    ((0, 0), (b2n (hit || latch = 1), latch), hit, fault)

/-- 04 R124: what an OSC node gives for detection `det`. -/
def oscGives (d : Dev) (u : IsleU) (nd : NodeDef) (l0 : Line) (w : (Nat × Nat) × (Nat × Nat) × Bool × Bool) : NodeOut :=
  let on := w.2.1.1 = 1
  { out := if paramAt d u (nd.par + 4) = 2 then (if on then paramS d u (nd.par + 5) else 32767) else if on then 32767 else 0,
    flag := on, osc := w.2.2.1, oscFault := w.2.2.2,
    lines := [(nd.st, l0),
              (nd.st + 1, mkLine [(0, 16, w.1.2), (16, 16, w.1.1), (32, 1, w.2.1.1), (33, 1, w.2.1.2)])] }

/-- 04 R123, R124: words m and Schmitt state (0 unset, 1 low, 2 high); count, run of the window, detection, latch. -/
def runOsc (d : Dev) (u : IsleU) (b : Bank) (nd : NodeDef) (v : NodeU) (x : Nat → Int) : NodeOut :=
  let l0 := tget (fun _ => 0) u.words nd.st
  let l1 := tget (fun _ => 0) u.words (nd.st + 1)
  let i0 := initNow b v nd.st
  let i1 := initNow b v (nd.st + 1)
  let m := if i0 then x 0 * 2 ^ 16 else lineS l0 0 32
  let sch := if i0 then 0 else lineN l0 32 2
  let cnt := if i1 then 0 else lineN l1 0 16
  let pos := if i1 then 0 else lineN l1 16 16
  let det := if i1 then 0 else lineN l1 32 1
  let latch := if i1 then 0 else lineN l1 33 1
  let m := intAdd m (mac (paramS d u nd.par) 0 (x 0 - intQ15 m))
  let dv := x 0 - intQ15 m
  let th := paramS d u (nd.par + 1)
  let (sch, cnt) :=
    if th ≤ dv then (2, if sch = 1 then cnt + 1 else cnt)
    else if dv ≤ -th then (1, if sch = 2 then cnt + 1 else cnt)
    else (sch, cnt)
  oscGives d u nd (mkLine [(0, 32, m), (32, 2, sch)]) (oscWindow d u nd (pos + 1) cnt det latch)

/-- 06 R170, R171: word: last trim; insertion, discharging. -/
def runTrim (d : Dev) (u : IsleU) (nd : NodeDef) (x : Nat → Int) : NodeOut :=
  let s := d.str u.entry.string
  let va := (variantOf s).getD ⟨0, 0, 16384, 1, 32767, []⟩
  let n := nAct s
  let rank := tget (fun _ => 0) s.ranks u.entry.gPos
  let xr := min (max (x 0) (-va.lambda)) va.lambda
  let iDb := paramS d u (nd.par + 3)
  if s.defn.nlc then
    let ins0 := min ((xr.natAbs * s.defn.n + 16384) / 32768) n
    let dis := decide (0 ≤ xr ∧ x 2 ≤ -iDb) || decide (xr < 0 ∧ iDb ≤ x 2)
    let ins := if dis then decide (n - ins0 ≤ rank) else decide (rank < ins0)
    { out := if !ins then 0 else if 0 ≤ xr then 32767 else -32767,
      head := xr != x 0 || (ins0 == n && decide (n < s.defn.n)),
      lines := [(nd.st, mkLine [(16, 1, b2n ins), (17, 1, b2n dis)])] }
  else
    let (m, q) := store15 (mac va.kMant (shiftOf va.kShift) xr) {}
    let dir : Int := if iDb ≤ x 2 then 1 else if x 2 ≤ -iDb then -1 else 0
    let (tr, q) := store15 (macAt d u nd.par (rankPos rank n)) q
    let tMax := paramS d u (nd.par + 2)
    let tr := min (max tr (-tMax)) tMax
    let (v, q) := store15 ((m - dir * tr) * 2 ^ 15) q
    let mLim := paramS d u (nd.par + 4)
    let o := min (max v (-mLim)) mLim
    { out := o, head := xr != x 0 || o != v, lines := [(nd.st, mkLine [(0, 16, tr)])], sat := q }

/-- 04 Table CTL-13: a node of the live graph is an OSC node that detects; one that this isle skips reads as not (R108). -/
def oscDetecting (u : IsleU) : Bool :=
  let b := liveBank u
  (List.range b.nodes.length).any fun i =>
    let nd := b.nodes.getD i {}
    nd.typ = 10 && !(nd.leadOnly && !u.lead) && (tget (fun _ => ({} : NodeU)) u.nodes i).flag

/-- 04 R127: one field of the newest word; the flag says that it is older than its age limit. -/
def runStrr (d : Dev) (u : IsleU) (nd : NodeDef) (v : NodeU) : NodeOut :=
  let k := d.tide.k
  let a := paramAt d u (nd.par + 1)
  let t0 := if v.first = 0 then v.firstTick else k
  match newestWord (d.str u.entry.string) k with
  | some w => { out := w.fields.getD (paramAt d u nd.par) 0, flag := decide (w.tick + a < k) }
  | none => { flag := decide (t0 + a < k + 1) }

/-- The integrator of node `j`, 0 for none (04 R126). -/
def integOf (u : IsleU) (b : Bank) (j : Nat) : Int :=
  match b.nodes[j]? with
  | some m => if m.typ = 1 then lineS (tget (fun _ => 0) u.words m.st) 0 32 else 0
  | none => 0

/-- One run of node `j` (04 R116). -/
def runNode (d : Dev) (u : IsleU) (j : Nat) : NodeOut :=
  let b := liveBank u
  let nd := b.nodes.getD j {}
  let v := tget (fun _ => {}) u.nodes j
  let x (i : Nat) : Int := source d u (nd.srcs.getD i 0)
  match nd.typ with
  | 1 => runPid d u b j nd v x
  | 2 => runRamp d u b nd v x
  | 3 => runFilt d u b nd v x
  | 4 => runLimit x
  | 5 => runSum d u nd x
  | 6 => runProd d u nd x
  | 7 => runSel d u nd x
  | 8 => runFfwd d u b nd v x
  | 9 => runDab d u nd x
  | 10 => runOsc d u b nd v x
  | 11 => runTrim d u nd x
  | 12 => runStrr d u nd v
  | 13 => { word := some ((List.range 4).map x, [integOf u b (paramAt d u nd.par), integOf u b (paramAt d u (nd.par + 1))]) }
  | _ => {}

/-- 04 R106: node `j` is due in tick k. -/
def nodeDue (d : Dev) (u : IsleU) (nd : NodeDef) : Bool :=
  let c := paramAt d u nd.ctx
  d.tide.k % (c % 16 + 1) = c / 16 % 16

/-- 04 R106, R110: a node of the live graph runs in this tick. -/
def nodeRuns (d : Dev) (u : IsleU) (nd : NodeDef) : Bool := !(nd.leadOnly && !u.lead) && nodeDue d u nd

/-- 05 R152: the pair groups that a node of the table after `j` still updates in this run. -/
def laterGroups (d : Dev) (u : IsleU) (j : Nat) : List Nat :=
  ((liveBank u).nodes.drop (j + 1)).flatMap fun nd => if nd.efBind && nodeRuns d u nd then slotGroups (liveBank u) nd.slot else []

/-- A stored node output with all its effects: state words, flags, counters, the string word, the fault of an OSC
node, SW_STALE, the hand-over to the edge former (04 R109, R126 to R128, 06 R170). -/
def applyNode (n j f : Nat) (r : NodeOut) (d : Dev) : Dev :=
  let u := d.isle n
  let nd := (liveBank u).nodes.getD j {}
  let v := tget (fun _ => ({} : NodeU)) u.nodes j
  let k := d.tide.k
  let stale := nd.typ = 12 && r.flag
  let chg := d.flag ⟨islReg n 0x64, 4, 1⟩ && d.f ⟨islReg n 0x64, 0, 4⟩ = j && d.flag ⟨0x40020004, 3, 1⟩
  let d := whenDo (chg && decide (0 < r.out)) (fun d => d.raise ⟨islReg n 0x64, 5, 1⟩) d
  let r := if chg then { r with out := min r.out 0 } else r
  let v' : NodeU := { v with out := r.out, flag := r.flag, first := 0, firstTick := if v.first = 0 then v.firstTick else k,
                             stale := stale }
  let d := d.setIsle n { u with
    nodes := tput (fun _ => {}) u.nodes j v'
    words := r.lines.foldl (fun t e => tput (fun _ => 0) t e.1 e.2) u.words }
  let d := whenDo (r.sat.acc != 0) (fun d =>
    ctlTotal 0 r.sat.acc (((d.raise (lawStat n 0)).setF (lawSatNode n) j).count (lawAccCnt n) r.sat.acc)) d
  let d := whenDo (r.sat.out != 0) (fun d =>
    ctlTotal 1 r.sat.out (((d.raise (lawStat n 1)).setF (lawSatNode n) j).count (lawOutCnt n) r.sat.out)) d
  let d := whenDo ((nd.typ = 1 || nd.typ = 4) && r.flag) (fun d => d.raise (lawStat n 2)) d
  let d := whenDo r.lowV (fun d => d.raise (lawStat n 5)) d
  let d := whenDo r.osc (fun d => ctlTotal 2 1 ((d.raise (lawStat n 4)).count (lawOscCnt n))) d
  let d := whenDo r.oscFault (isleFault n 0x05 f) d
  let d := whenDo r.head (fun d => (d.raise (srtHeadroom u.entry.string)).raise (srtEvt 4)) d
  let d := whenDo (stale && !v.stale) (fun d => fqEnter u.entry.string 0x10 0x1FF f (d.raise (lawStat n 6))) d
  let d := match r.word with
    | some (fields, integ) =>
      let w : StrWord := ⟨fields, integ, k⟩
      let d := d.modStr u.entry.string fun s => { s with words := (w :: s.words).take 2 }
      if split (d.str u.entry.string) then cwSend u.entry.string 0x11 28 (.cwWord (cwHead u.entry.string w.tick d) w (d.str u.entry.string).sstate) d else d
    | none => d
  if nd.efBind then
    let d := efHand n nd.slot f r.out (laterGroups d (d.isle n) j) d
    if u.entry.role = 3 && nd.slot = 3 then portEval u.entry.port d else d
  else d

/-- 03 R71, 06 R165: the node waits for the string's ranking. -/
def readsRank (nd : NodeDef) : Bool :=
  nd.typ = 11 || nd.srcs.any (fun c => c / 4096 = 10) || nd.hold / 4096 = 10

/-- Run the nodes from `j` on, in table order, each storing its cost after the one before, or after the records that its hand-over queued
(03 R63). The run stops at the string barrier (BARRIER) while the ranking is not delivered, and at the end of the isle window. -/
def runNodes (n : Nat) : Nat → Nat → Nat → Dev → Dev
  | 0, _, _, d => d
  | fuel + 1, j, t, d =>
    let u := d.isle n
    let b := liveBank u
    if b.nodes.length ≤ j then
      let d := efFinish n t d
      if max t (d.isle n).ef.busy < d.window then
        let d := d.modIsle n fun u => { u with istate := 4, consec := 0 }
        respreadDone n (d.setF (efQueuedLast n) (d.isle n).ef.queued)
      else d.modIsle n fun u => { u with pc := j }
    else
      let nd := b.nodes.getD j {}
      if nd.leadOnly && !u.lead then
        let d := d.modIsle n fun u => { u with nodes := tmod (fun _ => {}) u.nodes j fun v => { v with out := 0, flag := false } }
        runNodes n fuel (j + 1) t d
      else if !nodeDue d u nd then runNodes n fuel (j + 1) t d
      else if readsRank nd && u.entry.role = 1 && !(d.str u.entry.string).delivered then
        d.modIsle n fun u => { u with istate := 3, pc := j, pcT := t }
      else
        let f := t + nodeCost nd.typ
        if f < d.window then
          let d := applyNode n j f (runNode d u j) d
          runNodes n fuel (j + 1) (max f (d.isle n).ef.busy) d
        else d.modIsle n fun u => { u with pc := j }

/-- The channel's checked value lies outside its limits (04 R112). -/
def chViolates (c : ChanDef) (lim : Int × Int) (avg inst : Int) : Bool :=
  let lo := if c.act = 2 then max c.lo lim.1 else c.lo
  let hi := if c.act = 2 then min c.hi lim.2 else c.hi
  let out (v : Int) : Bool := v < lo || hi < v
  match c.checked with
  | 0 => out avg
  | 1 => out inst
  | _ => out avg || out inst

/-- 04 R111 to R115: one channel's checks and filter on a new pair of values. HOLD gives a kind-2 source, of which the rule does not speak, the
instantaneous value of the same tick; before any such tick both are 0; under a freeze they are those of the last tick before its declaration
(DESIGN CHOICE, log 87). -/
def chanStep (c : ChanDef) (lim : Int × Int) (avg inst : Int) (u : ChanU) : ChanU :=
  let v := chViolates c lim avg inst
  let viol := if v then u.viol + 1 else 0
  let range := v && (if c.act = 2 then 1 else c.persist) ≤ viol
  let same := if u.prev = some (avg, inst) then min (u.same + 1) 255 else 0
  let stale := c.freeze != 0 && c.freeze ≤ same
  let hold := (range && c.act = 1) || (stale && c.fact = 1)
  let s := if hold then u.s
    else if !u.loaded then avg * 2 ^ 16
    else if c.ac = 0 then avg * 2 ^ 16
    else intAdd u.s (mac c.ac 0 (avg - intQ15 u.s))
  let kept : Int × Int := if range && c.act = 1 then (u.good, u.goodInst) else if hold then (u.thaw, u.thawInst) else (intQ15 s, inst)
  { s := s, loaded := u.loaded || !hold, viol := viol, same := same, prev := some (avg, inst), range := range, stale := stale,
    val := kept.1, inst := kept.2
    good := if v then u.good else intQ15 s, goodInst := if v then u.goodInst else inst
    thaw := if stale then u.thaw else intQ15 s, thawInst := if stale then u.thawInst else inst }

/-- 04 R112: a range violation is declared, with its bit and counts, and a FAULT action is taken. -/
def rangeDeclared (n c at_ : Nat) (new : Bool) (d : Dev) : Dev :=
  let d := whenDo new (fun d => ctlTotal 3 1 ((d.raise (lawStat n (12 + c))).count (chRangeCnt n))) d
  whenDo (((liveBank (d.isle n)).chans.getD c {}).act = 2) (isleFault n 0x03 at_) d
/-- 04 R113: a freeze is declared. -/
def freezeDeclared (n c at_ : Nat) (new : Bool) (d : Dev) : Dev :=
  let d := whenDo new (fun d => ctlTotal 4 1 ((d.raise (lawStat n (20 + c))).count (chStaleCnt n))) d
  whenDo (((liveBank (d.isle n)).chans.getD c {}).fact = 2) (isleFault n 0x04 at_) d

/-- Channel `c` of isle `n`: its step, its declarations with their bits and counts, its FAULT reactions (04 R112, R113). -/
def chanCheck (n c at_ : Nat) (avg inst : Int) (d : Dev) : Dev :=
  let u := d.isle n
  let cd := (liveBank u).chans.getD c {}
  let o := tget (fun _ => ({} : ChanU)) u.chans c
  let w := chanStep cd (absLimits u.entry.role c d) avg inst o
  let d := d.setIsle n { u with chans := tput (fun _ => {}) u.chans c w }
  let d := whenDo (w.viol = 0) (fun d => d.lower (lawStat n (12 + c))) d
  let d := whenDo w.range (rangeDeclared n c at_ (!o.range)) d
  whenDo w.stale (freezeDeclared n c at_ (!o.stale)) d

/-- 06 R162: the key is the value of the TRIM node's x1 source, with the stickiness of the last NLC insertion. -/
def postKey (n : Nat) (d : Dev) : Dev :=
  let u := d.isle n
  let s := d.str u.entry.string
  match (liveBank u).nodes.find? fun m => m.typ = 11 with
  | none => d
  | some nd =>
    let l := tget (fun _ => 0) u.words nd.st
    let c : Int := if s.defn.nlc && lineN l 16 1 = 1 then (if lineN l 17 1 = 1 then -1 else 1) else 0
    d.setIsle n { u with key := some (source d u (nd.srcs.getD 1 0), c), posted := true }

end Sys2Proof.Machine
end

