-- ==== Sys2Proof/Machine/Isles.lean ====
section
/-! DEFINITION. The commands of isles and strings: waking, abandoning, stalling and the declarations of an isle (03, 04, 05
R150), the string barrier, ranking, precharge, Causeway messages and host commands of a string (06, 11 R339 to R341). -/
namespace Sys2Proof.Machine

def islStat (n i : Nat) : Fld := ⟨islReg n 4, i, 1⟩
def tideOvr : Fld := ⟨0x40100054, 0, 32⟩
def cwStat (i : Nat) : Fld := ⟨primAddr .stp 0 0x22C, i, 1⟩
def cwMissCnt : Fld := ⟨primAddr .stp 0 0x230, 0, 16⟩
def cwInTime : Fld := ⟨primAddr .stp 0 0x230, 16, 16⟩

/-- The mailbox slot of the current tick (03 R67). -/
def curSlot (d : Dev) (u : IsleU) : Slot := if d.tide.k % 2 = 0 then u.slot0 else u.slot1

/-- 03 Table ISL-15: counters that CNT_FREEZE holds. -/
def islCount (n : Nat) (x : Fld) (d : Dev) : Dev := if d.flag ⟨islReg n 0, 0, 1⟩ then d else d.count x

/-! ### The barrier and the sorter (06 R163 to R168) -/

/-- R163: the order of cells. -/
def cellBefore (a b : CellKey) : Bool := a.sortv < b.sortv || (a.sortv = b.sortv && a.gPos < b.gPos)
def insertCell (x : CellKey) : List CellKey → List CellKey
  | [] => [x]
  | y :: t => if cellBefore x y then x :: y :: t else y :: insertCell x t
def sortCells (l : List CellKey) : List CellKey := l.foldl (fun a x => insertCell x a) []

/-- The stickiness h of a cell isle's TRIM node in force (Table BAL-4). -/
def trimH (d : Dev) (u : IsleU) : Int :=
  match (liveBank u).nodes.find? fun m => m.typ = 11 with
  | some nd => paramS d u (nd.par + 5)
  | none => 0

/-- R163, R166: a cell as the sorter takes it: the key and stickiness last posted, else 0 and 0. -/
def cellOf (d : Dev) (n : Nat) : CellKey :=
  let u := d.isle n
  let (k, c) := u.key.getD (0, 0)
  ⟨k - trimH d u * c, k, u.entry.gPos⟩

/-- R167: what a partial list tells of its keys beside them. -/
def totOf (keys : List Int) : CwTot :=
  ⟨keys.length, keys.sum, (keys.map fun k => stored15 (k * k)).sum, (keys.min?).getD 0, (keys.max?).getD 0⟩

/-- R166, R167: the barrier of string `s` closes: keys missing are counted; a split string's list is sent. -/
def barrierClose (s : Nat) (d : Dev) : Dev :=
  let u := d.str s
  if u.list.isSome then d
  else
    let act := d.active s
    let late := act.countP fun n => !(d.isle n).posted
    let cells := sortCells (act.map (cellOf d))
    let l : PartList := ⟨u.defn.segIdx, cells, d.tide.k, strGen d s % 1024, u.variant, totOf (cells.map (·.key))⟩
    let d := whenDo (late != 0) (fun d => (d.count (srtBarMiss s) late).raise (srtEvt 0)) d
    let d := d.modStr s fun u => { u with list := some l }
    if split u then cwSendList s l d else d

/-- R166: the barrier closes as the last active local isle posts. -/
def barrierPosted (s : Nat) (d : Dev) : Dev :=
  if (d.active s).all fun n => (d.isle n).posted then barrierClose s d else d

/-- R166: `at_` counts after the edge the deadline t_B has come; a key posted in its cycle arrived before it. -/
def barrierDue (s at_ : Nat) (d : Dev) : Dev :=
  if (d.str s).held && d.f (srtTb s) ≤ at_ then barrierClose s d else d
/-- R166: t_B has passed. -/
def execBarrierDeadline (x : Fin 64) (at_ : Nat) (s : State) : Host.Outcome State Fault Refusal := runCore s (barrierDue x at_)

/-- The other segments of a string. -/
def otherSegs (u : StringU) : List Nat := (List.range u.defn.segs).filter fun i => i ≠ u.defn.segIdx
def segOf (u : StringU) (i : Nat) : SegU := tget (fun _ => {}) u.segs i

/-- R167, R168: the lists the merge takes: its own, and each segment's of this tick or else of the last. -/
def mergeLists (u : StringU) (l : PartList) : List PartList :=
  l :: (otherSegs u).filterMap fun i => match (segOf u i).now with | some p => some p | none => (segOf u i).prev

/-- R167: every remote list is in, or the Causeway deadline has passed. -/
def mergeReady (u : StringU) : Bool := u.cwPast || (otherSegs u).all fun i => (segOf u i).now.isSome

/-- A quotient rounded half up (R164). -/
def quotUp (a : Int) (n : Nat) : Int := if n = 0 then 0 else (2 * a + n) / (2 * n)

/-- R164, Table BAL-3: the string values of the segments' totals. -/
def stringVals (ts : List CwTot) (n : Nat) : List Int :=
  let ts := ts.filter fun t => t.act != 0
  [satS 16 (quotUp (ts.map (·.sum)).sum n), satS 16 (quotUp (ts.map (·.sq)).sum n), ((ts.map (·.least)).min?).getD 0,
    ((ts.map (·.most)).max?).getD 0]

/-- R163 to R167: ranks and string values are delivered; isles in BARRIER return to RUN, each no earlier than it came there. -/
def deliver (s at_ : Nat) (d : Dev) : Dev :=
  let u := d.str s
  match u.list with
  | none => d
  | some l =>
    if u.delivered || (split u && !mergeReady u) then d
    else
      let cells := sortCells ((mergeLists u l).flatMap (·.cells))
      let tots := (mergeLists u l).map (·.tot)
      let ranks := (List.range cells.length).foldl (fun t i => match cells[i]? with | some c => tput (fun _ => 0) t c.gPos i | none => t) []
      let vals := stringVals tots (nAct u)
      let d := d.modStr s fun u => { u with delivered := true, ranks := ranks, vals := vals }
      let d := forUpTo 4 (fun v d => d.wr (srtReg s (0x14 + 4 * v)) (BitVec.ofNat 32 (unsigned 16 (vals.getD v 0)))) d
      forEach (d.cells s) (fun n d =>
        let i := d.isle n
        if i.istate = 3 && !i.gone then
          runNodes n 17 i.pc (max at_ i.pcT) (d.modIsle n fun i => { i with istate := 2 })
        else d) d

/-- R165, R167. -/
def execRankingDelivered (x : Fin 64) (at_ : Nat) (s : State) : Host.Outcome State Fault Refusal := runCore s (deliver x at_)

/-! ### Isles -/

/-- 03 R71, 04 R111, 06 R162, 13 R393: the isle leaves WAIT: its state at the start of the tick is kept, its channels are checked, a
cell posts its key and its graph runs from 32 cycles after it wakes (R63), which is not before the arrival stamp; how long the Shoal keeps it
(R75) nothing bounds. -/
def isleWake (n at_ : Nat) (injFail : Bool) (d : Dev) : Dev :=
  let u := d.isle n
  let sl := curSlot d u
  if u.istate != 1 || u.gone || !sl.valid then d
  else
    let t := max sl.stamp at_ + 32
    let d := d.setIsle n { u with
      istate := 2, pc := 0, snapWords := u.words, snapNodes := u.nodes, snapChans := u.chans, snapKey := u.key,
      nodes := forUpTo 16 (fun i t => tmod (fun _ => {}) t i fun v => { v with start := v.out }) u.nodes }
    let d := efBegin n d
    let d := forUpTo 8 (fun c d => chanCheck n c t (sl.smp.avg.getD c 0) (sl.smp.inst.getD c 0) d) d
    if injFail then isleUe n t (classB 0 (some n) d)
    else
      let d := whenDo (u.entry.role = 1) (fun d =>
        let d := if d.f (srtTb u.entry.string) < t then barrierDue u.entry.string t d else d
        barrierPosted u.entry.string (postKey n d)) d
      runNodes n 17 0 t (d.setF (lawStat n 2) 0)

/-- 03 R71: VALID is seen `at_` counts after the edge. `injFail`: the test values injected after the channel checks are judged wrongly (13 R393). -/
def execIsleWake (n : Fin 256) (at_ : Nat) (injFail : Bool) (s : State) : Host.Outcome State Fault Refusal :=
  runCore s (isleWake n at_ injFail)

/-- 03 R74: an isle whose consecutive overruns have reached STALL_LIMIT stops with STALLED, with its role's reaction. -/
def isleStall (n at_ : Nat) (d : Dev) : Dev :=
  let u := d.isle n
  if u.istate = 0 || u.consec < d.f ⟨0x41100000, 16, 4⟩ + 1 then d
  else
    let d := d.setIsle n { u with istate := 0, stalled := true }
    match u.entry.role with
    | 1 => cellFault n 0x02 at_ d
    | 2 => lvbStop n at_ d
    | 3 => portFault u.entry.port 6 d
    | _ => d

/-- 03 R74. -/
def execIsleStall (n : Fin 256) (at_ : Nat) (s : State) : Host.Outcome State Fault Refusal := runCore s (isleStall n at_)

/-- 02 R55, 03 R73: an isle abandoned at T − guard keeps its state of the start of the tick, of which the key it posted last is part (DEDUCED,
log 88); what the ranking took stands. -/
def isleOverrun (n : Nat) (d : Dev) : Dev :=
  let u := d.isle n
  if u.istate = 0 || u.istate = 4 || u.gone then d
  else
    let u' := if u.istate = 1 then { u with cause := 1 }
      else { u with words := u.snapWords, nodes := u.snapNodes, chans := u.snapChans, key := u.snapKey, cause := if u.istate = 3 then 2 else 3 }
    let d := d.setIsle n { u' with gone := true, consec := satAdd 8 u.consec 1 }
    let d := (whenDo (u.istate != 1) (fun d => d.setF (efQueuedLast n) u.ef.queued) (d.raise (islStat n 0))).count tideOvr
    isleStall n d.window (islCount n ⟨islReg n 0x14, 0, 32⟩ d)

/-- 02 R55. -/
def guardExpiry (d : Dev) : Dev := forEach (d.isles.map (·.1)) isleOverrun d
/-- 02 R55. -/
def execTickGuardExpiry (s : State) : Host.Outcome State Fault Refusal := runCore s guardExpiry

/-- 04 R112: a violation that has stood in p consecutive ticks is declared; one declared acts again. -/
def execChRange (n : Fin 256) (c : Fin 8) (at_ : Nat) (s : State) : Host.Outcome State Fault Refusal := runCore s fun d =>
  let u := d.isle n
  let w := tget (fun _ => ({} : ChanU)) u.chans c
  let cd := (liveBank u).chans.getD c {}
  if w.viol < (if cd.act = 2 then 1 else cd.persist) || w.viol = 0 then d
  else rangeDeclared n c at_ (!w.range) (d.setIsle n { u with chans := tput (fun _ => {}) u.chans c { w with range := true } })

/-- 04 R113: values bit-identical over F consecutive ticks. -/
def execChStale (n : Fin 256) (c : Fin 8) (at_ : Nat) (s : State) : Host.Outcome State Fault Refusal := runCore s fun d =>
  let u := d.isle n
  let w := tget (fun _ => ({} : ChanU)) u.chans c
  let cd := (liveBank u).chans.getD c {}
  if cd.freeze = 0 || w.same < cd.freeze then d
  else freezeDeclared n c at_ (!w.stale) (d.setIsle n { u with chans := tput (fun _ => {}) u.chans c { w with stale := true } })

/-- 04 R123: node `j`'s window ends once W runs are in it. -/
def execOscWindowEnd (n : Fin 256) (j : Fin 16) (at_ : Nat) (s : State) : Host.Outcome State Fault Refusal := runCore s fun d =>
  let u := d.isle n
  let nd := (liveBank u).nodes.getD j {}
  let l := tget (fun _ => 0) u.words (nd.st + 1)
  if nd.typ != 10 || lineN l 16 16 < paramAt d u (nd.par + 2) || paramAt d u (nd.par + 2) = 0 then d
  else applyNode n j at_ (oscGives d u nd (tget (fun _ => 0) u.words nd.st)
    (oscWindow d u nd (lineN l 16 16) (lineN l 0 16) (lineN l 32 1) (lineN l 33 1))) d

/-- 04 R127: the newest word is older than its age limit: the flag of STRR node `j` is set and SW_STALE entered once. -/
def execSwStale (n : Fin 256) (j : Fin 16) (at_ : Nat) (s : State) : Host.Outcome State Fault Refusal := runCore s fun d =>
  let u := d.isle n
  let nd := (liveBank u).nodes.getD j {}
  let v := tget (fun _ => ({} : NodeU)) u.nodes j
  if nd.typ != 12 || v.stale || !(runStrr d u nd v).flag then d
  else
    let d := d.setIsle n { u with nodes := tput (fun _ => {}) u.nodes j { v with flag := true, stale := true } }
    fqEnter u.entry.string 0x10 0x1FF at_ (d.raise (lawStat n 6))

/-- 03 Table ISL-15: LAT_RST. -/
def latRst (n : Nat) (d : Dev) : Dev := (d.setF ⟨islReg n 0x18, 16, 16⟩ 0).modIsle n fun u => { u with latLoaded := false }
/-- 03 R94. -/
def execLatRst (n : Fin 256) (s : State) : Host.Outcome State Fault Refusal := runCore s (latRst n)

/-- OVR_LOCK of the set-up in force (13 Table SAF-8). -/
def ovrLock (d : Dev) : Bool := (leAt d.saf.spb 3 1).testBit 1
/-- 05 R150: `f` cycles after the edge. -/
def execEfOverrideWrite (n : Fin 256) (w : Word) (f : Nat) (s : State) : Host.Outcome State Fault Refusal := runCore s fun d =>
  (efOverride n w f (ovrLock d) d).2

/-! ### Strings -/

/-- 11 R338: the hops between the two devices furthest apart, `hops`, refuse PRECHARGE of a split string beyond 3, with CW_HOPS. -/
def hostCommand (s cmd hops : Nat) (others : Bool) (d : Dev) : Word × Dev :=
  if cmd = 2 && split (d.str s) && 3 < hops then (refusedCode, (d.raise (srtCmdRej s)).raise (cwStat 6)) else stringCommand s cmd others d
/-- R158: a host command through a register or an object. What no message tells of a split string's other devices is left open (log 86). -/
def hostWrite (s cmd hops : Nat) (d : Dev) : Word × Dev :=
  if split (d.str s) && (cmd = 2 || cmd = 3) then let x := d.draw 2; hostCommand s cmd hops (x.1 = 1) x.2 else hostCommand s cmd hops true d

/-- R158. -/
def execStringCmdOff (x : Fin 64) (s : State) : Host.Outcome State Fault Refusal := runCore s fun d => (stringCommand x 1 true d).2
/-- R158, R159, 11 R338. `others`: the string's other devices are in LOCKED without a halt bit of its nodes. -/
def execStringCmdPrecharge (x : Fin 64) (hops : Nat) (others : Bool) (s : State) : Host.Outcome State Fault Refusal :=
  runCore s fun d => (hostCommand x 2 hops others d).2
/-- R158, 02 R46. -/
def execStringCmdRun (x : Fin 64) (others : Bool) (s : State) : Host.Outcome State Fault Refusal := runCore s fun d => (stringCommand x 3 others d).2
/-- R158, R160. -/
def execStringCmdSafe (x : Fin 64) (s : State) : Host.Outcome State Fault Refusal := runCore s fun d => (stringCommand x 4 true d).2
/-- R181: `at_` counts after the edge. -/
def execBypassRequest (x : Fin 64) (pos : BitVec 9) (at_ : Nat) (s : State) : Host.Outcome State Fault Refusal := runCore s fun d =>
  (bypassRequest x pos.toNat at_ d).2

/-- R177: a re-spread ends once no surviving isle is awaited. -/
def respreadEnd (s : Nat) (d : Dev) : Dev :=
  match (d.str s).respread with
  | some r => if r.waiting.all fun n => (d.str s).excl.contains (d.isle n).entry.gPos then d.modStr s fun u => { u with respread := none } else d
  | none => d
/-- R177. -/
def execRespreadComplete (x : Fin 64) (s : State) : Host.Outcome State Fault Refusal := runCore s (respreadEnd x)

/-- R159: 16 consecutive ticks at or above V_pre. -/
def preDone (s : Nat) (d : Dev) : Dev :=
  if (d.str s).sstate = 1 && 16 ≤ (d.str s).preRun then d.modStr s fun u => { u with preDone := true } else d
/-- R159. -/
def execPreDone (x : Fin 64) (s : State) : Host.Outcome State Fault Refusal := runCore s (preDone x)

/-- R159: the precharge timeout, counted from the edge of entry, has expired at `now` counts of 2.5 ns. -/
def preTmo (s now : Nat) (d : Dev) : Dev :=
  let u := d.str s
  if u.sstate = 1 && !u.preDone && u.preTick + 4000000 * d.f (srtPreTmo s) ≤ now then announceSafe s 0x15 (stringSafe s 0x15 d) else d
/-- R159: `at_` counts after the edge. -/
def execPreTmo (x : Fin 64) (at_ : Nat) (s : State) : Host.Outcome State Fault Refusal := runCore s fun d => preTmo x (d.tide.abs + at_) d

/-! ### Causeway messages -/

/-- R168: a segment missing for the segment age limit. -/
def segLost (s at_ : Nat) (d : Dev) : Dev :=
  let u := d.str s
  if u.held && (otherSegs u).any fun i => d.f (srtAge s) ≤ (segOf u i).missing && 1 ≤ (segOf u i).missing then fqEnter s 0x11 0x1FF at_ d else d
/-- R168. -/
def execSegLost (x : Fin 64) (at_ : Nat) (s : State) : Host.Outcome State Fault Refusal := runCore s (segLost x at_)

/-- R341: the split string that a message names, `none` where this device holds none such. -/
def cwNames (h : CwHead) (d : Dev) : Bool :=
  let u := d.str h.string
  h.string < 64 && u.held && split u && u.defn.head = h.head
/-- R341: of the running generation and the variant in force. -/
def cwMatches (h : CwHead) (d : Dev) : Bool := h.gen = strGen d h.string % 1024 && h.variant = (d.str h.string).variant
/-- R340, R341: a message discarded or late is counted. -/
def cwMiss (n : Nat) (d : Dev) : Dev := (d.raise (cwStat 5)).count cwMissCnt n

/-- R167, R339 to R341: one part of a segment's list of this tick, whose last block arrives at `at_`; part 0 brings the totals `tot`. -/
def execCwListRx (h : CwHead) (part parts : Fin 4) (tot : CwTot) (cells : List CellKey) (at_ : Nat) (s : State) : Host.Outcome State Fault Refusal := runCore s fun d =>
  let d := consume 0x10 d
  let u := d.str h.string
  if !cwNames h d then cwMiss 1 d
  else if !cwMatches h d || h.tick != d.tide.k || u.cwPast || 2 * d.tc / 5 < at_ || !(otherSegs u).contains h.seg || parts.val ≤ part.val then d
  else
    let g := segOf u h.seg
    let got := (g.parts.filter fun p => p.1 ≠ part.val) ++ [(part.val, (⟨h.seg, cells, h.tick, h.gen, h.variant, tot⟩ : PartList))]
    let all : PartList := ⟨h.seg, got.flatMap (·.2.cells), h.tick, h.gen, h.variant, match got.find? fun p => p.1 = 0 with | some p => p.2.tot | none => {}⟩
    let g := { g with parts := got, now := if got.length = parts.val then some all else g.now }
    (d.count cwInTime).modStr h.string fun u => { u with segs := tput (fun _ => {}) u.segs h.seg g }

/-- R127, R161, R340: the string word and the head's state: stored while it is the newest; its state applies at the edge after its
tick. -/
def execCwWordRx (h : CwHead) (sstate : Fin 4) (fields integ : List Int) (s : State) : Host.Outcome State Fault Refusal := runCore s fun d =>
  let d := consume 0x11 d
  let u := d.str h.string
  if !cwNames h d then cwMiss 1 d
  else if !cwMatches h d || isHead u || (u.words.any fun w => h.tick ≤ w.tick) then d
  else
    let d := if d.tide.k ≤ h.tick then d.count cwInTime else cwMiss 1 d
    d.modStr h.string fun u => { u with words := (⟨fields, integ, h.tick⟩ :: u.words).take 2, headState := some (sstate, h.tick + 1) }

/-- R176: the edge at which an announced fault is applied. -/
def annEdge (tick stamp tc : Nat) : Nat := if 2 * stamp < tc then tick + 1 else tick + 2

/-- R176, R161: an announcement: of SAFE (`safe`), applied at the next edge, or of a cell fault, applied at its edge k_a; one that
comes after it takes the string to SAFE. -/
def execCwFaultRx (h : CwHead) (safe : Bool) (cause : BitVec 8) (pos : BitVec 16) (stamp at_ : Nat) (s : State) :
    Host.Outcome State Fault Refusal := runCore s fun d =>
  let d := consume 0x12 d
  let u := d.str h.string
  let ka := annEdge h.tick stamp d.tc
  if !cwNames h d then cwMiss 1 d
  else if !cwMatches h d then d
  else if safe then (d.count cwInTime).modStr h.string fun u => { u with annSafe := some cause.toNat }
  else if ka ≤ d.tide.k then fqEnter h.string 0x17 0x1FF at_ (cwMiss 1 d)
  else
    let d := d.count cwInTime
    if u.anns.any fun a => a.cause = cause.toNat && a.pos = pos.toNat && a.ka = ka then d
    else d.modStr h.string fun u => { u with anns := u.anns ++ [⟨cause.toNat, pos.toNat, h.tick, stamp, ka⟩] }

/-- R168, R340: 0.4 T after the edge: lists that have not come are missing. -/
def causewayDeadline (d : Dev) : Dev :=
  forEach d.heldStrings (fun s d =>
    let u := d.str s
    if !split u || u.cwPast then d
    else
      let d := d.modStr s fun u => { u with cwPast := true }
      let d := forEach (otherSegs u) (fun i d =>
        let g := segOf u i
        let miss := g.now.isNone
        let d := d.modStr s fun u => { u with segs := tput (fun _ => {}) u.segs i { g with missing := if miss then g.missing + 1 else 0 } }
        if miss then cwMiss 1 ((d.count (srtMergeStale s)).raise (srtEvt 1)) else d) d
      segLost s (2 * d.tc / 5) d) d
/-- R340. -/
def execCausewayDeadline (s : State) : Host.Outcome State Fault Refusal := runCore s causewayDeadline

end Sys2Proof.Machine
end

