-- ==== Sys2Proof/Machine/PlanImage.lean ====
section
/-! DEFINITION. Plan images: reading a graph bank from its bytes (03 Table ISL-4, 04 Tables CTL-1 and CTL-5, 05 Tables MOD-1 to
MOD-3) and the staging checks of 03 R85 in their order. -/
namespace Sys2Proof.Machine

/-- A signed 16-bit number in bytes i, i+1. -/
def leI (l : List Byte) (i : Nat) : Int := signed 16 (leAt l i 2)

/-- 04 Table CTL-1. -/
def readNode (b : List Byte) (i : Nat) : NodeDef :=
  let l := slice b (64 + 32 * i) 32
  let f := leAt l 1 1
  { typ := leAt l 0 1, ctx := f % 8, leadOnly := f.testBit 3, efBind := f.testBit 4, bumpless := f.testBit 5, slot := leAt l 2 1,
    srcs := (List.range 4).map fun j => leAt l (4 + 2 * j) 2, par := leAt l 12 2 / 2, nPar := leAt l 14 1, st := leAt l 16 2,
    nSt := leAt l 18 1, hold := leAt l 20 2 }
/-- 04 Table CTL-5. -/
def readChan (b : List Byte) (i : Nat) : ChanDef :=
  let l := slice b (1600 + 16 * i) 16
  { base := BitVec.ofNat 32 (leAt l 0 4), lo := leI l 4, hi := leI l 6, ac := leAt l 8 2, persist := leAt l 10 1 % 16 + 1,
    checked := leAt l 10 1 / 16 % 4, act := leAt l 11 1 % 4, freeze := leAt l 12 1, fact := leAt l 13 1 % 4 }
/-- 05 Table MOD-2. -/
def readGroup (e : List Byte) (i : Nat) : GroupDef :=
  let l := slice e (8 + 16 * i) 16
  let f := leAt l 12 1
  { period := leAt l 0 4, theta0 := leAt l 4 4, span := leAt l 8 4, reload := f % 4, psc := f.testBit 2, dither := f.testBit 3 }
/-- 05 Table MOD-3. -/
def readPair (e : List Byte) (i : Nat) : PairDef :=
  let l := slice e (72 + 16 * i) 16
  { group := leAt l 0 1, square := leAt l 1 1 = 1, slot := leAt l 2 1, mapping := leAt l 3 1, td := leAt l 4 2, tmin := leAt l 6 2,
    off := leAt l 8 4, swap := (leAt l 12 1).testBit 0, inv := (leAt l 12 1).testBit 1 }
/-- 05 Table MOD-1; a port isle's set holds initial slot values only (14 R415). -/
def readEf (role : Nat) (b : List Byte) : EfSet :=
  let e := slice b 1728 216
  let init := (List.range 16).map fun j => leI e (168 + 2 * j)
  if role = 3 then { init := init, eMax := 0 }
  else
    { groups := (List.range (leAt e 0 1)).map (readGroup e), pairs := (List.range (leAt e 1 1)).map (readPair e),
      compat := (leAt e 2 1).testBit 0, eMax := leAt e 4 2, lead := leAt e 6 2, init := init }

/-- 03 R63: the static cost. -/
def staticCost (nodes : List NodeDef) (ef : EfSet) : Nat := (nodes.map fun m => nodeCost m.typ).sum + 6 * ef.eMax + 32

/-- 03 Table ISL-4. -/
def readBank (role : Nat) (b : List Byte) : Bank :=
  let nodes := (List.range (leAt b 10 1)).map (readNode b)
  let ef := readEf role b
  { law := leAt b 4 2, modn := leAt b 6 2, cost := staticCost nodes ef, nCtx := leAt b 11 1, nodes := nodes,
    params := (List.range 512).map fun j => leAt b (576 + 2 * j) 2, chans := (List.range 8).map (readChan b), ef := ef,
    carry := slice b 1944 96, bytes := b, sound := true }

/-! ### Group 0x0A30_0001: format -/

/-- Parameter words and state words of a node type (04 R117 to R127, 06 Table BAL-4, Table CTL-4). -/
def typeSizes : Nat → Option (Nat × Nat)
  | 1 => some (10, 1) | 2 => some (2, 1) | 3 => some (1, 1) | 4 => some (0, 0) | 5 => some (8, 0) | 6 => some (1, 0)
  | 7 => some (1, 0) | 8 => some (5, 1) | 9 => some (2, 0) | 10 => some (6, 2) | 11 => some (6, 1) | 12 => some (2, 0)
  | 13 => some (2, 0) | _ => none

/-- 04 R116, R102, 06 Table BAL-4: is `v` legal for parameter word `w` of a node of type `t`? -/
def parOk (t w v : Nat) : Bool :=
  let pos := within 1 v 32767
  let nonneg := decide (v ≤ 32767)
  match t with
  | 1 => w % 2 = 0 || v < 16
  | 2 => pos
  | 3 => pos
  | 5 => w % 2 = 0 || v < 16
  | 6 => v < 16
  | 7 => v < 4
  | 8 => w = 0 || w = 2 || w = 4 || v < 16
  | 9 => w != 0 || v ≤ 16384
  | 10 => match w with | 0 => pos | 1 => pos | 2 => within 8 v 1024 | 3 => within 2 v 255 | 4 => v < 4 | _ => nonneg
  | 11 => match w with | 0 => true | 1 => v < 16 | _ => nonneg
  | 12 => if w = 0 then v < 4 else within 1 v 8
  | _ => true

/-- 04 R105: a source code that node `i` may read. -/
def srcOk (i c : Nat) : Bool :=
  let x := c % 4096
  match c / 4096 with
  | 0 => x = 0 | 1 => x < 8 | 2 => x < 8 | 3 => x < i | 4 => x < 16 | 5 => x < i | 6 => x < 512 | 7 => x < 4 | 8 => x < 64
  | 9 => x < 32 | 10 => x < 4 | _ => false

/-- 04 R126: the integrator words of an STRW node. -/
def strwOk (b : Bank) (nd : NodeDef) : Bool :=
  let w (i : Nat) : Nat := b.params.getD (nd.par + i) 0
  let ok (v : Nat) : Bool := v = 0xFF || (v < 16 && match b.nodes[v]? with | some m => m.typ = 1 && m.leadOnly | none => false)
  ok (w 0) && ok (w 1) && (w 0 != w 1 || w 0 = 0xFF)

/-- 04 R104, R105, R116, R118, R126, R625, 06 R162: node `i`. -/
def nodeOk (role : Nat) (raw : List Byte) (b : Bank) (i : Nat) : Bool :=
  let nd := b.nodes.getD i {}
  let l := slice raw (64 + 32 * i) 32
  match typeSizes nd.typ with
  | none => false
  | some (np, ns) =>
    leAt l 1 1 < 64 && nd.slot < 16 && leAt l 3 1 = 0 && leAt l 12 2 % 2 = 0 && leAt l 15 1 = 0 && leAt l 19 1 = 0 &&
    leAt l 22 10 = 0 && nd.nPar = np && nd.nSt = ns && nd.par + np ≤ 512 && (ns = 0 || (256 ≤ nd.st && nd.st + ns ≤ 1024)) &&
    nd.srcs.all (srcOk i) && srcOk i nd.hold && (!nd.bumpless || (nd.typ = 1 && nd.hold / 4096 != 0)) &&
    ((List.range np).all fun w => parOk nd.typ w (b.params.getD (nd.par + w) 0)) && (nd.typ != 13 || (strwOk b nd && nd.leadOnly)) &&
    (role = 1 || !(nd.typ = 11 || nd.typ = 12 || nd.typ = 13 || nd.leadOnly)) &&
    (nd.typ != 11 || nd.srcs.getD 1 0 / 4096 = 1 || nd.srcs.getD 1 0 / 4096 = 2)

/-- 04 R106: the context table, all eight words of it. -/
def ctxOk (b : Bank) : Bool :=
  (List.range 8).all fun x => let c := b.params.getD x 0; c < 256 && c / 16 ≤ c % 16

/-- 04 R111: channel `i`. -/
def chanOk (raw : List Byte) (i : Nat) : Bool :=
  let l := slice raw (1600 + 16 * i) 16
  leAt l 8 2 < 32768 && leAt l 10 1 < 48 && leAt l 11 1 < 3 && leAt l 12 1 != 1 && leAt l 13 1 < 3 && leAt l 14 2 = 0

/-- 05 R131, R132: group `i`. -/
def groupOk (role tc : Nat) (e : List Byte) (s : EfSet) (i : Nat) : Bool :=
  let g := s.groups.getD i {}
  let l := slice e (8 + 16 * i) 16
  g.period % 2 = 0 && 1 ≤ g.period && g.theta0 < 16 * g.period && g.span < 2 * tc && leAt l 12 1 < 16 && leAt l 13 3 = 0 &&
    g.reload != 0 && (role = 1 || !g.psc) && s.pairs.all fun p => p.group != i || 4 * (p.td + p.tmin) ≤ g.period
/-- 05 R131, R132: pair `i`. -/
def pairOk (e : List Byte) (s : EfSet) (i : Nat) : Bool :=
  let p := s.pairs.getD i {}
  let l := slice e (72 + 16 * i) 16
  p.group < s.groups.length && leAt l 1 1 < 2 && p.slot < 16 && within 20 p.td 4000 && p.tmin ≤ 4000 &&
    p.off < 16 * (s.groups.getD p.group {}).period && (p.square || p.off = 0) && leAt l 12 1 < 4 && leAt l 13 3 = 0 &&
    (if p.square then p.mapping = 0 || p.mapping = 4 else within 1 p.mapping 3)
/-- 05 R132, 14 R415: the edge-former set. -/
def efOk (role tc : Nat) (raw : List Byte) (s : EfSet) : Bool :=
  let e := slice raw 1728 216
  if role = 3 then (e.take 168).all (· = 0) && (e.drop 176).all (· = 0)
  else
    within 1 (leAt e 0 1) 4 && 1 ≤ leAt e 1 1 && leAt e 2 1 < 2 && leAt e 3 1 = 0 && within 1 s.eMax 64 && within 80 s.lead 4000 &&
      leAt e 200 16 = 0 && (List.range s.groups.length).all (groupOk role tc e s) && (6 < s.pairs.length || (List.range s.pairs.length).all (pairOk e s))

/-- The format of one isle's block; more nodes or pairs than an isle has are group 0x0A30_0003's, and none of them is judged here. -/
def bankOk (tc : Nat) (x : ImgIsle) : Bool :=
  let b := readBank x.entry.role x.bytes
  leAt x.bytes 12 52 = 0 && leAt x.bytes 2040 4 = 0 && ctxOk b && (List.range 8).all (chanOk x.bytes) &&
    efOk x.entry.role tc x.bytes b.ef &&
    (16 < b.nodes.length || ((List.range b.nodes.length).all (nodeOk x.entry.role x.bytes b) &&
      (x.entry.role != 1 || b.nodes.countP (fun m => m.typ = 11) = 1)))

/-- Ranges of an isle entry (03 Table ISL-10). -/
def entryOk (x : ImgIsle) : Bool :=
  let e := x.entry
  e.role < 4 && e.ring < 16 && e.node < 16 && e.string < 64 && e.segPos < 128 && e.gPos < 512 && e.phase < 512 && e.port < 4

/-- Each variant with the bank of each isle whose parameters it may override (06 R178). -/
def variantBanks (i : PlanImage) : List (Variant × Bank) :=
  i.strings.flatMap fun s => s.entry.variants.flatMap fun v =>
    (i.isles.filter fun x => x.entry.role = 1 && x.entry.string = s.num).map fun x => (v, readBank 1 x.bytes)
/-- The parameters of a bank under a variant (06 R178). -/
def ovrBank (b : Bank) (v : Variant) : Bank :=
  { b with params := v.ovrs.foldl (fun ps o => ps.set ((b.nodes.getD o.node {}).par + o.word) o.value) b.params }
/-- 06 R178, 04 R116, R126: a variant's overrides set values that their parameters may have. -/
def ovrsOk (x : Variant × Bank) : Bool :=
  let node (o : Ovr) : NodeDef := x.2.nodes.getD o.node {}
  x.1.ovrs.all (fun o => (node o).nPar ≤ o.word || (parOk (node o).typ o.word o.value && ((node o).typ != 13 || strwOk (ovrBank x.2 x.1) (node o))))

/-- A variant's own fields have the form of Table BAL-7: κ a coefficient, λ a Q15 from 0. -/
def variantOk (v : Variant) : Bool :=
  decide (-32768 ≤ v.kMant) && decide (v.kMant ≤ 32767) && decide (-8 ≤ v.kShift) && decide (v.kShift ≤ 7) && decide (0 ≤ v.lambda) && decide (v.lambda ≤ 32767)

def stage1 (d : Dev) (i : PlanImage) : Bool :=
  i.sound && i.isles.all (fun x => entryOk x && (x.entry.role = 0 || x.bytes.length != 2048 || bankOk d.tc x)) &&
    (variantBanks i).all ovrsOk &&
    i.strings.all fun s => s.entry.variants.all variantOk && s.entry.variants.head?.all fun v => v.kMant = 16384 && v.kShift = 1

/-! ### Groups 0x0A30_0002 to 0x0A30_0008 -/

/-- The variant byte of the fuses (20 Table MPT-5, R579): IZ7128. -/
def isHalf (d : Dev) : Bool := d.banks.any fun b => b.getD 255 0 = 0x28
/-- 01 R4: an IZ7128 has isles 0 to 127. -/
def stage2 (d : Dev) (i : PlanImage) : Bool := i.isles.all fun x => x.num < (if isHalf d then 128 else 256)

def stage3 (i : PlanImage) : Bool :=
  i.isles.all (fun x => x.entry.role = 0 || (x.bytes.length = 2048 && within 1 (leAt x.bytes 10 1) 16 && within 1 (leAt x.bytes 11 1) 8 &&
      (x.entry.role = 3 || leAt x.bytes 1729 1 ≤ 6))) &&
    (variantBanks i).all fun x => x.1.ovrs.all fun o => o.word < (x.2.nodes.getD o.node {}).nPar

/-- 03 R63: C within COST_LIMIT of the window at the T and guard in force. -/
def stage4 (d : Dev) (i : PlanImage) : Bool :=
  i.isles.all fun x => x.entry.role = 0 || (readBank x.entry.role x.bytes).cost * 100 ≤ d.window * d.f ⟨0x41100000, 8, 8⟩

/-- No value twice. -/
def allDiff : List Nat → Bool
  | [] => true
  | a :: t => !t.contains a && allDiff t

/-- 03 R78. -/
def stage5 (d : Dev) (i : PlanImage) : Bool :=
  let own := i.isles.filter fun x => x.entry.role = 1 || x.entry.role = 2
  allDiff (i.isles.map (·.num)) && allDiff (own.map fun x => 16 * x.entry.ring + x.entry.node) &&
    own.all (fun x => x.entry.node < nodesOf x.entry.ring d) &&
    allDiff ((i.isles.filter fun x => x.entry.role = 3).map (·.entry.port)) &&
    i.isles.all fun y =>
      let cs := i.isles.filter fun x => x.entry.role = 1 && x.entry.string = y.entry.string
      y.entry.role != 1 || (allDiff (cs.map (·.entry.gPos)) && allDiff (cs.map (·.entry.phase)))

/-- 06 R179: reference and trim of the string's TRIM nodes fit under the variant. -/
def headroomOk (i : PlanImage) (s : ImgString) (v : Variant) : Bool :=
  if s.entry.nlc then decide ((v.lambda * s.entry.n + 16384) / 32768 ≤ v.nv)
  else
    (i.isles.filter fun x => x.entry.role = 1 && x.entry.string = s.num).all fun x =>
      let b := readBank 1 x.bytes
      (List.range b.nodes.length).all fun j =>
        let nd := b.nodes.getD j {}
        let p (w : Nat) : Int := signed 16 (match (v.ovrs.filter fun o => o.node = j && o.word = w).getLast? with
          | some o => o.value
          | none => b.params.getD (nd.par + w) 0)
        let sum : Int := stored15 (mac v.kMant v.kShift v.lambda) + p 2
        nd.typ != 11 || decide (sum ≤ p 4)

/-- 03 R79, R80, 06 R178, R179. A single-device string has exactly N cells, a phase order names N slots, each once, and each cell entry shows
the slot that the order of an entry of its string gives its position (DESIGN CHOICE, log 89: the rules do not say that they agree). -/
def stage6 (i : PlanImage) : Bool :=
  allDiff (i.strings.map (·.num)) &&
  i.isles.all (fun x => x.entry.role != 1 ||
    match i.strings.find? (fun s => s.num = x.entry.string) with | some s => s.entry.order.getD x.entry.gPos 512 = x.entry.phase | none => false) &&
  i.strings.all fun s =>
    let e := s.entry
    let cs := i.isles.filter fun x => x.entry.role = 1 && x.entry.string = s.num
    s.num < 64 && within 1 cs.length 128 && within 1 e.segs 4 && e.segIdx < e.segs && within 2 e.n 512 && e.spares < e.n && e.head < 4096 &&
      e.order.length = e.n && allDiff e.order && e.variants.all (fun v => within 2 v.nv 512) && (e.segs != 1 || cs.length = e.n) && e.devices.length = e.segs &&
      e.variants.map (·.nv) = (List.range (1 + min e.spares 2)).map (e.n - ·) &&
      e.variants.all fun v => v.ovrs.length ≤ 8 && headroomOk i s v

/-- 02 R52. -/
def stage7 (d : Dev) (i : PlanImage) : Bool :=
  i.isles.all fun x => x.entry.role = 0 || (readBank x.entry.role x.bytes).ef.groups.all fun g => ratioOk d.tc g.period

/-- 01 R26: the quadrant of isle `n` and the Narrows domain of its ring. -/
def islePowered (d : Dev) (n : Nat) (e : IsleEntry) : Bool :=
  d.domOn (4 + n / 64) && (e.role = 3 || d.domOn (if e.ring < 8 then 8 else 9))
def stage8 (d : Dev) (i : PlanImage) : Bool := i.isles.all fun x => x.entry.role = 0 || islePowered d x.num x.entry

/-- 03 R85 step 1: the code of the lowest group that fails, 0 for none. -/
def stageCode (d : Dev) (i : PlanImage) : Word :=
  if !stage1 d i then 0x0A300001 else if !stage2 d i then 0x0A300002 else if !stage3 i then 0x0A300003
  else if !stage4 d i then 0x0A300004 else if !stage5 d i then 0x0A300005 else if !stage6 i then 0x0A300006
  else if !stage7 d i then 0x0A300007 else if !stage8 d i then 0x0A300008 else 0

/-- 03 Table ISL-4: a block as the loader writes it: its G, the bytes of the image, the CRC-32C over them (DEDUCED, log 90). -/
def sealBank (g : Nat) (l : List Byte) : List Byte :=
  let b := leBytes 4 g ++ slice l 4 2040
  b ++ leBytes 4 (crc32c b)

/-- 03 R66: the bank verifies by its CRC. -/
def bankVerifies (b : Bank) : Bool := b.sound && crc32c (b.bytes.take 2044) = leAt b.bytes 2044 4

/-- The plan of an image under generation `g`; isles of role unused are left out. -/
def planOf (g : Nat) (i : PlanImage) : Plan :=
  { gen := g, drivers := i.drivers, strings := i.strings.map fun s => (s.num, s.entry),
    isles := (i.isles.filter fun x => x.entry.role != 0).map fun x =>
      (x.num, x.entry, { readBank x.entry.role (sealBank g x.bytes) with gen := g }) }

end Sys2Proof.Machine
end

