-- ==== Sys2Proof/Machine/CellMap.lean ====
section
/-! DEFINITION. Plan generations (03 R83 to R95): staging, loading, the commit request, the flips at k_c and the completion. -/
namespace Sys2Proof.Machine

def islcReg (off : Nat) : Nat := primAddr .islc 0 off
def mapDone : Fld := ⟨islcReg 0x18, 0, 32⟩

/-- The same bank content, whatever the generation (R85). -/
def sameBank (a b : Bank) : Bool := slice a.bytes 4 2040 = slice b.bytes 4 2040

/-- A plan's isle, an unused one where it names none. -/
def planIsle (p : Plan) (n : Nat) : IsleEntry × Bank := ((p.isles.find? fun x => x.1 = n).map (·.2)).getD ({}, {})
def planString (p : Plan) (s : Nat) : Option StringEntry := (p.strings.find? fun x => x.1 = s).map (·.2)

/-- R85: an isle is affected where its entry or bank differs from what it runs, or where it holds UE_STOP. -/
def affected (p : Plan) (n : Nat) (d : Dev) : Bool :=
  let u := d.isle n
  let x := planIsle p n
  u.entry != x.1 || (x.1.role != 0 && !sameBank (liveBank u) x.2) || u.ueStop

/-- Loads in progress and pending banks are given up. -/
def dropLoads (d : Dev) : Dev :=
  forEach (d.isles.map (·.1)) (fun n d => d.modIsle n fun u => { u with loading := false, verified := false, pendCost := 0 }) d

/-- R85 step 3: the loader starts on a plan, which becomes the staged generation. Unused isles have no block to load. -/
def startLoad (p : Plan) (d : Dev) : Dev :=
  let todo := (p.isles.map (·.1)).filter fun n => affected p n d
  let d := dropLoads d
  let d := forEach todo (fun n d => d.modIsle n fun u => { u with loading := true, pendCost := (planIsle p n).2.cost }) d
  { d with plan := { d.plan with staged := some p, state := if todo.isEmpty then 2 else 1 } }

/-- R84, R85: an image is staged under generation `g`; an active device mirrors it (12 R359). -/
def stageAs (g : Nat) (i : PlanImage) (d : Dev) : Word × Dev :=
  if d.plan.state = 3 then (refusedCode, d)
  else
    let c := stageCode d i
    if c != 0 then (c, d)
    else (0, mirror (.image g i) (startLoad (planOf g i) { d with plan := { d.plan with gLast := max d.plan.gLast g } }))
/-- R83 to R85: an image from the host takes the next generation. -/
def stageImage (i : PlanImage) (d : Dev) : Word × Dev := stageAs (d.plan.gLast + 1) i d

/-- R85: the plan state leaves LOADING when no load is left. -/
def loadsDone (d : Dev) : Dev :=
  if d.plan.state = 1 && !(d.isles.any fun e => e.2.loading) then { d with plan := { d.plan with state := 2 } } else d

/-- R64, R65, R85: the load of isle `n` ends: its pending bank is written and verified (`ok`), or it failed. -/
def loadDone (n : Nat) (ok : Bool) (d : Dev) : Dev :=
  let u := d.isle n
  match d.plan.staged with
  | none => d
  | some p =>
    if !u.loading then d
    else
      let b := (planIsle p n).2
      let u := { u with loading := false, verified := ok, pendCost := b.cost }
      let u := if !ok then u else if u.liveB then { u with bankA := b } else { u with bankB := b }
      loadsDone (d.setIsle n u)
/-- R85. -/
def execIsleLoadDone (n : Fin 256) (ok : Bool) (s : State) : Host.Outcome State Fault Refusal := runCore s (loadDone n ok)

/-- R84: ABORT. -/
def planAbort (d : Dev) : Dev :=
  if d.plan.state = 1 || d.plan.state = 2 then
    let d := dropLoads d
    { d with plan := { d.plan with staged := none, state := 0 } }
  else d
/-- R84. -/
def execAbort (s : State) : Host.Outcome State Fault Refusal := runCore s planAbort

/-! ### Flip units -/

/-- R88: the unit of isle `n`: its string's, or its own (64 + n). An isle that leaves or changes its string goes with the string it
is to have, else with the one it had. -/
def unitOf (old new : IsleEntry) (n : Nat) : Nat :=
  if new.role = 1 then new.string else if new.role = 0 && old.role = 1 then old.string else 64 + n

/-- The isles that a plan touches: those it names and those now in use. -/
def planIsles (p : Plan) (d : Dev) : List Nat :=
  distinct (p.isles.map (·.1) ++ d.isles.filterMap fun e => if e.2.entry.role != 0 then some e.1 else none)
def unitIsles (p : Plan) (w : Nat) (d : Dev) : List Nat :=
  (planIsles p d).filter fun n => unitOf (d.isle n).entry (planIsle p n).1 n = w
/-- The generation is live in the unit already: its isles run it and no isle or string is to leave. -/
def unitLive (p : Plan) (w : Nat) (d : Dev) : Bool :=
  (unitIsles p w d).all (fun n => (d.isle n).gen = p.gen && (planIsle p n).1.role != 0) &&
    (64 ≤ w || ((d.str w).held = (planString p w).isSome))
/-- The units that a generation affects. -/
def planUnits (p : Plan) (d : Dev) : List Nat :=
  (distinct ((planIsles p d).map (fun n => unitOf (d.isle n).entry (planIsle p n).1 n) ++ d.heldStrings)).filter fun w => !unitLive p w d

/-- R87: an isle's role, ring, node or string changes. -/
def reassigned (p : Plan) (n : Nat) (d : Dev) : Bool :=
  let a := (d.isle n).entry
  let b := (planIsle p n).1
  a.role != b.role || a.ring != b.ring || a.node != b.node || a.string != b.string
/-- R87: the strings an isle has under either generation are OFF or SAFE. -/
def stringsIdle (p : Plan) (n : Nat) (d : Dev) : Bool :=
  let idle (e : IsleEntry) : Bool := e.role != 1 || (d.str e.string).sstate = 0 || (d.str e.string).sstate = 3
  idle (d.isle n).entry && idle (planIsle p n).1
/-- R86 check 5: domains. -/
def unitPowered (p : Plan) (w : Nat) (d : Dev) : Bool :=
  (unitIsles p w d).all fun n => (planIsle p n).1.role = 0 || islePowered d n (planIsle p n).1

/-- The held plan of a generation (R84). -/
def heldPlan (g : Nat) (d : Dev) : Option Plan := (d.plan.staged.toList ++ d.plan.held).find? fun p => p.gen = g

/-- R86, R87: the code that refuses a commit request, and whether check 4 alone fails. The commit of BOOT (20 Table MPT-3, stage 9) passes
check 1. -/
def commitRefusal (g kc : Nat) (d : Dev) : Word × Bool :=
  if (d.mode < 2 && d.pow.stage != 9) || 5 < d.mode then (refusedCode, false)
  else if d.plan.state = 1 || d.plan.state = 3 then (refusedCode, false)
  else match heldPlan g d with
    | none => (0x0A30000A, false)
    | some p =>
      let units := planUnits p d
      let four := ((d.plan.staged.map (·.gen)) = some g && d.plan.state = 2) || units.isEmpty
      let rest : Word :=
        if !(units.all fun w => unitPowered p w d) then 0x0A300008
        else if (units.flatMap fun w => unitIsles p w d).any fun n => reassigned p n d && !stringsIdle p n d then refusedCode
        else if kc != 0 && kc < d.tide.k + 2 then 0x0A300009 else 0
      if !four then (refusedCode, rest = 0) else (rest, false)

/-- R86, R95: a commit request. `tx`: the journal sequence of the transaction's entry; `mir`: it came by MIR_CFG. -/
def commitRequest (g kc : Nat) (tx : Option Nat) (mir : Bool) (d : Dev) : Word × Dev :=
  let r := commitRefusal g kc d
  if r.1 != 0 then
    let d := (d.setF mapDone r.1.toNat).raise ⟨islcReg 4, 2, 1⟩
    (r.1, match heldPlan g d with | some p => if r.2 then startLoad p d else d | none => d)
  else
    let p := (heldPlan g d).getD ⟨0, [], [], []⟩
    let units := planUnits p d
    let k := if kc = 0 then d.tide.k + 2 else kc
    (0, mirror (.commit g k) { d with plan := { d.plan with
      state := 3, kc := k, target := some p, flipped := [], flips := 0, units := units.length,
      partOf := units.flatMap fun w => unitIsles p w d, txSeq := tx, mirrored := mir, done := 0 } })

/-- R95: COMMIT of the generation and tick that the registers hold. -/
def commitRegs (d : Dev) : Word × Dev :=
  commitRequest (d.f ⟨islcReg 0x1C, 0, 32⟩) (d.f ⟨islcReg 0x10, 0, 32⟩ + 2 ^ 32 * d.f ⟨islcReg 0x14, 0, 16⟩) none false d
/-- R95. -/
def execCommit (s : State) : Host.Outcome State Fault Refusal := runCore s fun d => (commitRegs d).2

/-! ### The flip and its completion -/

/-- R66, R88: the pending bank, loaded, verifies by its CRC in this cycle. -/
def pendingOk (u : IsleU) : Bool := u.verified && !u.loading && bankVerifies (if u.liveB then u.bankA else u.bankB)

/-- R88: may unit `w` flip? `react`: the strings whose evaluation at this edge reacted to an entry. -/
def mayFlip (p : Plan) (react : List Nat) (w : Nat) (d : Dev) : Bool :=
  let ns := unitIsles p w d
  let u := d.str w
  let live := u.sstate = 1 || u.sstate = 2
  ns.all (fun n => (planIsle p n).1.role = 0 || !affected p n d || pendingOk (d.isle n)) && unitPowered p w d &&
    ns.all (fun n => !reassigned p n d || stringsIdle p n d) &&
    (64 ≤ w || (!react.contains w && u.respread.isNone &&
      (!live || match planString p w with | some e => u.variant < e.variants.length | none => false)))

/-- R89: isle `n` of a unit that flips: its pending bank becomes live; one of role unused stops and keeps what no bank replaces. An STRR node, which
has no state words, is given a first run too, so that its count of ticks without a word starts afresh (04 R110, R127; DESIGN CHOICE, log 91). -/
def flipIsle (p : Plan) (n : Nat) (d : Dev) : Dev :=
  let u := d.isle n
  let x := planIsle p n
  if x.1.role = 0 then d.setIsle n { u with
    gen := p.gen, entry := {}, istate := 0, stalled := false, consec := 0, pendCost := 0, verified := false, lead := false, key := none, posted := false }
  else
    let aff := affected p n d
    let out := x.1.role = 1 && (d.str x.1.string).excl.contains x.1.gPos
    let stopped := u.istate = 0
    let moved := u.entry.role != x.1.role || u.entry.string != x.1.string
    let u := if !aff then u
      else { u with
        liveB := !u.liveB, ueStop := false, verified := false, chans := [], entry := x.1, lead := u.lead && !moved
        ef := newSet (liveBank u).ef x.2.ef u.ef
        nodes := forUpTo 16 (fun i t => tmod (fun _ => {}) t i fun v => { v with first := max v.first 1 }) u.nodes }
    let u := { u with gen := p.gen, stalled := false, consec := 0, pendCost := 0 }
    d.setIsle n (if stopped && !out then leaveStopped u else u)

/-- R88, R89: unit `w` flips: its isles and, for a string, its entry; a live string's change is a re-spread (R87). -/
def flipUnit (p : Plan) (w : Nat) (d : Dev) : Dev :=
  let ns := unitIsles p w d
  let d := forEach ns (fun n d => flipIsle p n d) d
  let d := forEach (d.heldStrings.filter (· ≠ w)) setLead d
  let d :=
    if 64 ≤ w then d
    else match planString p w with
      | none => d.setStr w {}
      | some e =>
        let u := d.str w
        let live := u.sstate = 1 || u.sstate = 2
        let changed := live && (u.defn.order != e.order || u.defn.variants != e.variants)
        let d := d.setStr w { u with defn := e, held := true }
        let d := pushVariant w d
        if changed then
          let d := d.modStr w fun u => { u with respread := some ⟨d.tide.k, d.active w⟩ }
          let d := ((d.setF (srtRspLo w) (d.tide.k % 2 ^ 32)).setF (srtRspHi w) (d.tide.k / 2 ^ 32)).count (srtRspCnt w)
          d.raise (srtEvt 2)
        else d
  { d with plan := { d.plan with flipped := d.plan.flipped ++ ns, flips := d.plan.flips + 1 } }

/-- R88: the flips of a commit due at this edge, judged unit by unit on the state before any flips. -/
def commitFlips (react : List Nat) (d : Dev) : Dev :=
  match d.plan.target with
  | none => d
  | some p =>
    if d.plan.state != 3 || d.tide.k < d.plan.kc || d.plan.done != 0 then d
    else
      let units := (planUnits p d).filter fun w => mayFlip p react w d
      let d := forEach units (fun w d => flipUnit p w d) d
      { d with plan := { d.plan with done := 1 } }

/-- The 256-bit applied mask of a list of isles (R91). -/
def maskOf (l : List Nat) : Nat := l.foldl (fun m n => if n < 256 then m ||| 2 ^ n else m) 0

/-- 18 R539, 21 R606: the MASK entry, and the TX entry that it completes. -/
def maskEntry (code : Word) (mask : Nat) (d : Dev) : Dev :=
  let ref : Nat := match d.plan.txSeq with | some t => d.jrn.seq + 1 - t | none => 0
  let d := jAppend { kind := 4, st := 1, result := code, maskRef := ref, mask := leBytes 32 mask } d
  let d := match d.plan.txSeq with
    | some t => jRewrite t (fun e => { e with maskRef := ref }) d
    | none => d
  { d with plan := { d.plan with txSeq := none, due := none } }

/-- R91, 18 R537, R539, 21 R606: the commit completes at the edge after its flips. One that no unit applied is no committed generation to R84: the
images held stay (DESIGN CHOICE, log 92). -/
def commitComplete (d : Dev) : Dev :=
  match d.plan.target with
  | none => d
  | some p =>
    if d.plan.state != 3 || d.plan.done = 0 || d.tide.k ≤ d.plan.kc then d
    else
      let code : Word := if d.plan.flips = d.plan.units then 0 else if d.plan.flips = 0 then 0x0A300011 else 0x0A300010
      let mask := maskOf (d.plan.flipped.filter d.plan.partOf.contains)
      let d := d.setF mapDone code.toNat
      let d := d.setF ⟨islcReg 0xC, 0, 32⟩ (p.gen % 2 ^ 32)
      let d := forUpTo 8 (fun i d => d.wr (islcReg (0x20 + 4 * i)) (BitVec.ofNat 32 (mask / 2 ^ (32 * i)))) d
      let held := if d.plan.flips = 0 && d.plan.units != 0 then d.plan.held
        else (p :: d.plan.held.filter fun q => q.gen != p.gen).take 2
      let d := if d.pow.restart then { d with plan := { d.plan with due := some (code, mask) } } else maskEntry code mask d
      let d := { d with plan := { d.plan with held := held, target := none, mask := mask, mirrored := false, done := 0 } }
      if code = 0 then
        { d with plan := { d.plan with state := 0, staged := if (d.plan.staged.map (·.gen)) = some p.gen then none else d.plan.staged } }
      else
        let left := (planUnits p d).flatMap fun w => unitIsles p w d
        let todo := left.filter fun n => (planIsle p n).1.role != 0 && affected p n d && !pendingOk (d.isle n)
        let d := forEach todo (fun n d => d.modIsle n fun u => { u with loading := true, pendCost := (planIsle p n).2.cost }) d
        { d with plan := { d.plan with staged := some p, state := if todo.isEmpty then 2 else 1 } }

end Sys2Proof.Machine
end

