-- ==== Sys2Proof/Machine/Narrows.lean ====
section
/-! DEFINITION. The ring engines of the device (08): frames, ranging, bring-up, records, the service channel; and the halt matrix's
commands (09). -/
namespace Sys2Proof.Machine

def nrwF (r off lo w : Nat) : Fld := ⟨nrwReg r off, lo, w⟩
def nrwStat (r i : Nat) : Fld := nrwF r 4 i 1
def nrwState (r : Nat) : Fld := nrwF r 4 0 2
def nrwEn (r : Nat) : Fld := nrwF r 0 0 1
def nrwNode (r i lo w : Nat) : Fld := nrwF r (0x80 + 4 * i) lo w
def nodeCapErr (r i : Nat) : Fld := nrwNode r i 23 1
def nodeMiss (r i : Nat) : Fld := nrwNode r i 24 8

def rnode (u : RingU) (i : Nat) : RNode := tget (fun _ => {}) u.nodes i
def Dev.modRnode (d : Dev) (r i : Nat) (f : RNode → RNode) : Dev :=
  d.modRing r fun u => { u with nodes := tput (fun _ => {}) u.nodes i (f (rnode u i)) }

/-- A meaning of ring `r`: nothing happens while its domain is off (01 R25). -/
def runRing (r : Nat) (s : State) (f : Dev → Dev) : Host.Outcome State Fault Refusal := runIn (Dev.ringOn r) s f

/-- The rings whose engine is enabled. -/
def ringsOn (d : Dev) : List Nat := (List.range 16).filter fun r => d.flag (nrwEn r)
/-- The rings that are enabled or that the plan has nodes on. -/
def ringsHeld (d : Dev) : List Nat := (List.range 16).filter fun r =>
  d.flag (nrwEn r) || d.isles.any fun e => (e.2.entry.role = 1 || e.2.entry.role = 2) && e.2.entry.ring = r

/-- May the ring's transmitter send frames: its engine enabled, its lane in data once woken (07 R198, R211, R216)? -/
def ringSends (r : Nat) (d : Dev) : Bool := d.flag (nrwEn r) && takesData r d

/-- R222, R223: a frame of the ring, given to the lane at `at_` ps: its type, node, BROADCAST, body length, and the bytes after the header. -/
def sendFrame (r at_ typ node : Nat) (bcast : Bool) (len : Nat) (f : List Byte → List Byte) (d : Dev) : Dev :=
  let h := headBytes typ 1 node r bcast d.tide.k len (d.ring r).seq
  giveFrame r at_ (frameBlocks (h ++ f h)) (d.modRing r fun u => { u with seq := (u.seq + 1) % 65536 })
/-- R222: a body with the CRC-16 over header and body. -/
def crcAfter (body : List Byte) (h : List Byte) : List Byte := body ++ leBytes 2 (crc16 (h ++ body))

/-- The cell string whose isle owns a node, if any. -/
def cellString (r i : Nat) (d : Dev) : Option Nat :=
  match isleOf r i d with
  | some n => if (d.isle n).entry.role = 1 then some (d.isle n).entry.string else none
  | none => none

/-! ### Enable, bypass and halt bits (R254, R234) -/

/-- R254 item 1, 09 R281: an override that disables node `i`. -/
def nodeDisabled (r i : Nat) (d : Dev) : Bool :=
  (match cellString r i d with | some s => (d.str s).sstate = 3 | none => false) || d.flag (nodeCapErr r i) ||
    (rnode (d.ring r) i).drvBad || d.f (nrwState r) != 3
/-- R254: a cell node of a string in PRECHARGE or RUN. -/
def nodeForced (r i : Nat) (d : Dev) : Bool :=
  match cellString r i d with | some s => (d.str s).sstate = 1 || (d.str s).sstate = 2 | none => false
/-- R254: the enable bit of node `i`. -/
def enableBit (r i : Nat) (d : Dev) : Bool := !nodeDisabled r i d && (nodeForced r i d || d.flag (nrwF r 8 i 1))
/-- R254, 06 R174: the bypass bit: the cell is excluded, or bypassed ahead of its announced edge. -/
def bypassBit (r i : Nat) (d : Dev) : Bool :=
  d.f (nrwState r) = 3 && match isleOf r i d with
  | some n =>
    let e := (d.isle n).entry
    e.role = 1 && ((d.str e.string).excl.contains e.gPos || (d.str e.string).early.contains e.gPos)
  | none => false
def bitsOf (n : Nat) (f : Nat → Bool) : Nat := (List.range n).foldl (fun m i => if f i then m + 2 ^ i else m) 0

/-- R254: NODE_DISABLED entries at a tick edge. -/
def disabledEntries (d : Dev) : Dev :=
  forEach (ringsHeld d) (fun r d => forUpTo (nodesOf r d) (fun i d => if nodeForced r i d && nodeDisabled r i d then
    match isleOf r i d with | some n => cellFault n 0x09 0 d | none => d else d) d) d

/-! ### Records (R240) -/

/-- R240: NODE_SILENT of a cell node whose record is missing for NS_LIMIT ticks. -/
def nodeSilent (r i at_ : Nat) (d : Dev) : Dev :=
  if d.f (nrwF r 0 12 4) ≤ d.f (nodeMiss r i) && 1 ≤ d.f (nodeMiss r i) then
    match isleOf r i d with
    | some n => if (d.isle n).entry.role = 1 then cellFault n 0x07 at_ d else d
    | none => d
  else d
/-- R240. -/
def execNodeSilent (r : Fin 16) (i : Fin 16) (at_ : Nat) (s : State) : Host.Outcome State Fault Refusal := runRing r s (nodeSilent r i at_)

/-- R240: the record of node `i` is missing in this tick. -/
def recordMissing (r i at_ : Nat) (d : Dev) : Dev :=
  if (rnode (d.ring r) i).seen then d
  else nodeSilent r i at_ ((d.count (nodeMiss r i)).modRnode r i fun u => { u with seen := true })

/-- A status word's field (Table NRW-7). -/
def stw (s lo w : Nat) : Nat := s / 2 ^ lo % 2 ^ w

/-- 13 R390: TEMP above its fused limit in two consecutive valid records. -/
def tempCheck (r i at_ : Nat) (temp : Nat) (d : Dev) : Dev :=
  match isleOf r i d with
  | none => d
  | some n =>
    let lvb := (d.isle n).entry.role = 2
    let hot := !d.saf.spb.isEmpty && leAt d.saf.spb (if lvb then 69 else 68) 1 < temp
    let runs := if hot then min (tget (fun _ => 0) d.saf.temps (16 * r + i) + 1) 2 else 0
    let d := { d with saf := { d.saf with temps := tput (fun _ => 0) d.saf.temps (16 * r + i) runs } }
    if runs < 2 then d else if lvb then lvbFault n at_ d else cellFault n 0x03 at_ d

/-- 09 R283: driver flags of a record with no matching ALERT act as one. -/
def alertMiss (r i at_ : Nat) (status : Nat) (d : Dev) : Dev :=
  let u := rnode (d.ring r) i
  let named := (u.alerts.filter fun a => d.tide.k ≤ a.1 + 1).foldl (fun m a => m ||| a.2) 0
  let sc := (stw status 0 12) &&& (4095 ^^^ (named % 4096))
  let drv := (stw status 12 12) &&& (4095 ^^^ (u.lastDrv % 4096)) &&& (4095 ^^^ (named % 4096))
  let d := d.modRnode r i fun u => { u with lastDrv := stw status 12 12 }
  if sc = 0 && drv = 0 then d
  else haltDecide r i (b2n (sc != 0) + 2 * b2n (drv != 0)) at_ ((d.raise (haltStat r 4)).raise (nrwF r 0x14C (16 + i) 1))

/-- 03 R67, R69: a passing record goes to the mailbox of its isle, unless late, doubled, without owner, or lost to an uncorrectable
error in its Shoal buffer (01 R32). -/
def mailboxWrite (r i at_ : Nat) (rec : SampleRec) (ue : Bool) (d : Dev) : Dev :=
  match isleOf r i d with
  | none => d.count (nrwF r 0x1C 24 8)
  | some n =>
    let u := d.isle n
    if d.window ≤ at_ then islCount n ⟨islReg n 0x1C, 0, 16⟩ (d.raise (islStat n 1))
    else if (curSlot d u).valid then islCount n ⟨islReg n 0x1C, 16, 16⟩ (d.raise (islStat n 2))
    else if ue then d
    else
      let sl : Slot := { valid := true, tick := d.tide.k, smp := rec, ring := r, node := i, stamp := at_ }
      d.setIsle n (if d.tide.k % 2 = 0 then { u with slot0 := sl } else { u with slot1 := sl })

/-- R240, R237: the container of node `i` in the sample train of this tick: FILLED, whether its CRC passes, its parity field, its
record, its arrival stamp, and whether its Shoal buffer meets an uncorrectable error. In a frame that arrives errored its CRC fails (07 R189). -/
def execSampleContainerRx (r : Fin 16) (i : Fin 16) (filled crcOk : Bool) (parity : Fin 4) (rec : SampleRec) (at_ : Nat) (ue : Bool)
    (s : State) : Host.Outcome State Fault Refusal := runRing r s fun d =>
  if !d.flag (nrwEn r) || nodesOf r d ≤ i.val then d
  else
    let crcOk := crcOk && !frameErr r d
    let d := if i.val + 1 = nodesOf r d then takeCut r d else d
    let good := decide (parity.val = d.tide.k % 4)
    let d := whenDo (!filled) (fun d => d.count (nrwF r 0x1C 0 8)) d
    let d := whenDo (!crcOk) (fun d => d.count (nrwF r 0x1C 8 8)) d
    let d := whenDo (!good) (fun d => d.count (nrwF r 0x1C 16 8)) d
    if !(filled && crcOk && good) then recordMissing r i at_ d
    else
      let st := rec.status
      let d := (d.setF (nodeMiss r i) 0).setF (nrwNode r i 20 3) (stw st 32 3)
      let d := d.modRnode r i fun u =>
        { u with seen := true, status := st % 2 ^ 64, late := satAdd 32 u.late (stw st 40 8), frm := satAdd 32 u.frm (stw st 48 8) }
      let d := mailboxWrite r i at_ rec ue d
      let d := alertMiss r i at_ st d
      tempCheck r i at_ (stw st 24 8) d

/-! ### Frames down the ring (R225) -/

/-- R225 rule 2, R237: the sample train of a tick starts at the first block boundary at or after SAMPLE_OFS. -/
def execSampleTrainTx (r : Fin 16) (s : State) : Host.Outcome State Fault Refusal := runRing r s fun d =>
  let d := autoWake r d
  if !ringSends r d || (d.ring r).trainSent then d
  else
    let n := nodesOf r d
    let d := (d.modRing r fun u => { u with trainSent := true }).emit (.sampleTrain r n)
    sendFrame r (2500 * d.f (nrwF r 0 16 10)) 3 0 true (48 * n) (fun _ => trainBody n) d

/-- What rule 5 of R225 asks of a frame: the node it is for, whether it fits, whether it has been held, and how it is held. -/
structure FrameRule (α : Type) where
  node : α → Nat
  fits : α → Bool
  waited : α → Bool
  hold : α → α

/-- R225 rule 5: the first frame that may start now, the frames passed over with those newly held, and how many are newly held. -/
def pickFrame {α : Type} (q : FrameRule α) : List α → List Nat → Option α × List α × Nat
  | [], _ => (none, [], 0)
  | f :: t, blocked =>
    if blocked.contains (q.node f) then
      let r := pickFrame q t blocked
      (r.1, f :: r.2.1, r.2.2)
    else if q.fits f then (some f, t, 0)
    else
      let r := pickFrame q t (q.node f :: blocked)
      (r.1, q.hold f :: r.2.1, r.2.2 + b2n !q.waited f)

/-- R225 rule 5: does a frame of `n` blocks that may start at `at_` ps leave before the next tick edge? -/
def fitsTick (r at_ n : Nat) (d : Dev) : Bool := startAt r at_ d + blockPs (d.lane r).rate * n < 2500 * d.tc
/-- The blocks of an edge frame (R241). -/
def edgeBlocks (f : EdgeFrame) : Nat := f.cover.length + f.recs.length + 3
def edgeRule (r at_ : Nat) (d : Dev) : FrameRule EdgeFrame :=
  ⟨(·.node), fun f => fitsTick r at_ (edgeBlocks f) d, (·.waited), fun f => { f with waited := true }⟩

/-- R225 rules 3 and 5, R241: at `at_` ps after the edge an edge frame may start. -/
def execEdgeFrameTx (r : Fin 16) (at_ : Nat) (s : State) : Host.Outcome State Fault Refusal := runRing r s fun d =>
  let u := d.ring r
  if !ringSends r d || !u.trainSent then d
  else
    let p := pickFrame (edgeRule r at_ d) u.egress []
    let d := whenDo (p.2.2 != 0) (fun d => d.count (nrwF r 0x20 24 8) p.2.2) d
    let d := d.modRing r fun u => { u with egress := p.2.1 }
    match p.1 with
    | none => d
    | some f =>
      let f := { f with waited := false }
      let d := if d.f (nrwState r) = 0 then d else d.modRing r fun u => { u with sentFrames := u.sentFrames ++ [f] }
      sendFrame r at_ 2 f.node false (8 * edgeBlocks f - 16) (crcAfter (edgeBody f)) (d.emit (.edgeFrame r f))

/-- R229: an echoed edge frame, marked errored or compared with the frame sent. -/
def execEdgeEchoRx (r : Fin 16) (crcOk : Bool) (f : EdgeFrame) (s : State) : Host.Outcome State Fault Refusal := runRing r s fun d =>
  match (d.ring r).sentFrames with
  | [] => d
  | g :: t =>
    let crcOk := crcOk && !frameErr r d
    let d := takeCut r (d.modRing r fun u => { u with sentFrames := t })
    if d.flag (nrwF r 0 1 1) && !(crcOk && f = g) then (d.raise (nrwStat r 18)).count (nrwF r 0x20 0 16) else d

/-! ### Ranging (R229 to R231) -/

/-- A declared field of a node's identity (Table NRW-12). -/
def identAt (u : RingU) (i off n : Nat) : Nat := leAt (rnode u i).ident off n
/-- R230: the fibre part of the loop, 1/16 ns. -/
def fibrePart (r : Nat) (d : Dev) : Int :=
  (d.f (nrwF r 0x14 0 24) : Int) - ((List.range (nodesOf r d)).map fun j => identAt (d.ring r) j 8 2).sum
/-- R234: every node is identified, or held in CAP_ERR. -/
def identAll (r : Nat) (d : Dev) : Bool := (List.range (nodesOf r d)).all fun i => (rnode (d.ring r) i).asked || d.flag (nodeCapErr r i)
def hopLen (r h : Nat) (d : Dev) : Nat := d.f (nrwF r (0x180 + 4 * h) 0 16)
/-- R230: d_i in 1/16 ns, rounded half up. -/
def nodeOffset (r i : Nat) (d : Dev) : Nat :=
  let n := nodesOf r d
  let df := fibrePart r d
  let total := ((List.range (n + 1)).map fun h => hopLen r h d).sum
  let upTo := ((List.range (i + 1)).map fun h => hopLen r h d).sum
  let lat := ((List.range i).map fun j => identAt (d.ring r) j 8 2).sum
  let tau : Int := if total = 0 then quotUp (df * (i + 1)) (n + 1) else quotUp (df * upTo) total
  (tau + lat).toNat
/-- R230: the loop disagrees with the lengths entered: |df − 5 ns/m·ΣL| > 0.05·5 ns/m·ΣL + 5 ns (L in 0.1 m, 8 of 1/16 ns each). -/
def rangeErr (r : Nat) (d : Dev) : Bool :=
  let l := ((List.range (nodesOf r d + 1)).map fun h => hopLen r h d).sum
  l != 0 && decide (20 * (fibrePart r d - 8 * l).natAbs > 8 * l + 1600)

def jobFor (code node purpose : Nat) (args : List Byte) (rlen : Nat := 8) : SvcJob :=
  { req := ⟨code, node, false, rlen, (args ++ List.replicate 12 0).take 12, 0⟩, purpose := purpose }
def queueJob (r : Nat) (j : SvcJob) (d : Dev) : Dev := d.modRing r fun u => { u with jobs := u.jobs ++ [j] }

/-- R231: the OFFSET request that node `i` needs, `first` in bring-up: sent anew at 0.5 ns, in steps of at most 0.5 ns while the node is
enabled. -/
def offsetJob (r i : Nat) (first : Bool) (d : Dev) : Dev :=
  let old := d.f (nrwNode r i 0 20)
  let new := nodeOffset r i d
  let u := d.ring r
  let busy := (u.jobs ++ u.out).any fun j => j.purpose = 5 && j.req.node = i
  let off : Int := (new : Int) - old
  if busy || (!first && off.natAbs < 8) then d
  else
    let v := if !first && d.flag (nrwHdrEn r i) then ((old : Int) + max (-8) (min off 8)).toNat else new
    queueJob r (jobFor 3 i 5 (leBytes 4 v)) (d.setF (nrwNode r i 0 20) v)

/-- R229: the echo of a tide frame comes back after `delay` (1/16 ns); `ok`: its CRC passes and it equals the frame sent. -/
def execTideEchoRx (r : Fin 16) (delay : Nat) (ok : Bool) (s : State) : Host.Outcome State Fault Refusal := runRing r s fun d =>
  if !d.flag (nrwEn r) then d
  else
    let ok := ok && !frameErr r d
    let d := takeCut r d
    let u := d.ring r
    let cur := d.f (nrwF r 0x14 0 24)
    let bad := !ok || (!u.delays.isEmpty && 80 < ((delay : Int) - cur).natAbs)
    let d := whenDo (!ok && d.flag (nrwF r 0 1 1)) (fun d => (d.raise (nrwStat r 18)).count (nrwF r 0x20 0 16)) d
    if bad then d.modRing r fun u => if 16 ≤ u.discards + 1 then { u with discards := 0, delays := [] } else { u with discards := u.discards + 1 }
    else
      let l := (delay :: u.delays).take 16
      let d := d.setF (nrwF r 0x14 0 24) ((2 * l.sum + l.length) / (2 * l.length))
      let d := d.modRing r fun u => { u with delays := l, discards := 0 }
      let d := whenDo (identAll r d && rangeErr r d) (fun d => d.raise (nrwStat r 22)) d
      if d.f (nrwState r) != 3 then d else forUpTo (nodesOf r d) (fun i d => offsetJob r i false d) d

/-! ### Bring-up and the service channel (R234, R248, R260 to R263) -/

/-- R248: pairs and carrier periods that the live set of a node's isle uses. -/
def liveSet (r i : Nat) (d : Dev) : Option EfSet := (isleOf r i d).map fun n => (liveBank (d.isle n)).ef
def pairPeriod (e : EfSet) (p : Nat) : Nat := (e.groups.getD (e.pairs.getD p {}).group {}).period

/-- R248: the node cannot play the live set. -/
def capFails (r i : Nat) (d : Dev) : Bool :=
  let u := d.ring r
  match liveSet r i d with
  | none => false
  | some e => (e.compat && !(identAt u i 13 1).testBit 0) || identAt u i 12 1 < e.pairs.length ||
      (List.range e.pairs.length).any fun p => identAt u i 14 3 < pairPeriod e p

/-- R248: a node held in CAP_ERR; nothing more is configured. -/
def capErr (r i : Nat) (d : Dev) : Dev :=
  ((d.raise (nodeCapErr r i)).raise (nrwStat r 20)).modRing r fun u => { u with jobs := u.jobs.filter fun j => j.req.node ≠ i || j.purpose < 2 }

/-- R262: the configuration requests of a node: its pairs, the node settings (N_orph and SAFE_BYP at their defaults). -/
def cfgJobs (r i : Nat) (d : Dev) : Dev :=
  let u := d.ring r
  let d := match liveSet r i d with
    | none => d
    | some e => forUpTo e.pairs.length (fun p d =>
        if identAt u i 12 1 ≤ p || identAt u i 14 3 < pairPeriod e p then d
        else queueJob r (jobFor 4 i 4 (BitVec.ofNat 8 p :: leBytes 3 (pairPeriod e p) ++ leBytes 2 (e.pairs.getD p {}).td)) d) d
  queueJob r (jobFor 4 i 4 [7, 6, 0]) d
/-- R230, R231: once every node is identified, the latencies of all of them give the offsets. -/
def offsetJobs (r : Nat) (d : Dev) : Dev :=
  if !identAll r d then d else forUpTo (nodesOf r d) (fun i d => if d.flag (nodeCapErr r i) then d else offsetJob r i true d) d

/-- 09 R281: the driver writes of the running image for a node, then its check. -/
def drvConf (r i : Nat) (d : Dev) : Option DrvConf :=
  match d.plan.held with | p :: _ => p.drivers.find? fun c => c.ring = r && c.node = i | [] => none
def checkJob (i : Nat) (first : Bool) : SvcJob := jobFor 6 i (if first then 8 else 7) [0xFF, 0, 0x0C, 0]
def driverJobs (r i : Nat) (d : Dev) : Dev :=
  match drvConf r i d with
  | none => d
  | some c =>
    let d := forEach c.writes (fun w d => queueJob r (jobFor 5 i 6 (BitVec.ofNat 8 w.1 :: 0 :: leBytes 2 w.2.1 ++ leBytes 4 w.2.2.toNat)) d) d
    queueJob r (checkJob i true) (d.modRnode r i fun u => { u with drvDue := false })

/-- R235, Table NRW-5: an ENUM reply with `filled` entries. One that arrives errored is not valid (07 R189). -/
def execEnumReplyRx (r : Fin 16) (filled : Fin 17) (s : State) : Host.Outcome State Fault Refusal := runRing r s fun d =>
  if d.f (nrwState r) != 1 then d
  else if frameErr r d then takeCut r d
  else
    let d := d.setF (nrwF r 4 8 5) filled
    let d := d.modRing r fun u => { u with out := u.out.filter (·.purpose ≠ 2), jobs := u.jobs.filter (·.purpose ≠ 2) }
    if filled.val != nodesOf r d then (if nodesOf r d < filled.val then d.raise (nrwStat r 21) else d)
    else
      let d := d.setF (nrwState r) 2
      forUpTo (nodesOf r d) (fun i d =>
        queueJob r (jobFor 2 i 3 [] 64) ((d.lower (nodeCapErr r i)).modRnode r i fun u => { u with ident := [], asked := false })) d

/-- R234: 16 ticks in ENUM without a matching reply. -/
def execEnumErr (r : Fin 16) (s : State) : Host.Outcome State Fault Refusal := runRing r s fun d =>
  if d.f (nrwState r) = 1 && 16 ≤ (d.ring r).enumTicks then d.raise (nrwStat r 21) else d

/-- R234: no configuration request is left and every node is identified or in CAP_ERR. -/
def cfgOver (r : Nat) (d : Dev) : Bool :=
  let u := d.ring r
  !((u.jobs ++ u.out).any fun j => 3 ≤ j.purpose && j.purpose ≤ 5) && identAll r d
/-- R234, 09 R281. -/
def execRingReady (r : Fin 16) (s : State) : Host.Outcome State Fault Refusal := runRing r s fun d =>
  if d.f (nrwState r) != 2 || !cfgOver r d then d
  else forUpTo (nodesOf r d) (fun i d => driverJobs r i d) (d.setF (nrwState r) 3)

/-- R263, 09 R284: a request of the host, refused while another of the host's is in progress on the ring; a SELFTEST that the device may
not send sets STEST_REJ. -/
def svcRequest (r : Nat) (q : SvcReq) (purpose : Nat) (d : Dev) : Word × Dev :=
  let i := q.node
  let u := rnode (d.ring r) i
  let otherRing := (leAt u.ident 13 1).testBit 1 && (u.status.testBit 36 != d.flag ⟨primAddr .red 0 0, 1, 1⟩)
  let bad := q.code = 7 && (d.flag (nrwHdrEn r i) || otherRing || d.f (nrwNode r i 20 3) != 1 || haltStands r i d ||
    !(match cellString r i d with | some s => (d.str s).sstate = 0 || (d.str s).sstate = 3 | none => !d.flag (nrwF r 8 i 1)))
  let busy := ((d.ring r).jobs ++ (d.ring r).out).any fun j => j.purpose < 2
  if bad then (refusedCode, d.raise (haltStat r 2))
  else if busy || !d.flag (nrwEn r) then (refusedCode, d)
  else (0, queueJob r { req := q, purpose := purpose } (if purpose = 0 then (d.raise (nrwF r 0x30 25 1)) else d))
/-- R263: GO: the request that NRW_SVC_REQ and NRW_SVC_ARG hold. -/
def svcGo (r : Nat) (d : Dev) : Word × Dev :=
  let f (lo w : Nat) : Nat := d.f (nrwF r 0x30 lo w)
  svcRequest r ⟨f 0 8, f 8 4, f 12 1 = 1, 8 * (f 16 4 + 1), (List.range 3).flatMap fun j => leBytes 4 (d.rd (nrwReg r (0x34 + 4 * j))).toNat, 0⟩ 0 d
/-- R260, R267: the request that the 16 bytes written to the object of node `i` spell. -/
def objRequest (i : Nat) (l : List Byte) : SvcReq :=
  ⟨leAt l 0 1, i, false, min 128 (max 8 (leAt l 2 1 / 8 * 8)), slice (l ++ List.replicate 16 0) 4 12, leAt l 1 1⟩
/-- R263, R267: the request that a write of the object of node `i` issues; the object holds no reply until its own comes. -/
def svcObject (r i : Nat) (l : List Byte) (d : Dev) : Word × Dev :=
  let y := svcRequest r (objRequest i l) 1 d
  (y.1, if y.1 = 0 then y.2.modRnode r i fun u => { u with reply := [] } else y.2)
/-- R263: by the registers, or (`obj`) by the object of node `i` with the bytes written. -/
def execServiceRequest (r : Fin 16) (obj : Option (Fin 16 × List Byte)) (s : State) : Host.Outcome State Fault Refusal := runRing r s fun d =>
  match obj with
  | none => (svcGo r d).2
  | some (i, l) => (svcObject r i l d).2

/-- A request's node, a broadcast one apart. -/
def jobNode (j : SvcJob) : Nat := if j.req.bcast then 16 else j.req.node
def jobRule (r at_ : Nat) (d : Dev) : FrameRule SvcJob :=
  ⟨jobNode, fun j => fitsTick r at_ (blocksOf (18 + j.req.rlen)) d, (·.waited), fun j => { j with waited := true }⟩
/-- R225 rules 4 and 5, R260, R263: a service frame goes: the first request that fits, of those whose node has none outstanding. The tag of a
request that the object did not spell is free. -/
def execServiceFrameTx (r : Fin 16) (at_ : Nat) (s : State) : Host.Outcome State Fault Refusal := runRing r s fun d =>
  let u := d.ring r
  if !ringSends r d || u.svcSent || !u.trainSent || !u.egress.isEmpty then d
  else
    let p := pickFrame (jobRule r at_ d) u.jobs (u.out.map jobNode)
    let d := whenDo (p.2.2 != 0) (fun d => d.count (nrwF r 0x20 24 8) p.2.2) d
    let held := p.2.1
    match p.1 with
    | none => d.modRing r fun u => { u with jobs := held }
    | some j =>
      let x := d.draw 256
      let q := if j.purpose = 1 then j.req else { j.req with tag := x.1 }
      let j := { j with req := q, waited := false }
      let d := (x.2.modRing r fun u => { u with svcSent := true, jobs := held, out := u.out ++ [j] }).emit (.service r q)
      sendFrame r at_ 4 q.node q.bcast (18 + q.rlen)
        (fun h => crcAfter (svcBody q.code q.tag q.rlen q.args) h ++ List.replicate q.rlen 0) d

/-- The end of a request for the host: its reply, and whether it timed out. -/
def hostReply (r : Nat) (j : SvcJob) (l : List Byte) (tmo : Bool) (d : Dev) : Dev :=
  if j.purpose = 0 then
    let d := (d.lower (nrwF r 0x30 25 1)).raise (nrwF r 0x30 26 1)
    let d := whenDo tmo (fun d => d.raise (nrwF r 0x30 27 1)) d
    d.modRing r fun u => { u with reply := l }
  else if j.purpose = 1 then d.modRnode r j.req.node fun u => { u with reply := l }
  else d

/-- 09 R281: a check that differs, or cannot be read, disables the node. -/
def drvDiffers (r i : Nat) (d : Dev) : Dev := (d.raise (haltStat r 3)).modRnode r i fun u => { u with drvBad := true }
/-- 09 R282: in the periodic check it also acts as an ALERT with cause driver fault. -/
def drvMismatch (r i at_ : Nat) (d : Dev) : Dev := haltDecide r i 2 at_ (drvDiffers r i (d.raise (nrwF r 0x14C i 1)))

/-- R263: the request fails for good. -/
def svcTmo (r : Nat) (j : SvcJob) (at_ : Nat) (d : Dev) : Dev :=
  let d := d.raise (nrwStat r 19)
  let d := d.modRing r fun u => { u with out := u.out.filter (· ≠ j) }
  match j.purpose with
  | 0 => hostReply r j [] true d
  | 1 => hostReply r j [] true d
  | 7 => drvMismatch r j.req.node at_ d
  | 8 => drvDiffers r j.req.node d
  | 6 => d
  | 2 => d
  | 5 => if d.f (nrwState r) = 2 then capErr r j.req.node d else d
  | _ => capErr r j.req.node d
/-- R263: the request outstanding for node `i` has failed three retries. -/
def execSvcTmo (r : Fin 16) (i : Fin 16) (at_ : Nat) (s : State) : Host.Outcome State Fault Refusal := runRing r s fun d =>
  match (d.ring r).out.find? fun j => j.req.node = i.val with
  | some j => if 3 ≤ j.tries then svcTmo r j at_ d else d
  | none => d

/-- 09 R281, R282: a check read back as the running image has it; a node that the image configures not has none. -/
def checkOk (r i : Nat) (ok : Bool) (l : List Byte) (d : Dev) : Bool :=
  match drvConf r i d with | some c => ok && leAt l 2 4 = c.check.toNat | none => true

/-- R248, R262, 09 R281, R282: what a reply to a request of the device itself leads to. -/
def svcDone (r : Nat) (j : SvcJob) (l : List Byte) (at_ : Nat) (d : Dev) : Dev :=
  let i := j.req.node
  let ok := decide (leAt l 0 1 = 1)
  match j.purpose with
  | 3 =>
    if !ok then offsetJobs r (capErr r i d)
    else
      let d := d.modRnode r i fun u => { u with ident := slice l 2 29, asked := true }
      let d := whenDo (decide (d.f (nrwF r 0 16 10) < identAt (d.ring r) i 10 2)) (fun d => d.raise (nrwStat r 24)) d
      offsetJobs r (if capFails r i d then capErr r i d else cfgJobs r i d)
  | 4 => if ok then d else capErr r i d
  | 5 => if ok then d else if d.f (nrwState r) = 2 then capErr r i d else d
  | 6 => d
  | 7 => if checkOk r i ok l d then d.modRnode r i fun u => { u with drvBad := false } else drvMismatch r i at_ d
  | 8 => if checkOk r i ok l d then d.modRnode r i fun u => { u with drvBad := false } else drvDiffers r i d
  | _ => hostReply r j l false d

/-- R263: the echo of the frame sent to node `i` returns with its reply area; `crcOk`: the reply's CRC-16 passes. -/
def execServiceReplyRx (r : Fin 16) (i : Fin 16) (crcOk : Bool) (l : List Byte) (at_ : Nat) (s : State) : Host.Outcome State Fault Refusal :=
  runRing r s fun d =>
  match (d.ring r).out.find? fun j => j.req.node = i.val with
  | none => d
  | some j =>
    let crcOk := crcOk && !frameErr r d
    let d1 := takeCut r (d.modRing r fun u => { u with out := u.out.erase j })
    if crcOk && leAt l 0 1 != 0 then svcDone r j l at_ d1
    else if j.tries < 3 then d1.modRing r fun u => { u with jobs := { j with tries := j.tries + 1 } :: u.jobs }
    else svcTmo r j at_ d

/-! ### The halt matrix (09) -/

/-- R251, 09 R271 to R273: an ALERT: node, cause, gates, whether its CRC-8 passes, its arrival. -/
def execAlertRx (r : Fin 16) (node cause : BitVec 8) (gates : BitVec 12) (crcOk : Bool) (at_ : Nat) (s : State) :
    Host.Outcome State Fault Refusal := runRing r s fun d =>
  if !d.flag (nrwEn r) then d
  else if !crcOk || nodesOf r d ≤ node.toNat then (d.raise (nrwStat r 17)).count (nrwF r 0x20 16 8)
  else
    let d := (d.raise (nrwStat r 16)).count (nrwF r 0x28 0 16)
    let d := d.wr (nrwReg r 0x24) (BitVec.ofNat 32 (node.toNat % 16 + 256 * cause.toNat + 65536 * gates.toNat))
    let d := d.modRnode r node.toNat fun u => { u with alerts := (d.tide.k, gates.toNat) :: u.alerts.take 7, alertAt := some (d.tide.abs + at_) }
    haltDecide r node.toNat (cause.toNat % 8) at_ d

/-- R252: the echo of a HALT: `loop` from the ALERT's first bit, 1/16 ns; the broadcast HALT of thermal shutdown answers no ALERT. -/
def execHaltEchoRx (r : Fin 16) (node : BitVec 8) (loop : Nat) (s : State) : Host.Outcome State Fault Refusal := runRing r s fun d =>
  if !(d.ring r).echoes.contains node.toNat then d
  else
    let d := d.modRing r fun u => { u with echoes := u.echoes.erase node.toNat, echoed := u.echoed + 1 }
    if node = 0xFF then d else d.setF (nrwF r 0x144 0 24) loop
/-- R252: a HALT has not returned within D + 100 ns. -/
def execHaltEchoTimeout (r : Fin 16) (node : BitVec 8) (s : State) : Host.Outcome State Fault Refusal := runRing r s fun d =>
  if !(d.ring r).echoes.contains node.toNat then d
  else (d.modRing r fun u => { u with echoes := u.echoes.erase node.toNat }).raise (nrwStat r 18)

/-- 09 R278; R275: a release in the cycle (`now`) of an ALERT of the node has no effect. -/
def haltRelease (r mask : Nat) (now : Option Nat) (d : Dev) : Dev :=
  forUpTo 16 (fun i d =>
    if !mask.testBit i then d
    else if now.isSome && (rnode (d.ring r) i).alertAt = now then d
    else
      let may := match isleOf r i d with
        | some n =>
          let e := (d.isle n).entry
          if e.role = 1 then (d.str e.string).sstate = 0 || (d.str e.string).sstate = 3 || (d.str e.string).excl.contains e.gPos
          else !d.flag (nrwF r 8 i 1)
        | none => !d.flag (nrwF r 8 i 1)
      if may then setHalt r i false d else d.raise (haltStat r 1)) d
/-- 09 R278. -/
def execHaltRelease (r : Fin 16) (mask : BitVec 16) (at_ : Option Nat) (s : State) : Host.Outcome State Fault Refusal :=
  runRing r s fun d => haltRelease r mask.toNat (at_.map (d.tide.abs + ·)) d

/-- 09 R274: NRW_HPOL_i[n]; a value 0 in SC_ACT leaves that field. -/
def haltPolicy (r i : Nat) (v : Word) (d : Dev) : Word × Dev :=
  let a := nrwReg r (0x100 + 4 * i)
  if d.mode != 2 then (refusedCode, d.raise (haltStat r 0))
  else if fget v 0 2 = 0 then (0x06090030, (d.store a (fset v 0 2 (fget (d.rd a) 0 2))).raise (haltStat r 0))
  else (0, d.store a v)
/-- 09 R274. -/
def execHaltPolicyWrite (r : Fin 16) (i : Fin 16) (v : Word) (s : State) : Host.Outcome State Fault Refusal := runRing r s fun d => (haltPolicy r i v d).2

/-- 09 R282: the check period of a ring in READY elapses. -/
def execDrvCheckPeriod (r : Fin 16) (s : State) : Host.Outcome State Fault Refusal := runRing r s fun d =>
  if d.f (nrwState r) != 3 then d else forUpTo (nodesOf r d) (fun i d => queueJob r (checkJob i false) d) d

/-- The lane of a ring comes UP or leaves it (Table NRW-5). -/
def ringUp (r : Nat) (d : Dev) : Dev :=
  if d.flag (nrwEn r) && d.f (nrwState r) = 0 then (d.setF (nrwState r) 1).modRing r fun u => { u with enumTicks := 0 } else d
def ringDown (r : Nat) (d : Dev) : Dev :=
  if d.f (nrwState r) = 0 then d
  else (d.setF (nrwState r) 0).modRing r fun u => { u with jobs := u.jobs.filter (·.purpose < 2), out := u.out.filter (·.purpose < 2), delays := [], discards := 0, sentFrames := [] }

/-- R238: the nodes' preparation times against SAMPLE_OFS. -/
def prepCheck (r : Nat) (d : Dev) : Dev :=
  whenDo ((List.range (nodesOf r d)).any fun i => d.f (nrwF r 0 16 10) < identAt (d.ring r) i 10 2) (fun d => d.raise (nrwStat r 24)) d

/-- R264: the declared load of a ring and B_T. -/
def ringLoad (r : Nat) (d : Dev) : Nat × Nat :=
  let bt := 2500 * d.tc / blockPs (d.lane r).rate
  let one (u : IsleU) : Nat :=
    let e := (liveBank u).ef
    e.eMax + ((List.range e.groups.length).map fun g => e.pairs.countP (fun p => p.group = g) + 3).sum
  let own := d.isles.filter fun e => (e.2.entry.role = 1 || e.2.entry.role = 2) && e.2.entry.ring = r
  (6 + (6 * nodesOf r d + 2) + (own.map fun e => one e.2).sum + 20 + (bt + 4095) / 4096, bt)
/-- R264: NRW_LOAD and LOAD_HIGH after a change of plan, node count, rate or tick period. -/
def showLoad (r : Nat) (d : Dev) : Dev :=
  let l := ringLoad r d
  let d := (d.setF (nrwF r 0x18 0 12) (min l.1 4095)).setF (nrwF r 0x18 12 12) (min l.2 4095)
  whenDo (80 * l.2 < 100 * l.1) (fun d => d.raise (nrwStat r 23)) d

/-- R266, Table NRW-16, 09 R288: a write to a ring register with its refusals and command bits. -/
def nrwWrite (r off : Nat) (v : Word) (d : Dev) : Word × Dev :=
  let a := nrwReg r off
  if off = 0 then
    let old := d.rd a
    let okO := within 40 (fget v 16 10) 800
    let okS := fget v 12 4 != 0
    let okN := fget old 0 1 = 0 || fget v 4 4 = fget old 4 4
    let w := if okO then v else fset v 16 10 (fget old 16 10)
    let w := if okS then w else fset w 12 4 (fget old 12 4)
    let w := if okN then w else fset w 4 4 (fget old 4 4)
    let d := d.store a w
    let d := if !d.flag (nrwEn r) then ringDown r d else if d.f (lstate r) = 6 then ringUp r d else d
    let d := showLoad r (prepCheck r d)
    if okO && okS && okN then (0, d) else (refusedCode, d.raise (nrwStat r 25))
  else if off = 0x30 then
    let d := d.store a v
    if v.getLsbD 24 then svcGo r d else (0, d)
  else if 0x100 ≤ off && off < 0x140 then haltPolicy r ((off - 0x100) / 4) v d
  else if off = 0x140 then (0, haltRelease r (v.toNat % 65536) none d)
  else if off = 0x148 then
    if within 1 (fget v 0 7) 100 then (0, d.store a v) else (refusedCode, d)
  else (0, d.store a v)

end Sys2Proof.Machine
end

