-- ==== Sys2Proof/Machine/Nodes.lean ====
section
/-! DEFINITION. The nodes of the rings (08, 09): headers and recovered time, edge frames, repeat-last, the node interlock and
bootstrap refresh, HALT and ALERT, enable and safe state, the service channel as a node answers it. A node is named by its ring and
its place along the fibre; arrivals are absolute, in 1/16 ns; gates are played on the tick-number line in 1/32 counts. -/
namespace Sys2Proof
open Machine

def NodeDev.pair (u : NodeDev) (p : Nat) : NPair := tget (fun _ => {}) u.pairs p
def NodeDev.setPair (u : NodeDev) (p : Nat) (v : NPair) : NodeDev := { u with pairs := tput (fun _ => {}) u.pairs p v }
/-- Count in all and in the window: 0 LATE, 1 FRM_ERR, 2 INTLK, 3 BS_CLAMP, 4 silent windows, 5 ALERTs (R261 STAT). -/
def NodeDev.tally (u : NodeDev) (c n : Nat) : NodeDev :=
  { u with counts := u.counts.set c (satAdd 32 (u.counts.getD c 0) n), window := u.window.set c (satAdd 32 (u.window.getD c 0) n) }
/-- The position the node obeys. A node on one ring has position A alone. -/
def NodeDev.onB (u : NodeDev) : Bool := u.follow.getD false
def NodeDev.path (u : NodeDev) (b : Bool) : NPath := if b then u.b else u.a
def NodeDev.setPath (u : NodeDev) (b : Bool) (p : NPath) : NodeDev := if b then { u with b := p } else { u with a := p }

end Sys2Proof

namespace Sys2Proof.Machine

/-- Bytes `off` to `off+n-1` of a node's identity (Table NRW-12). -/
def ownIdent (r i off n : Nat) : Nat := Config.nodeIdent (16 * r + i) / 2 ^ (8 * off) % 2 ^ (8 * n)
def ownPairs (r i : Nat) : Nat := min (ownIdent r i 12 1) 6
/-- DUAL of the node's capabilities: it sits on two rings. -/
def ownDual (r i : Nat) : Bool := nbit (ownIdent r i 13 1) 1

/-- R232: T̂ in 1/16 ns over the edges of the last 16 valid headers; the nominal tick before there are two. -/
def tHat (u : NodeDev) : Int :=
  match u.edges.head?, u.edges.getLast? with
  | some x, some y => if x.1 ≤ y.1 then 40 * u.tc else (x.2 - y.2) / ((x.1 : Int) - y.1)
  | _, _ => 40 * u.tc
/-- 02 R57, R232: an instant (1/16 ns) in counts on the tick-number line, rounded up to the grid. -/
def gridOf (u : NodeDev) (t : Int) : Int :=
  (u.tick : Int) * u.tc + (if tHat u = 0 then 0 else -(-((t - u.edge) * u.tc) / tHat u))
/-- An instant (1/16 ns) on the tick-number line, 1/32 counts (R232). -/
def lineOf (u : NodeDev) (t : Int) : Int :=
  32 * ((u.tick : Int) * u.tc) + (if tHat u = 0 then 0 else (t - u.edge) * 32 * u.tc / tHat u)

/-! ### Gates: repeat-last, interlock, refresh (R246, R249) -/

/-- A gate's pin takes a level at `t`. -/
def pinTo (lower level : Bool) (t : Int) (p : NPair) : NPair :=
  if (if lower then p.lo else p.up) = level then p
  else
    let p := { p with hist := ⟨0, t, lower, level⟩ :: p.hist }
    if lower then { p with lo := level, loOff := if level then p.loOff else t }
    else { p with up := level, upOn := if level then t else p.upOn, upOff := if level then p.upOff else t }

/-- R249: the level asked of a gate changes at `t`; with the count of interlock events. -/
def askGate (lower level : Bool) (t : Int) (a : NPair × Nat × Nat) : NPair × Nat × Nat :=
  let p := a.1
  if (if lower then p.dl else p.du) = level then a
  else
    let p := if lower then { p with dl := level } else { p with du := level }
    if p.refresh.isSome then (p, a.2)
    else if !level then (pinTo lower false t p, a.2)
    else
      let on := if lower then p.up else p.lo
      let off := if lower then p.upOff else p.loOff
      if on || t - off < 32 * p.td then (pinTo true false t (pinTo false false t p), a.2.1 + 1, a.2.2)
      else (pinTo lower true t p, a.2)

/-- R249: forced refreshes up to `t`: the upper gate off for BS_REF after BS_MAX, the lower gate on within, td from each end. -/
def refreshTo (bm br : Nat) (t : Int) : Nat → NPair × Nat × Nat → NPair × Nat × Nat
  | 0, a => a
  | n + 1, a =>
    let p := a.1
    match p.refresh with
    | none =>
      let t0 := p.upOn + 32 * bm
      if bm = 0 || !p.up || t < t0 then a
      else refreshTo bm br t n ({ pinTo false false t0 p with refresh := some (t0 + 32 * br) }, a.2.1, a.2.2 + 1)
    | some e =>
      let t0 := e - 32 * br
      let l0 := t0 + 32 * p.td
      let l1 := e - 32 * p.td
      let p := if l0 ≤ t && !p.lo && p.loOff < l0 then pinTo true true l0 p else p
      let p := if l1 ≤ t then pinTo true false l1 p else p
      if t < e then (p, a.2)
      else
        let p := { p with refresh := none }
        let p := if p.du && !p.dl then pinTo false true e p else if p.dl && !p.du then pinTo true true e p else p
        refreshTo bm br t n (p, a.2)

/-- A list of asked levels, turn-offs first where instants agree. -/
def askAll (bm br : Nat) (l : List EfRec) (a : NPair × Nat × Nat) : NPair × Nat × Nat :=
  let one (a : NPair × Nat × Nat) (r : EfRec) := askGate r.lower r.level r.t (refreshTo bm br r.t 32 a)
  let before (x y : EfRec) : Bool := x.t < y.t || (x.t = y.t && !x.level && y.level)
  (l.foldl (fun (s : List EfRec) x => (s.takeWhile fun y => !before x y) ++ x :: s.dropWhile fun y => !before x y) []).foldl one a

/-- The level of a gate at an instant by what reached the pins. -/
def histLevel (l : List EfRec) (lower : Bool) (t : Int) : Bool :=
  match l.find? fun r => r.lower = lower && r.t ≤ t with | some r => r.level | none => false

/-- R246: play a pair from `x` to `t`: by coverage, else by repeating the level one repeat period earlier, off without history. -/
def playPair (bm br : Nat) (since t : Int) : Nat → Int → NPair × Nat × Nat → NPair × Nat × Nat
  | 0, _, a => a
  | n + 1, x, a =>
    if t ≤ x then a
    else
      let p := a.1
      match p.cover.find? fun c => c.live && c.a ≤ x && x < c.e with
      | some c =>
        let y := min c.e t
        playPair bm br since t n y (askAll bm br (c.recs.filter fun r => x ≤ r.t && r.t < y) a)
      | none =>
        let y := (p.cover.filter fun c => c.live && x < c.a).foldl (fun m c => min m c.a) t
        let per : Int := 32 * p.per
        let off : List EfRec := [⟨0, x, false, false⟩, ⟨0, x, true, false⟩]
        if p.per = 0 then playPair bm br since t n y (askAll bm br off a)
        else if x - per < since then playPair bm br since t n (min y (since + per)) (askAll bm br off a)
        else
          let y := min y (x + per)
          let first : List EfRec := [false, true].map fun g => ⟨0, x, g, histLevel p.hist g (x - per)⟩
          let rest := (p.hist.filter fun r => x - per < r.t && r.t < y - per).map fun r => { r with t := r.t + per }
          playPair bm br since t n y (askAll bm br (first ++ rest) a)

/-- History older than a repeat period is kept only as the last level of each gate. -/
def trimHist (now : Int) (p : NPair) : NPair :=
  let cut := now - 32 * p.per
  let old := p.hist.filter fun r => r.t ≤ cut
  { p with hist := (p.hist.filter fun r => cut < r.t) ++ (old.find? fun r => !r.lower).toList ++ (old.find? fun r => r.lower).toList
           cover := p.cover.filter fun c => now < c.e }

/-- R246, R249, Table NRW-10: a node's gates are played to `t`. -/
def playTo (r i : Nat) (t : Int) (u : NodeDev) : NodeDev :=
  if t ≤ u.played then u
  else
    let bm := ownIdent r i 17 2
    let br := ownIdent r i 19 2
    let u := forUpTo (ownPairs r i) (fun p u =>
      if u.state != 2 || u.bypass then u
      else
        let v := u.pair p
        let fuel := 8 + 2 * v.cover.length + (if v.per = 0 then 0 else ((t - u.played) / (32 * v.per)).toNat)
        let a := refreshTo bm br t 32 (playPair bm br u.since t fuel u.played (v, 0, 0))
        ((u.setPair p (trimHist t a.1)).tally 2 a.2.1).tally 3 a.2.2) u
    { u with played := t }

/-- Every gate goes off at once; records and history are discarded (R253, Table NRW-10). -/
def gatesOff (t : Int) (u : NodeDev) : NodeDev :=
  forUpTo 6 (fun p u =>
    let v := pinTo true false t (pinTo false false t (u.pair p))
    u.setPair p { v with cover := [], hist := [], du := false, dl := false, refresh := none }) u

/-! ### States -/

/-- R253: HALT at `t` on the line. -/
def nodeHalted (r i : Nat) (byp : Bool) (t : Int) (u : NodeDev) : NodeDev :=
  { gatesOff t (playTo r i t u) with
    state := 3, bypass := u.bypass || byp, standing := none, zeros := 0, toggled := false, enNext := false, bypOpen := u.bypOpen && !byp }

/-- R257, R259: entry into SAFE with its cause: 1 SILENCE, 2 ORPHAN. -/
def nodeSafe (r i cause : Nat) (u : NodeDev) : NodeDev :=
  if u.state != 1 && u.state != 2 then u
  else { gatesOff u.played u with
    state := 4, safeCause := cause, bypass := u.bypass || u.safeByp, zeros := 0, toggled := false, enNext := false,
    bypOpen := u.bypOpen && !u.safeByp }

/-- R257: two silent windows have ended. -/
def silence (r i : Nat) (u : NodeDev) : NodeDev := if 2 ≤ u.silent then nodeSafe r i 1 u else u
/-- R259: N_orph windows without MASTER have ended. -/
def orphaned (r i : Nat) (u : NodeDev) : NodeDev := if u.norph ≤ u.orphan then nodeSafe r i 2 u else u

def atNode (r i : Nat) (s : State) (f : NodeDev → NodeDev) : Host.Outcome State Fault Refusal :=
  run s fun d => d.setNode r i (f (d.node r i))

/-! ### Frames at a node (R222 to R224) -/

/-- R222: the header bytes as they arrived. -/
def hdrBytes (h : FrameHdr) : List Byte := headBytes h.typ h.version h.node h.ring h.bcast h.par h.len h.seq
/-- R224, 07 R189: a frame of type `typ` with `n` body bytes and `t` trailer bytes passes the header checks; BROADCAST is 1 in tide frames and sample
trains, 0 in edge frames. -/
def frameOk (h : FrameHdr) (typ n t : Nat) : Bool :=
  !h.errored && h.version = 1 && h.typ = typ && h.len = n && h.blocks = blocksOf (n + t) && (typ = 4 || h.bcast = (typ != 2))
/-- R218, R219: what the node received on a position goes on to the next. -/
def pass (r i : Nat) (b : Bool) (bytes : List Byte) (d : Dev) : Dev := d.emit (.nodeForward r i b (frameBlocks bytes))
/-- R224, R239: a discarded frame is counted. -/
def discardFrame (r i : Nat) (d : Dev) : Dev := d.setNode r i ((d.node r i).tally 1 1)
/-- A frame's blocks at the ring's rate, 1/16 ns. -/
def blocksTime (r n : Nat) (d : Dev) : Nat := 2 * n * blockPs (d.lane r).rate / 125
/-- R257. -/
def execNodeSilence (r : Fin 16) (i : Fin 16) (s : State) : Host.Outcome State Fault Refusal := atNode r i s (silence r i)
/-- R259. -/
def execNodeOrphan (r : Fin 16) (i : Fin 16) (s : State) : Host.Outcome State Fault Refusal := atNode r i s (orphaned r i)

/-- R228, R255: the enable, bypass and halt bits of a valid header for node number `m` on the ring followed; `t`: the instant it is
verified, on the line. -/
def headerBits (r i m : Nat) (h : TideHdr) (t : Int) (u : NodeDev) : NodeDev :=
  let en := nbit h.en m
  let byp := nbit h.byp m
  let halt := nbit h.halt m
  let u := if byp && !u.bypass then gatesOff t (playTo r i t u) else u
  let u := { u with bypass := u.bypass || byp, bypOpen := !byp && (u.bypOpen || !en) }
  let toggle := !halt && en && u.zeros = 2
  let u := { u with zeros := if halt || en then 0 else min (u.zeros + 1) 2, toggled := toggle }
  if u.state = 3 || u.state = 4 then u
  else if !en && u.state = 2 then { gatesOff t (playTo r i t u) with state := 1, enNext := false }
  else { u with enNext := en && u.state = 1 }

/-- R227, R228, R232, R253, R258: a tide header on position `b` that passed its checks: its first bit arrived at `arr`, it was verified at `ver`. The
bits of the header of the ring followed act, its halt bit as a HALT. -/
def headerRx (r i : Nat) (b : Bool) (h : TideHdr) (arr ver : Nat) (u : NodeDev) : NodeDev :=
  let p := u.path b
  if p.ring.isSome && p.ring != some h.ring then u
  else
    let seqOk := match p.last with | none => true | some l => l.2 = h.tc && h.tick = l.1 + p.missed + 1
    let p := { p with last := some (h.tick, h.tc), missed := 0, got := true }
    if !seqOk then u.setPath b p
    else
      let u := u.setPath b { p with ring := some h.ring, hdr := some h }
      let u := { u with heard := true, master := u.master || h.master }
      let u := if !ownDual r i then { u with follow := some false }
        else if u.follow.isNone && h.master then { u with follow := some b } else u
      let u := if u.follow != some b then u
        else
          let e : Int := (arr : Int) - p.off - h.launch
          let fresh := u.edges.isEmpty || u.tc != h.tc || u.tick != h.tick
          let u := if fresh && (u.tc != h.tc || u.tick != h.tick) then
              { gatesOff u.played u with played := 32 * ((h.tick : Int) * h.tc), edges := if u.tc != h.tc then [] else u.edges } else u
          let u := { u with tick := h.tick, tc := h.tc, edge := e, edges := ((h.tick, e) :: u.edges.filter fun x => x.1 < h.tick).take 17 }
          match p.num with
          | some m =>
            let t := lineOf u ver
            let u := headerBits r i m h t u
            if nbit h.halt m && u.state != 3 then nodeHalted r i false (max u.played t) u else u
          | none => u
      u
/-- R224, R227: a tide frame: its header, its body, the arrival of its first bit. It is verified when its last block has arrived. -/
def execNodeTideHeaderRx (r : Fin 16) (i : Fin 16) (b : Bool) (hd : FrameHdr) (h : TideHdr) (arr : Nat) (s : State) :
    Host.Outcome State Fault Refusal := run s fun d =>
  let bytes := hdrBytes hd ++ tideBody h
  let d := pass r i b (bytes ++ leBytes 2 hd.crc) d
  if !frameOk hd 1 32 2 || hd.crc != crc16 bytes then discardFrame r i d
  else d.setNode r i (headerRx r i b { h with ring := hd.ring } arr (arr + blocksTime r 6 d) (d.node r i))

/-- R250, R251, R268: the node sends an ALERT on every ring it sits on; the originating node that an unnumbered position names is free. -/
def nodeAlert (r i causes gates : Nat) (d : Dev) : Dev :=
  let d := d.setNode r i ((d.node r i).tally 5 1)
  let u := d.node r i
  forEach (if ownDual r i then [false, true] else [false]) (fun b d =>
    let x := match (u.path b).num with | some m => (m, d) | none => d.draw 256
    x.2.emit (.nodeAlert r i b (alertBlk x.1 causes gates u.tick))) d

/-- R239: the fields of the status word that speak of the window just closed. -/
def closedWord (u : NodeDev) : Nat :=
  let w (c : Nat) : Nat := u.window.getD c 0
  u.scFlag % 4096 + 2 ^ 37 * min (w 2) 1 + 2 ^ 38 * min (w 3) 1 + 2 ^ 39 * b2n u.local_ + 2 ^ 40 * min (w 0) 255 + 2 ^ 48 * min (w 1) 255

/-- A position at the end of a window. -/
def pathEdge (p : NPath) : NPath :=
  { p with hdr := none, got := false, missed := if p.got || p.last.isNone then p.missed else p.missed + 1,
           off := p.offNext.getD p.off, offNext := none }

/-- R247: where a cover overlaps an earlier one it governs from its start, and the earlier one's records from there on are dropped. -/
def addCover (c : NCover) (l : List NCover) : List NCover :=
  if c.e ≤ c.a then l
  else
    let rivals (o : NCover) : Bool := (o.live = c.live && o.ring = c.ring || o.live && c.live) && o.a < c.e && c.a < o.e
    c :: ((l.map fun o => if rivals o then { o with e := c.a } else o).filter fun o => o.a < o.e)

/-- R258: the frames kept from the ring newly followed govern from the edge `x`. -/
def adoptRing (b : Bool) (x : Int) (p : NPair) : NPair :=
  let mine := p.cover.filter fun c => !c.live && c.ring = b
  let rest := p.cover.filter fun c => c.live
  { p with cover := mine.foldr (fun c l => addCover { c with live := true, a := max c.a x } l) rest }

/-- R198, R227, R235, Table NRW-10: the receiver of a position has left READY: its node number and the ring number heard are dropped; the node is
UNNUMBERED where that is the ring it obeys, and sends its own TRAIN blocks on. -/
def pathLost (r i : Nat) (b : Bool) (d : Dev) : Dev :=
  let u := d.node r i
  let u := u.setPath b { u.path b with num := none, ring := none, last := none, missed := 0, got := false, hdr := none }
  let u := if b != u.onB || u.state = 3 || u.state = 4 || u.state = 0 then u else { gatesOff u.played u with state := 0, enNext := false }
  (d.setNode r i u).emit (.nodeTrain r i b)

/-- R232, R246, R251, R255 to R262: the node reaches its recovered tick edge. -/
def nodeEdge (r i : Nat) (d : Dev) : Dev :=
  let u := d.node r i
  let x : Int := 32 * (((u.tick : Int) + 1) * u.tc)
  let u := playTo r i x u
  let f := u.path u.onB
  let u := if f.hdr.isSome then u else { u with local_ := true, zeros := if u.zeros < 2 then 0 else 2 }
  let u := if u.heard then { u with silent := 0 } else { u.tally 4 1 with silent := u.silent + 1 }
  let u := { u with orphan := if u.master then 0 else u.orphan + 1, closed := closedWord u }
  let u := { u with window := [0, 0, 0, 0, 0, 0], scFlag := 0, local_ := false, heard := false, master := false, record := none }
  let u := orphaned r i (silence r i u)
  let hasM (p : NPath) : Bool := match p.hdr with | some h => h.master | none => false
  let o := u.path !u.onB
  let turn := ownDual r i && u.follow.isSome && hasM o && !hasM f
  let nt := if turn then match o.hdr with | some h => h.tick + 1 | none => u.tick + 1 else u.tick + 1
  let u := { u with edge := u.edge + tHat u, tick := nt, a := pathEdge u.a, b := pathEdge u.b }
  let x' : Int := 32 * ((nt : Int) * u.tc)
  let u := if !turn then u else
    let b := !u.onB
    let u := if x' = x then u else { gatesOff u.played u with played := x' }
    forUpTo 6 (fun p u => u.setPair p (adoptRing b x' (u.pair p))) { u with follow := some b }
  let u := forUpTo 6 (fun p u =>
    let v := u.pair p
    match v.next with | some (per, td) => u.setPair p { v with per := per, td := td, next := none } | none => u) u
  let u := match u.cfgNext with | some (n, sb) => { u with norph := n, safeByp := sb, cfgNext := none } | none => u
  let u := if u.bypOpen then { u with bypass := false, bypOpen := false } else u
  if u.toggled then
    let u := { u with state := if u.state = 0 then 0 else 2, toggled := false, enNext := false, safeCause := 0, since := if u.state = 2 then u.since else x', drvFlt := if u.presentC % 4 = 0 then 0 else u.present,
                      standing := if u.presentC = 0 then none else some (u.presentC, u.present) }
    let u := forUpTo 12 (fun g u => { u with drv := tput (fun _ => 0) u.drv (g * 65536 + 8) (if nbit u.drvFlt g then tget (fun _ => 0) u.drv (g * 65536 + 8) else 0) }) u
    let u := { u with scFlag := if nbit u.presentC 0 then u.present else 0 }
    let d := d.setNode r i u
    if u.presentC = 0 then d else nodeAlert r i u.presentC u.present d
  else
    let u := if u.enNext && u.state = 1 then { u with state := 2, enNext := false, since := x' } else u
    let d := d.setNode r i u
    match u.standing with
    | some (c, g) => nodeAlert r i c g d
    | none => d
/-- R232: `lostA`, `lostB`: the receiver of the position has left READY in the window that ends. -/
def execNodeTickEdge (r : Fin 16) (i : Fin 16) (lostA lostB : Bool) (s : State) : Host.Outcome State Fault Refusal :=
  run s fun d => nodeEdge r i (whenDo lostB (pathLost r i true) (whenDo lostA (pathLost r i false) d))

/-- R249: the node's gates are played to `at_`, with the refresh of an upper gate that has been on for BS_MAX. -/
def execNodeBootstrapRefresh (r : Fin 16) (i : Fin 16) (at_ : Nat) (s : State) : Host.Outcome State Fault Refusal :=
  atNode r i s fun u => playTo r i (lineOf u at_) u

/-! ### Edge frames (R243 to R247) -/

/-- R244: the instant of a stamp in counts, and whether it lies in the tick before. -/
def resolve (u : NodeDev) (par st : Nat) : Int :=
  let dl := (par + 4 - u.tick % 4) % 4
  ((u.tick : Int) + (if dl = 3 then (-1 : Int) else (dl : Int))) * u.tc + st

/-- R243: the frame's checks beyond its CRC and lengths. -/
def frameBad (r i : Nat) (f : EdgeFrame) (u : NodeDev) : Bool :=
  (f.recs.any fun e => e.typ != 1 || 11 < e.gate || ownPairs r i ≤ e.gate / 2 || u.tc ≤ e.stamp ||
    !(f.cover.any fun c => c.pair = e.gate / 2 && resolve u c.fromPar c.fromSt ≤ resolve u e.parity e.stamp &&
      resolve u e.parity e.stamp < resolve u c.toPar c.toSt)) ||
    (f.cover.any fun c => 1 < f.cover.countP fun x => x.pair = c.pair)

/-- R245 to R247: an edge frame on position `b` that passed its checks and arrived complete at `at_`. -/
def frameRx (r i : Nat) (b : Bool) (f : EdgeFrame) (at_ : Nat) (u : NodeDev) : NodeDev :=
  if (u.path b).num != some f.node then u
  else if frameBad r i f u then u.tally 1 1
  else if u.state != 2 then u
  else
    let live := u.follow = some b
    let a : Int := gridOf u at_ + 80
    forEach f.cover (fun c u =>
      let lo := max (resolve u c.fromPar c.fromSt) a
      let hi := resolve u c.toPar c.toSt
      let mine := f.recs.filter fun e => e.gate / 2 = c.pair
      let good := mine.filter fun e => lo ≤ resolve u e.parity e.stamp && resolve u e.parity e.stamp < hi
      let frac (e : EdgeRec) : Nat := if nbit (ownIdent r i 13 1) 0 then e.frac else 0
      let recs := good.map fun e => (⟨e.seq, 32 * resolve u e.parity e.stamp + frac e, e.gate % 2 = 1, e.level⟩ : EfRec)
      let v := u.pair c.pair
      let u := if live then u.tally 0 (mine.length - good.length) else u
      u.setPair c.pair { v with cover := addCover ⟨live, b, 32 * lo, 32 * hi, recs⟩ v.cover }) u
/-- R224, R243: an edge frame: its header and its body. -/
def execNodeEdgeFrameRx (r : Fin 16) (i : Fin 16) (b : Bool) (hd : FrameHdr) (f : EdgeFrame) (at_ : Nat) (s : State) :
    Host.Outcome State Fault Refusal := run s fun d =>
  let bytes := hdrBytes hd ++ edgeBody f
  let d := pass r i b (bytes ++ leBytes 2 hd.crc) d
  if !frameOk hd 2 (8 * edgeBlocks f - 16) 2 || hd.crc != crc16 bytes then discardFrame r i d
  else d.setNode r i (frameRx r i b { f with node := hd.node } at_ (d.node r i))

/-! ### HALT, ALERT, records -/

/-- R250, R253: a HALT block with the CRC-8 it bears; gates begin to turn off within 20 ns of the block's last bit at `at_`. It goes on unchanged. -/
def execNodeHaltRx (r : Fin 16) (i : Fin 16) (b : Bool) (target : BitVec 8) (byp : Bool) (par : Fin 4) (crc : BitVec 8) (at_ : Nat) (s : State) :
    Host.Outcome State Fault Refusal := run s fun d =>
  let bytes : List Byte := [0x4B, 2, target, BitVec.ofNat 8 (b2n byp), 0, 0, BitVec.ofNat 8 par]
  let d := d.emit (.nodeForward r i b [ctrlBlk (bytes ++ [crc])])
  let u := d.node r i
  if crc.toNat != crc8 bytes || !(target = 0xFF || (u.path b).num = some target.toNat) then d
  else
    let x := d.draw 321
    x.2.setNode r i (nodeHalted r i byp (max u.played (lineOf u (at_ + x.1))) u)

/-- 09 R268 to R270: events reach the link logic with their cause bits and gates, or (`stands` false) no longer stand. -/
def execNodeDriverReport (r : Fin 16) (i : Fin 16) (causes : Fin 8) (gates : BitVec 12) (stands : Bool) (s : State) :
    Host.Outcome State Fault Refusal := run s fun d =>
  let u := d.node r i
  if !stands then
    d.setNode r i { u with
      present := u.present &&& (4095 ^^^ gates.toNat), presentC := u.presentC &&& (7 ^^^ causes.val),
      standing := match u.standing with
        | some (c, g) => if c &&& (7 ^^^ causes.val) = 0 then none else some (c &&& (7 ^^^ causes.val), g &&& (4095 ^^^ gates.toNat))
        | none => none }
  else
    let latch := causes.val % 4 != 0
    let u := { u with
      present := u.present ||| gates.toNat, presentC := u.presentC ||| causes.val, health := u.health || nbit causes.val 2,
      scFlag := if nbit causes.val 0 then u.scFlag ||| gates.toNat else u.scFlag,
      drvFlt := if latch then u.drvFlt ||| gates.toNat else u.drvFlt,
      standing := if u.state = 3 then u.standing else some (causes.val ||| (u.standing.getD (0, 0)).1, gates.toNat ||| (u.standing.getD (0, 0)).2) }
    let u := forUpTo 12 (fun g u => if nbit causes.val 0 && gates.getLsbD g then
      { u with drv := tmod (fun _ => 0) u.drv (g * 65536 + 8) fun w => w ||| 1 } else u) u
    nodeAlert r i causes.val gates.toNat (d.setNode r i u)

/-- R239: the status word. -/
def statusWord (temp : Nat) (u : NodeDev) : Nat :=
  u.closed + 2 ^ 12 * (u.drvFlt % 4096) + 2 ^ 24 * (temp % 256) + 2 ^ 32 * u.state + 2 ^ 35 * b2n u.bypass + 2 ^ 36 * b2n u.onB +
    2 ^ 56 * u.safeCause + 2 ^ 63 * b2n u.health

/-- R237, Table NRW-6: the container of node number `m` with a record. -/
def containerBytes (m tick : Nat) (rec_ : List Int × List Int × Nat) : List Byte :=
  let c : List Byte := [BitVec.ofNat 8 m, BitVec.ofNat 8 (1 + 2 * (tick % 4))] ++
    ((List.range 8).flatMap fun c => leBytes 2 (unsigned 16 (rec_.1.getD c 0)) ++ leBytes 2 (unsigned 16 (rec_.2.1.getD c 0))) ++ leBytes 8 rec_.2.2
  withCrc c ++ [0, 0, 0, 0]

/-- R224, R236, R238, R258: the sample train passes on position `b`: the values of the window just closed, the temperature field, and whether the
record is ready. The record of a window is the same on both rings. -/
def execNodeSampleTrainRx (r : Fin 16) (i : Fin 16) (b : Bool) (hd : FrameHdr) (avg inst : List Int) (temp : BitVec 8) (ready : Bool) (s : State) :
    Host.Outcome State Fault Refusal := run s fun d =>
  let u := d.node r i
  if !frameOk hd 3 (hd.len / 48 * 48) 0 then discardFrame r i d
  else match (u.path b).num with
  | none => d
  | some m =>
    if u.record.isNone && !ready then d
    else
      let x := u.record.getD ((List.range 8).map fun c => satS 16 (avg.getD c 0), (List.range 8).map fun c => satS 16 (inst.getD c 0),
        statusWord temp.toNat u)
      (d.setNode r i { u with record := some x }).emit (.nodeSample r i b (containerBytes m u.tick x))

/-! ### The service channel at the node (R235, R260 to R262, 09 R280 to R286) -/

/-- R260: the header and bytes 0 to 15 of a request. -/
def reqBytes (hd : FrameHdr) (code : Nat) (q : SvcHead) (args : List Byte) : List Byte := hdrBytes hd ++ svcBody code q.tag q.rlen args
/-- R224, R261: a service frame whose checks and whose request's CRC-16 pass. -/
def reqOk (hd : FrameHdr) (code : Nat) (q : SvcHead) (args : List Byte) : Bool :=
  frameOk hd 4 (18 + q.rlen) 0 && hd.crc = crc16 (reqBytes hd code q args)
/-- R260, Table NRW-11: a reply of R bytes: result, tag, data, CRC-16; data beyond the room is cut. -/
def replyBytes (q : SvcHead) (result : Nat) (data : List Byte) : List Byte :=
  withCrc (((BitVec.ofNat 8 result : Byte) :: BitVec.ofNat 8 q.tag :: data ++ List.replicate q.rlen 0).take (q.rlen - 2))

/-- R235: a broadcast ENUM on position `b`; `free`: the first free entry, 16 for none. -/
def execEnum (r : Fin 16) (i : Fin 16) (b : Bool) (hd : FrameHdr) (q : SvcHead) (free : Fin 17) (s : State) : Host.Outcome State Fault Refusal := run s fun d =>
  if !reqOk hd 1 q [] then discardFrame r i d
  else if !hd.bcast then d
  else
    let u := d.node r i
    let num := if free.val < 16 then some free.val else none
    let u := u.setPath b { u.path b with num := num }
    let st := if u.state = 3 || u.state = 4 then u.state else if b != u.onB then u.state else if num.isSome then 1 else 0
    let u := if st = u.state then u else { gatesOff u.played u with state := st, enNext := false }
    let body : List Byte := 1 :: leBytes 6 (ownIdent r i 21 8)
    let d := d.setNode r i u
    if num.isSome then d.emit (.nodeReply r i b (8 * free) (body ++ [BitVec.ofNat 8 (crc8 body)])) else d

/-- R219, R260, R261: a request goes on; one that is for the node (addressed to its number, or broadcast to the numbered nodes) bears its reply: result
code and data. -/
def answerD (r i : Nat) (b : Bool) (hd : FrameHdr) (q : SvcHead) (code : Nat) (args : List Byte) (f : Dev → Nat × List Byte × Dev) (d : Dev) : Dev :=
  let bytes := reqBytes hd code q args ++ leBytes 2 hd.crc
  let mine := match ((d.node r i).path b).num with | some m => hd.bcast || m = hd.node | none => false
  if !reqOk hd code q args then discardFrame r i (pass r i b (bytes ++ List.replicate q.rlen 0) d)
  else if !mine then pass r i b (bytes ++ List.replicate q.rlen 0) d
  else
    let x := f d
    let l := replyBytes q x.1 x.2.1
    pass r i b (bytes ++ l) (x.2.2.emit (.nodeReply r i b 0 l))
/-- A request whose answer is a matter of the node alone. -/
def answer (r i : Nat) (b : Bool) (hd : FrameHdr) (q : SvcHead) (code : Nat) (args : List Byte) (s : State)
    (f : NodeDev → Nat × List Byte × NodeDev) : Host.Outcome State Fault Refusal :=
  run s (answerD r i b hd q code args fun d => let x := f (d.node r i); (x.1, x.2.1, d.setNode r i x.2.2))

/-- Table NRW-12. -/
def execIdent (r : Fin 16) (i : Fin 16) (b : Bool) (hd : FrameHdr) (q : SvcHead) (s : State) : Host.Outcome State Fault Refusal :=
  answer r i b hd q 2 [] s fun u => (1, leBytes 29 (Config.nodeIdent (16 * r + i)), u)
/-- R231. -/
def execOffset (r : Fin 16) (i : Fin 16) (b : Bool) (hd : FrameHdr) (q : SvcHead) (v : BitVec 32) (s : State) : Host.Outcome State Fault Refusal :=
  answer r i b hd q 3 (leBytes 4 v.toNat) s fun u => (1, [], u.setPath b { u.path b with offNext := some v.toNat })
/-- R261, Table NRW-12: STAT. A request with a code that the table does not name comes as this command too: the node answers UNSUPPORTED. -/
def execStat (r : Fin 16) (i : Fin 16) (b : Bool) (hd : FrameHdr) (q : SvcHead) (code : BitVec 8) (s : State) : Host.Outcome State Fault Refusal :=
  answer r i b hd q code.toNat [] s fun u =>
    if code = 8 then (1, u.counts.flatMap (leBytes 4), u) else (4, [], u)

/-- R262. -/
def nodeCfg (r i : Nat) (b : Bool) (args : List Byte) (u : NodeDev) : Nat × List Byte × NodeDev :=
  let f := leAt args 0 1
  if u.state != 1 || u.follow != some b then (2, [], u)
  else if f = 7 then
    if leAt args 1 1 < 2 || 16 < leAt args 1 1 || 1 < leAt args 2 1 || leAt args 3 9 != 0 then (3, [], u)
    else (1, [], { u with cfgNext := some (leAt args 1 1, leAt args 2 1 = 1) })
  else if 5 < f || ownPairs r i ≤ f || ownIdent r i 14 3 < leAt args 1 3 || leAt args 6 6 != 0 then (3, [], u)
  else (1, [], u.setPair f { u.pair f with next := some (leAt args 1 3, leAt args 4 2) })
/-- R262. -/
def execNodeCfg (r : Fin 16) (i : Fin 16) (b : Bool) (hd : FrameHdr) (q : SvcHead) (args : List Byte) (s : State) : Host.Outcome State Fault Refusal :=
  answer r i b hd q 4 args s (nodeCfg r i b args)

/-- The driver configuration of a gate as held: addresses 0x0100 up. -/
def gateConfig (g : Nat) (u : NodeDev) : List (Nat × Word) :=
  (u.drv.filter fun e => e.1 / 65536 = g && 0x100 ≤ e.1 % 65536).map fun e => (e.1 % 65536, e.2)
/-- Table GDS-6: an address of the standard map. -/
def drvStandard (a : Nat) : Bool := a = 0 || a = 4 || a = 8 || a = 0xC || a = 0x10
/-- Table GDS-6: what a driver address reads as. -/
def drvValue (r i g a : Nat) (u : NodeDev) : Nat :=
  if a = 0 || a = 4 then Config.nodeDriver (16 * r + i) g a % 2 ^ 32
  else if a = 0xC then
    if g = 0xFF then crc32c ((List.range 12).flatMap fun g => leBytes 4 (Config.driverCheck (gateConfig g u))) else Config.driverCheck (gateConfig g u) % 2 ^ 32
  else (tget (fun _ => 0) u.drv (g * 65536 + a)).toNat
/-- 09 R280: the gate and address are of the node's drivers. -/
def drvKnown (r i : Nat) (g : BitVec 8) (a : Nat) : Bool := (g = 0xFF || g.toNat < 2 * ownPairs r i) && (drvStandard a || 0x100 ≤ a)

/-- 09 R280: DRV_WR. -/
def execDrvWr (r : Fin 16) (i : Fin 16) (b : Bool) (hd : FrameHdr) (q : SvcHead) (g : BitVec 8) (a : BitVec 16) (v : Word) (s : State) :
    Host.Outcome State Fault Refusal := answer r i b hd q 5 (g :: 0 :: leBytes 2 a.toNat ++ leBytes 4 v.toNat) s fun u =>
  if u.state != 1 || u.follow != some b then (2, [], u)
  else if !drvKnown r i g a.toNat then (3, [], u)
  else if drvStandard a.toNat then (2, [], u)
  else
    let gs := if g = 0xFF then List.range 12 else [g.toNat]
    let u := forEach gs (fun n u => { u with drv := tput (fun _ => 0) u.drv (n * 65536 + a.toNat) v }) u
    (1, leBytes 4 v.toNat, u)
/-- 09 R280: DRV_RD. -/
def execDrvRd (r : Fin 16) (i : Fin 16) (b : Bool) (hd : FrameHdr) (q : SvcHead) (g : BitVec 8) (a : BitVec 16) (s : State) :
    Host.Outcome State Fault Refusal := answer r i b hd q 6 (g :: 0 :: leBytes 2 a.toNat) s fun u =>
  if !drvKnown r i g a.toNat || (g = 0xFF && a != 0x0C) then (3, [], u)
  else (1, leBytes 4 (drvValue r i g.toNat a.toNat u), u)

/-- 09 R284 to R286: `passed`: the gates whose comparator reports in time. -/
def execSelftest (r : Fin 16) (i : Fin 16) (b : Bool) (hd : FrameHdr) (q : SvcHead) (mask : BitVec 12) (alertTest : Bool) (passed : BitVec 12)
    (s : State) : Host.Outcome State Fault Refusal :=
  run s (answerD r i b hd q 7 (leBytes 2 mask.toNat ++ [BitVec.ofNat 8 (b2n alertTest)]) fun d =>
  let u := d.node r i
  if u.state != 1 || u.follow != some b || u.drvFlt &&& mask.toNat != 0 then (2, [], d)
  else
    let good := (mask &&& passed).toNat
    let bad := (mask &&& ~~~ passed).toNat
    let u := forUpTo 12 (fun g u =>
      let old := (tget (fun _ => 0) u.drv (g * 65536 + 0x10)).toNat
      let w := good + 4096 * bad + 2 ^ 24 * ((old / 2 ^ 24 + 1) % 128) + 2 ^ 31
      let u := { u with drv := tput (fun _ => 0) u.drv (g * 65536 + 0x10) (BitVec.ofNat 32 w) }
      if nbit bad g then { u with drv := tmod (fun _ => 0) u.drv (g * 65536 + 8) fun w => w ||| 0x20 } else u) u
    let d := d.setNode r i { u with drvFlt := u.drvFlt ||| bad }
    (1, [], if alertTest then nodeAlert r i 1 good d else d))

end Sys2Proof.Machine
end

