-- ==== Sys2Proof/Machine/Topology.lean ====
section
/-! DEFINITION. Fabric topology (10): ports and HELLO, link state and routes, the root, addresses and leases, epochs, merges. -/
namespace Sys2Proof.Machine

def keyLt (a b : Nat × Nat) : Bool := a.1 < b.1 || (a.1 = b.1 && a.2 < b.2)
def lowestKey (l : List (Nat × Nat)) : Option (Nat × Nat) :=
  l.foldl (fun m k => match m with | none => some k | some b => if keyLt k b then some k else some b) none

def localOnly : Fld := ⟨0x40100000, 0, 1⟩
/-- R297, R301: the priority the device advertises. -/
def ownPrio (d : Dev) : Nat := if d.flag localOnly || d.fab.resigned then 255 else d.f (stpF 0 8 8)
/-- R300. -/
def solitary (d : Dev) : Bool := isRoot d && !d.fab.active
/-- A string in PRECHARGE or RUN (Table FTP-2). -/
def anyLive (d : Dev) : Bool := d.strings.any fun e => e.2.sstate = 1 || e.2.sstate = 2
def rootUid (d : Dev) : Nat := match d.fab.root with | some r => r.2 | none => 0

def mkLsa (seq : Nat) (d : Dev) : Lsa :=
  ⟨ownUid, seq, d.fab.addr, ownPrio d, anyLive d, solitary d, isRoot d, d.fab.merge.isSome, if d.fab.kind = 2 then d.fab.left else 0,
    (List.range 4).map fun p => nbrUid p d⟩

def storeLsa (l : Lsa) (d : Dev) : Dev :=
  { d with fab := { d.fab with lsas := (d.fab.lsas.filter fun r => r.lsa.uid != l.uid) ++ [⟨l, 0⟩] } }

/-- R303: the device originates its advertisement on a change, or (`force`) anyway. -/
def originate (force : Bool) (d : Dev) : Dev :=
  let old := lsaOf (lsasOf d) ownUid
  let new := mkLsa d.fab.lsaSeq d
  if !d.flag fabEn || (!force && old.any fun o => { o with lease := new.lease } = new) then d
  else
    let l := { new with seq := (d.fab.lsaSeq + 1) % 2 ^ 32 }
    let d := storeLsa l { d with fab := { d.fab with lsaSeq := l.seq } }
    forUpTo 4 (fun p d => if d.f (portState p) = 4 then d.emit (.send (.port p) 5 52 (.lsa l)) else d) d

/-- The registers that show the fabric's state (Tables FTP-9 to FTP-12). -/
def showFab (d : Dev) : Dev :=
  let d := ((d.setF (stpStat 6) (b2n (isRoot d))).setF (stpStat 7) (b2n (solitary d))).setF (stpStat 8) (b2n d.fab.merge.isSome)
  let d := (d.wr (stpReg 0x28) (BitVec.ofNat 32 (rootUid d % 2 ^ 32))).wr (stpReg 0x2C) (BitVec.ofNat 32 (rootUid d / 2 ^ 32))
  let info : Nat := match d.fab.root with
    | none => 0x0FF000FF
    | some r =>
      let addr := if r.2 = ownUid then d.fab.addr else match lsaOf (lsasOf d) r.2 with | some l => l.addr | none => 0
      let hops := match d.fab.routes.find? fun x => x.1 = r.2 with | some x => min x.2.1 255 | none => if r.2 = ownUid then 0 else 255
      r.1 + 256 * addr + 2 ^ 20 * hops
  let d := d.wr (stpReg 0x30) (BitVec.ofNat 32 info)
  let d := (d.setF (stpF 0xC 0 12) d.fab.addr).setF (stpF 0xC 12 2) d.fab.kind
  let d := d.setF (stpF 0x14 0 17) (if d.fab.kind = 2 then d.fab.left else 0)
  let d := d.setF (stpF 0x38 0 13) (max 1 d.fab.reach.length)
  let d := d.setF (stpF 0x38 16 7) (min 127 (d.fab.routes.foldl (fun m r => max m r.2.1) 0))
  let d := d.wr (stpReg 0x3C) (BitVec.ofNat 32 (unsigned 32 (match d.fab.merge with | some m => satS 32 m.left | none => 0)))
  forUpTo 4 (fun p d =>
    let seam := match (d.strait p).hello with
      | some h => d.f (portState p) = 4 && h.rootUid != 0 && rootUid d != 0 && h.rootUid != rootUid d
      | none => false
    d.setF ⟨portReg p 4, 3, 1⟩ (b2n seam)) d

/-- R302: the root announces an epoch; a cause while one is pending joins it. -/
def announceEpoch (d : Dev) : Dev :=
  if !isRoot d || d.tide.next.isSome then d
  else
    let e := (d.fab.topEpoch + 1) % 65536
    let m : EpochMsg := ⟨e, d.tide.k + 8, 5 * d.tide.fabT, ownPrio d, ownUid⟩
    ({ d with tide := { d.tide with next := some ⟨e, m.k0, m.period⟩ }, fab := { d.fab with topEpoch := e } }).emit (.send .all 6 16 (.epoch m))

def setRoot (r : Option (Nat × Nat)) (d : Dev) : Dev :=
  if d.fab.root = r then d else { d with fab := { d.fab with root := r, cand := 0 } }.raise (stpStat 0)

/-- R293: the static address, unless a reachable device of lower UID advertises it. -/
def staticAddr (d : Dev) : Dev :=
  let a := d.f (stpF 8 0 12)
  if a = 0 then (if d.fab.kind = 1 then { d with fab := { d.fab with addr := 0, kind := 0, conflict := false } } else d)
  else
    match d.fab.lsas.find? fun l => l.lsa.addr = a && l.lsa.uid < ownUid && d.fab.reach.contains l.lsa.uid with
    | none => { d with fab := { d.fab with addr := a, kind := 1, left := 0, conflict := false } }
    | some l =>
      if d.fab.conflict then { d with fab := { d.fab with addr := 0, kind := 0 } }
      else
        let d := { d with fab := { d.fab with addr := 0, kind := 0, conflict := true } }
        jEvent 7 (leBytes 2 a ++ leBytes 8 l.lsa.uid) 0x5000 ((d.raise (stpStat 4)).count (stpF 0x44 24 8))

/-- R312: the devices on the loser's side of the seam, by link state. -/
def seamUids (d : Dev) : List Nat :=
  let ls := lsasOf d
  (ls.filter fun l => l.merging && l.nbrs.any fun n => match lsaOf ls n with | some x => linked ls l.uid n && !x.merging | none => false).map (·.uid)

/-- R313: the loser's root turns a slew into a step of the remainder once no device of its part is in RUN. -/
def mergeStep (d : Dev) : Dev :=
  match d.fab.merge with
  | none => d
  | some u =>
    if !isRoot d || !u.slew || u.left = 0 || u.km.isNone || u.kd.isSome || anyLive d ||
        (lsasOf d).any (fun l => l.merging && l.run && d.fab.reach.contains l.uid) then d
    else
      let km := d.tide.k + 8
      showFab (({ d with fab := { d.fab with merge := some { u with km := some km, slew := false } } }).emit (.send .all 9 16 (.merge (.start u.left km false))))

/-- R315: after a merge, another reachable device holds the same dynamic address. -/
def leaseDup (d : Dev) : Dev :=
  if d.fab.kind != 2 then d
  else
    let dup := d.fab.lsas.any fun l => l.lsa.uid != ownUid && l.lsa.addr = d.fab.addr && d.fab.merge.isNone && !l.lsa.merging &&
      d.fab.reach.contains l.lsa.uid
    let d' := { d with fab := { d.fab with conflict := dup } }
    if dup && !d.fab.conflict then (d'.raise (stpStat 4)).count (stpF 0x44 24 8) else d'

/-- R298 to R302, R311, R316: what follows at once from a change of link state. -/
def linkChanged (d : Dev) : Dev :=
  let reach := (reachFrom (lsasOf d) ownUid).map (·.1)
  let gone := d.fab.reach.any fun u => !reach.contains u
  let d := { d with fab := { d.fab with reach := reach } }
  let d := whenDo gone (fun d => announceEpoch (d.raise (stpStat 2))) d
  let roots := ((lsasOf d).filter fun l => l.uid != ownUid && l.isRoot && reach.contains l.uid)
  let d := match d.fab.root with
    | some r => if r.2 != ownUid && !(roots.any fun l => l.uid = r.2) then setRoot none d else d
    | none => d
  let d := if d.fab.root.isSome then d else setRoot (lowestKey (roots.map fun l => (l.prio, l.uid))) d
  let foreign := lowestKey ((roots.filter fun l => l.uid != rootUid d && !l.solitary && !l.merging).map fun l => (l.prio, l.uid))
  let d := match d.fab.merge with
    | some m => if roots.any fun l => l.uid = m.winner then d else announceEpoch { d with fab := { d.fab with merge := none } }
    | none => match d.fab.root, foreign with
      | some r, some f => if keyLt f r && !solitary d then ({ d with fab := { d.fab with merge := some { winner := f.2 } } }).raise (stpStat 1) else d
      | _, _ => d
  let d := staticAddr d
  let d := leaseDup d
  mergeStep (showFab (originate false d))

/-- 12: the partner that the pair registers name. -/
def partnerUid (d : Dev) : Nat := (d.rd 0x47000008).toNat + 2 ^ 32 * (d.rd 0x4700000C).toNat
/-- R291: PAIR_OK and PAIR_ERR of a port after a HELLO. -/
def pairCheck (p : Nat) (d : Dev) : Dev :=
  match (d.strait p).hello with
  | none => d
  | some h =>
    if !d.flag ⟨portReg p 0, 1, 1⟩ then (if h.pair then d.raise ⟨portReg p 4, 6, 1⟩ else d).setF ⟨portReg p 4, 7, 1⟩ 0
    else if h.pair && h.uid = partnerUid d then d.setF ⟨portReg p 4, 7, 1⟩ (b2n (d.f (portState p) = 4))
    else (d.raise ⟨portReg p 4, 6, 1⟩).setF ⟨portReg p 4, 7, 1⟩ 0
/-- The pair port, if any. -/
def pairPort (d : Dev) : Option Nat := (List.range 4).find? fun p => d.flag ⟨portReg p 4, 7, 1⟩

/-- R290: a port leaves ACTIVE or its link for state `st`; link-local ferries that waited on it are lost. -/
def portLeave (p st : Nat) (d : Dev) : Dev :=
  let was := d.f (portState p)
  if was = st then d
  else
    let d := (d.setF (portState p) st).setF ⟨portReg p 4, 7, 1⟩ 0
    let d := if st < 2 then d.modStrait p fun u => { u with hello := none, heard := 0 } else d
    let dead (q : QEntry) : Bool := q.ferry.port = some p && !q.egress.isEmpty && !mayPass p q.ferry.typ d
    let lost := (d.fab.queue ++ d.fab.waiting).countP dead
    let d := { d with fab := { d.fab with queue := d.fab.queue.filter fun q => !dead q, waiting := d.fab.waiting.filter fun q => !dead q } }
    let d := showQueues (admitLocal (whenDo (lost != 0) (fun d => d.count (stpF 0x228 0 16) lost) d))
    if was != 4 then d else linkChanged d

/-- Are the lanes of a Strait port UP? -/
def lanesUp (p : Nat) (d : Dev) : Bool := [16 + 2 * p, 17 + 2 * p].all fun n => d.f ⟨primAddr .lane n 4, 0, 4⟩ = 6
/-- Table FTP-1: the lanes of a port come UP or leave it. -/
def portLink (p : Nat) (d : Dev) : Dev := if d.flag fabEn && d.f (portState p) = 1 && lanesUp p d then d.setF (portState p) 2 else d
def portDown (p : Nat) (d : Dev) : Dev := if d.f (portState p) = 0 then d else portLeave p 1 d

/-- R289, R291: a write of STP_PORT_CTL_p; a second PAIR is refused. -/
def portCtlWrite (p : Nat) (v : Word) (d : Dev) : Word × Dev :=
  let other := (List.range 4).any fun q => q != p && d.flag ⟨portReg q 0, 1, 1⟩
  let bad := v.getLsbD 1 && other
  let d := d.store (portReg p 0) (if bad then fset v 1 1 (d.f ⟨portReg p 0, 1, 1⟩) else v)
  let d := if v.getLsbD 0 then portLeave p 0 d else if d.f (portState p) = 0 then portLink p (d.setF (portState p) 1) else d
  (if bad then refusedCode else 0, pairCheck p d)
/-- R289. -/
def execPortAdminWrite (p : Fin 4) (v : Word) (s : State) : Host.Outcome State Fault Refusal := runCore s fun d => (portCtlWrite p v d).2

/-- R290, Table FTP-2. -/
def execHelloTimer (p : Fin 4) (s : State) : Host.Outcome State Fault Refusal := runCore s fun d =>
  if d.f (portState p) < 2 then d
  else
    let hops := match d.fab.root with
      | none => 255
      | some r => if r.2 = ownUid then 0 else match d.fab.routes.find? fun x => x.1 = r.2 with | some x => min x.2.1 255 | none => 255
    d.emit (.send (.port p) 4 40 (.hello ⟨ownUid, (d.rd (stpReg 4)).toNat, d.fab.addr, ownPrio d, p, d.flag ⟨portReg p 0, 1, 1⟩, solitary d, anyLive d,
      d.fab.merge.isSome, rootUid d, match d.fab.root with | some r => r.1 | none => 0, hops, d.tide.epoch, (d.strait p).heard, d.fab.lsaSeq⟩))

/-- R290, R300, R311: a port becomes ACTIVE to the neighbour of `h`; the link state held is flooded to it at once. -/
def portActive (p : Nat) (h : Hello) (d : Dev) : Dev :=
  let sol := solitary d
  let d := d.setF (portState p) 4
  let d := forUpTo 4 (fun c d => d.modCred p c fun _ => {}) d
  let d := { d with fab := { d.fab with active := true } }
  let d := forEach (lsasOf d) (fun l d => if l.uid = ownUid then d else d.emit (.send (.port p) 5 52 (.lsa l))) d
  let other := h.rootUid != 0 && h.rootUid != rootUid d && d.fab.root.isSome
  let d := whenDo (other && !sol && !h.solitary) (fun d => d.raise (stpStat 1)) d
  let yields := sol && other && (!h.solitary || keyLt (h.rootPrio, h.rootUid) (ownPrio d, ownUid))
  let d := if yields then setRoot (some (h.rootPrio, h.rootUid)) { d with tide := { d.tide with tstate := 0, near := 0, far := 0 } } else d
  let d := pairCheck p d
  linkChanged d

/-- R290, Table FTP-1: a HELLO whose check passes, on a port in state `st`. -/
def helloHeard (p st : Nat) (h : Hello) (d : Dev) : Dev :=
  let isolate (d : Dev) : Dev := if st = 2 then d.setF (portState p) 3 else d
  if h.uid = ownUid then isolate (d.raise ⟨portReg p 4, 4, 1⟩)
  else if h.fab != (d.rd (stpReg 4)).toNat then isolate (d.raise ⟨portReg p 4, 5, 1⟩)
  else
    let d := d.modStrait p fun u => { u with hello := some h }
    let d := (d.wr (portReg p 8) (BitVec.ofNat 32 (h.uid % 2 ^ 32))).wr (portReg p 0xC) (BitVec.ofNat 32 (h.uid / 2 ^ 32))
    let d := d.wr (portReg p 0x10) (BitVec.ofNat 32 (h.addr % 4096 + 4096 * (h.prio % 256) + 2 ^ 20 * (h.port % 4)))
    let d := if st = 3 then d.setF (portState p) 2 else d
    if st != 4 && h.heard = ownUid then portActive p h d else showFab (pairCheck p d)

/-- R290, Table FTP-5: a HELLO on port `p`. -/
def execHelloRx (p : Fin 4) (h : Hello) (crcOk : Bool) (s : State) : Host.Outcome State Fault Refusal := runCore s fun d =>
  let d := consume 4 d
  let st := d.f (portState p)
  if st < 2 then d
  else if !crcOk || !(h.hops ≤ 64 || h.hops = 255) then d.count ⟨portReg p 0x14, 16, 16⟩
  else helloHeard p st h (d.modStrait p fun u => { u with heard := h.uid })

/-- R290: `elapsed` µs without a valid HELLO. -/
def execNeighbourTimeout (p : Fin 4) (elapsed : Nat) (s : State) : Host.Outcome State Fault Refusal := runCore s fun d =>
  if d.f (portState p) = 4 && 3000 ≤ elapsed then portLeave p 2 (d.count ⟨portReg p 0x14, 0, 16⟩) else d

/-- R303: newer modulo 2^32. -/
def newerSeq (a b : Nat) : Bool := (a + 2 ^ 32 - b) % 2 ^ 32 != 0 && (a + 2 ^ 32 - b) % 2 ^ 32 < 2 ^ 31

/-- R303. -/
def execLsaRx (p : Fin 4) (l : Lsa) (crcOk : Bool) (s : State) : Host.Outcome State Fault Refusal := runCore s fun d =>
  let d := consume 5 d
  if d.f (portState p) != 4 then d
  else if !crcOk || 0xFFD < l.addr || l.nbrs.length != 4 then d.count ⟨portReg p 0x14, 16, 16⟩
  else
    let held := lsaOf (lsasOf d) l.uid
    if held.any fun h => !newerSeq l.seq h.seq then d
    else if l.uid = ownUid then originate true { d with fab := { d.fab with lsaSeq := l.seq } }
    else
      let d := storeLsa l d
      let d := forUpTo 4 (fun q d => if q != p.val && d.f (portState q) = 4 then d.emit (.send (.port q) 5 52 (.lsa l)) else d) d
      linkChanged d

/-- R303: a change occurs, or (`second`) one second passes, which also ages what is held and counts leases down. -/
def execLsaRefresh (second : Bool) (s : State) : Host.Outcome State Fault Refusal := runCore s fun d =>
  let down (l : List LeaseRec) : List LeaseRec := l.map fun r => { r with left := r.left - 1 }
  let d := if !second then d else { d with fab := { d.fab with
    lsas := d.fab.lsas.map fun r => if r.lsa.uid = ownUid then r else { r with age := r.age + 1 },
    left := d.fab.left - 1, leases := (down d.fab.leases).filter (·.left != 0), reserved := down d.fab.reserved } }
  mergeStep (showFab (originate second d))

/-- R303, R310: an advertisement held for 4 s without refresh. -/
def execLsaWithdraw (u : BitVec 64) (s : State) : Host.Outcome State Fault Refusal := runCore s fun d =>
  match d.fab.lsas.find? fun r => r.lsa.uid = u.toNat && 4 ≤ r.age with
  | none => d
  | some r =>
    let d := { d with fab := { d.fab with
      lsas := d.fab.lsas.filter fun x => x.lsa.uid != u.toNat
      reserved := if 0x800 ≤ r.lsa.addr then d.fab.reserved ++ [⟨r.lsa.uid, r.lsa.addr, r.lsa.lease⟩] else d.fab.reserved } }
    linkChanged d

/-- R310. -/
def execReservedAddressRelease (a : BitVec 12) (s : State) : Host.Outcome State Fault Refusal := runCore s fun d =>
  { d with fab := { d.fab with reserved := d.fab.reserved.filter fun r => !(r.addr = a.toNat && r.left = 0) } }

/-- 11 R330, R306: ferries whose egress no longer works take the routes in force. -/
def requeue (d : Dev) : Dev :=
  let dead (p : Nat) (q : QEntry) : Bool := p < 4 && q.ferry.port != some p && d.f (portState p) != 4
  let one (q : QEntry) : QEntry :=
    if q.ferry.dest != 0xFFF && q.egress.any fun p => dead p q then
      { q with egress := egresses q.ferry.cls q.ferry.src q.ferry.dest q.acct d }
    else { q with egress := q.egress.filter fun p => !dead p q }
  let live := d.fab.queue.filter fun q => !q.egress.isEmpty
  let lost := (live.map one).countP fun q => q.egress.isEmpty && q.ferry.dest != 0xFFF
  let l := d.fab.queue.map fun q => if q.egress.isEmpty then q else one q
  let d := { d with fab := { d.fab with queue := l.filter fun q => !q.egress.isEmpty || q.ends != 0 } }
  showQueues (whenDo (lost != 0) (fun d => d.count (stpF 0x40 16 16) lost) d)

/-- 17 R513: a subscription becomes stale: it holds its values for the partition hold time. -/
def subStale (q : Nat) (d : Dev) : Dev :=
  let u : SubU := tget (fun _ => {}) d.host.subs q
  if u.state != 1 then d
  else jEvent 0xC [BitVec.ofNat 8 q, 2] (0x6800 + q)
    { d with host := { d.host with subs := tput (fun _ => {}) d.host.subs q { u with state := 2 } } }
/-- A device at an address that no route leads to (R309). -/
def unreachable (a : Nat) (d : Dev) : Bool := match uidAt a d with | some u => (nextHops u d).isEmpty | none => true
/-- R309, 17 R513: the route to a subscription's source is lost. -/
def routesLost (d : Dev) : Dev :=
  forEach (d.host.subs.map fun e => (e.1, e.2.source % 4096)) (fun x d => if unreachable x.2 d then subStale x.1 d else d) d

/-! ### Addresses (R293 to R295, R315) -/

/-- R294. -/
def execLeaseReq (s : State) : Host.Outcome State Fault Refusal := runCore s fun d =>
  let on := (List.range 4).any fun p => d.f (portState p) = 4
  if d.f (stpF 8 0 12) = 0 && d.fab.addr = 0 && on && d.fab.root.isSome then d.emit (.send .root 7 8 (.leaseReq ownUid)) else d

/-- R294, R310: the lowest dynamic address neither leased, reserved nor in link state. -/
def freeAddr (d : Dev) : Option Nat :=
  let used := d.fab.leases.map (·.addr) ++ d.fab.reserved.map (·.addr) ++ d.fab.lsas.map (·.lsa.addr) ++ [d.fab.addr]
  ((List.range 0x7FE).find? fun i => !used.contains (0x800 + i)).map (· + 0x800)

/-- The holder takes an address; a change of it, and a grant while another device advertises it (R315), is journalled. -/
def takeLease (a time : Nat) (d : Dev) : Dev :=
  let old := d.fab.addr
  let dup := d.fab.lsas.any fun l => l.lsa.uid != ownUid && l.lsa.addr = old && d.fab.reach.contains l.lsa.uid
  let d := { d with fab := { d.fab with addr := a, kind := 2, left := time, term := time } }
  linkChanged (whenDo (old != 0 && (old != a || dup)) (jEvent 8 (leBytes 2 old ++ leBytes 2 a) 0x5000) d)

/-- R294, R315: the root grants `a` to `u`, by broadcast, since the device may hold no address. -/
def grant (u a : Nat) (d : Dev) : Dev :=
  let t := d.f (stpF 0x10 0 17)
  let d := { d with fab := { d.fab with leases := (d.fab.leases.filter fun r => r.uid != u) ++ [⟨u, a, t⟩] } }
  if u = ownUid then takeLease a t d else d.emit (.send .all 8 16 (.lease u a t))

/-- R315: the reachable holders of dynamic addresses. -/
def holders (d : Dev) : List LeaseRec :=
  (if d.fab.kind = 2 then [⟨ownUid, d.fab.addr, d.fab.left⟩] else []) ++
    (d.fab.lsas.filter fun l => l.lsa.uid != ownUid && 0x800 ≤ l.lsa.addr && d.fab.reach.contains l.lsa.uid).map fun l => ⟨l.lsa.uid, l.lsa.addr, l.lsa.lease⟩
/-- R315: of two holders of one address, it goes to the first. -/
def holdsLater (x y : LeaseRec) : Bool := y.left < x.left || (x.left = y.left && x.uid < y.uid)
/-- R315: the root of a joined fabric re-leases an address that two devices hold, and gives the other a new one. -/
def resolveDups (d : Dev) : Dev :=
  if !isRoot d || d.fab.merge.isSome then d
  else
    let hs := holders d
    let rival (x : LeaseRec) : List LeaseRec := hs.filter fun y => y.uid != x.uid && y.addr = x.addr
    let granted (y : LeaseRec) (d : Dev) : Bool := d.fab.leases.any fun r => r.uid = y.uid && r.addr != y.addr
    let open_ := hs.filter fun x => (x :: rival x).any fun y => (rival y).any (holdsLater · y) && !granted y d
    forEach open_ (fun x d =>
      if (rival x).isEmpty then d
      else if (rival x).any (holdsLater · x) then (match freeAddr d with | some a => grant x.uid a d | none => d)
      else grant x.uid x.addr d) d

/-- R294: a LEASE_REQ of `u`; the address held before is granted again. -/
def execLeaseGrant (u : BitVec 64) (s : State) : Host.Outcome State Fault Refusal := runCore s fun d =>
  let d := consume 7 d
  if !isRoot d then d
  else match d.fab.leases.find? fun r => r.uid = u.toNat with
    | some r => grant u.toNat r.addr d
    | none => match freeAddr d with | some a => grant u.toNat a d | none => d

/-- Table FTP-5, Table FTP-10: a topology ferry on port `p` is discarded. -/
def topoDiscard (p : Nat) (d : Dev) : Dev := d.count ⟨portReg p 0x14, 16, 16⟩

/-- R294, Table FTP-5: a LEASE on port `p`; one of the current root for this device counts. -/
def execLeaseRx (p : Fin 4) (u : BitVec 64) (a : BitVec 12) (time : Nat) (fromRoot crcOk : Bool) (s : State) : Host.Outcome State Fault Refusal :=
  runCore s fun d =>
  let d := consume 8 d
  if !crcOk || !fromRoot || a.toNat < 0x800 || 0xFFD < a.toNat then topoDiscard p d
  else if d.f (stpF 8 0 12) != 0 || u.toNat != ownUid then d
  else takeLease a.toNat time d

/-- R294: half the lease has run. -/
def execLeaseRenewal (s : State) : Host.Outcome State Fault Refusal := runCore s fun d =>
  if d.fab.kind = 2 && 2 * d.fab.left ≤ d.fab.term && d.fab.root.isSome then d.emit (.send .root 7 8 (.leaseReq ownUid)) else d

/-- R294. -/
def execLeaseLost (s : State) : Host.Outcome State Fault Refusal := runCore s fun d =>
  if d.fab.kind != 2 || d.fab.left != 0 then d
  else
    let old := d.fab.addr
    let d := { d with fab := { d.fab with addr := 0, kind := 0 } }
    linkChanged (jEvent 8 (leBytes 2 old ++ leBytes 2 0) 0x5000 (d.raise (stpStat 3)))

/-- R304, R306, R315: the new table forwards. -/
def execRouteRecomputeDone (s : State) : Host.Outcome State Fault Refusal := runCore s fun d =>
  let r := reachFrom (lsasOf d) ownUid
  let far := r.filter fun x => 64 < x.2.1
  let d := { d with fab := { d.fab with routes := r } }
  let d := match far with
    | [] => d
    | x :: _ => if d.flag (stpStat 5) then d
        else jEvent 9 (leBytes 2 (match lsaOf (lsasOf d) x.1 with | some l => l.addr | none => 0)) 0x5000 (d.raise (stpStat 5))
  resolveDups (routesLost (requeue (linkChanged d)))

/-! ### The root (R297 to R302) -/

/-- R299: is the device its own candidate? -/
def ownCandidate (d : Dev) : Bool :=
  d.fab.root.isNone && ownPrio d < 255 &&
    (lsasOf d).all fun l => l.uid = ownUid || !d.fab.reach.contains l.uid || 255 ≤ l.prio || keyLt (ownPrio d, ownUid) (l.prio, l.uid)

/-- R299, R294, R310: the device becomes root; the lease table comes from link state; its own T, or the one it is about to take, is the fabric's (R40). -/
def becomeRoot (d : Dev) : Dev :=
  let d := (setRoot (some (ownPrio d, ownUid)) d).count (stpF 0x44 0 8)
  let dyn := (lsasOf d).filter fun l => 0x800 ≤ l.addr && d.fab.reach.contains l.uid
  let recs (ls : List Lsa) : List LeaseRec := ls.map fun l => ⟨l.uid, l.addr, l.lease⟩
  let d := { d with
    tide := { d.tide with tstate := 2, silent := 0, line := none, fabT := match d.tide.pendT with | some x => x.1 | none => d.tide.period }
    fab := { d.fab with leases := recs dyn } }
  showFab (originate false (announceEpoch d))
/-- R299. -/
def candidateEdge (d : Dev) : Dev :=
  if d.flag fabEn && ownCandidate d then if 8 ≤ d.fab.cand then becomeRoot d else d
  else { d with fab := { d.fab with cand := 0 } }
/-- R299: own candidate at 8 consecutive edges. -/
def execBecomeRoot (s : State) : Host.Outcome State Fault Refusal := runCore s candidateEdge

/-- R301. -/
def resign (d : Dev) : Dev :=
  if !isRoot d then d else linkChanged (setRoot none { d with fab := { d.fab with resigned := true } })
/-- R301. -/
def execResign (s : State) : Host.Outcome State Fault Refusal := runCore s resign

/-- R302, R39, Table FTP-5: an EPOCH ferry on port `p`. -/
def execEpochRx (p : Fin 4) (m : EpochMsg) (crcOk : Bool) (s : State) : Host.Outcome State Fault Refusal := runCore s fun d =>
  let d := consume 6 d
  let ahead := (m.epoch + 65536 - d.fab.topEpoch) % 65536
  if !crcOk || m.uid != rootUid d || m.uid = ownUid || ahead = 0 || 32768 ≤ ahead then topoDiscard p d
  else
    let d := { d with tide := { d.tide with next := some ⟨m.epoch, m.k0, m.period⟩, fabT := m.period / 5 }, fab := { d.fab with topEpoch := m.epoch, resigned := false } }
    originate false d

/-! ### Merge (R311 to R316) -/

/-- R312, R314, Table FTP-5: the losing part's messages, on port `p` from the device of UID `src`: its root or, for a measurement, the seam device. -/
def execMergeRx (p : Fin 4) (m : MergeMsg) (src : BitVec 64) (crcOk : Bool) (s : State) : Host.Outcome State Fault Refusal := runCore s fun d =>
  let d := consume 9 d
  let fromPart := match m with
    | .measure _ => (seamUids d).contains src.toNat && (seamUids d).all fun x => src.toNat ≤ x
    | _ => src.toNat = rootUid d
  if !crcOk || !fromPart then topoDiscard p d
  else match d.fab.merge with
  | some u =>
    match m with
    | .measure x =>
      if !isRoot d || u.kd.isSome then d
      else
        let slew := anyLive d || (lsasOf d).any fun l => l.merging && l.run && d.fab.reach.contains l.uid
        let km := d.tide.k + 8
        showFab (({ d with fab := { d.fab with merge := some { u with km := some km, slew := slew, left := x, near := 0 } } }).emit
          (.send .all 9 16 (.merge (.start x km slew))))
    | .start x km slew => showFab { d with fab := { d.fab with merge := some { u with km := some km, slew := slew, left := x, near := 0 } } }
    | .done kd e k0 t => { d with fab := { d.fab with merge := some { u with kd := some kd, epoch := e, k0 := k0, period := t } } }
  | none => d

/-- R314: the winner's epoch, k0 and T as the seam device knows them; `near`: it reports 16 syncs within 5 ns. -/
def execMergeCompletion (epoch : BitVec 16) (k0 period : Nat) (near : Bool) (s : State) : Host.Outcome State Fault Refusal := runCore s fun d =>
  match d.fab.merge with
  | none => d
  | some u =>
    let sameT := period = 5 * d.tide.period
    if !isRoot d || u.left != 0 || u.km.isNone || u.kd.isSome || !(near || 16 ≤ u.near) || (!sameT && u.slew) then d
    else
      let kd := d.tide.k + 8
      ({ d with fab := { d.fab with merge := some { u with kd := some kd, epoch := epoch.toNat, k0 := k0, period := period } } }).emit
        (.send .all 9 24 (.merge (.done kd epoch.toNat k0 period)))

/-- R318: a write to a topology register. -/
def stpTopoWrite (off : Nat) (v : Word) (d : Dev) : Word × Dev :=
  let a := stpReg off
  if off = 0 then
    let d := d.store a v
    let d := whenDo (v.getLsbD 1) resign d
    let d := if v.getLsbD 0 then forUpTo 4 portLink d else forUpTo 4 (fun p d => if d.f (portState p) = 0 then d else portLeave p 1 d) d
    (0, originate false d)
  else if off = 8 then if fget v 0 12 < 0x800 then (0, linkChanged (d.store a v)) else (0x06090030, d)
  else if off = 0x10 then if 60 ≤ fget v 0 17 && fget v 0 17 ≤ 86400 then (0, d.store a v) else (0x06090030, d)
  else if off = 0x18 then if 1 ≤ fget v 0 10 && fget v 0 10 ≤ 600 then (0, d.store a v) else (0x06090030, d)
  else if 0x100 ≤ off && off < 0x180 && off % 0x20 = 0 then portCtlWrite ((off - 0x100) / 0x20) v d
  else (0, d.store a v)

end Sys2Proof.Machine
end

