-- ==== Sys2Proof/Machine/Transport.lean ====
section
/-! DEFINITION. Fabric transport (11): the checks at a receiver, forwarding, scheduling at an egress, credits, residence. Instants
are counts of 2.5 ns after the present tick edge. -/
namespace Sys2Proof.Machine

def portCr (p lo w : Nat) : Fld := stpF (0x294 + 4 * p) lo w

/-- Table FTR-2: a type defined for its class. -/
def typeOk (typ cls : Nat) : Bool :=
  classOf typ = cls && (within 1 typ 9 || within 0x10 typ 0x12 || within 0x20 typ 0x24 || typ = 0x2F || within 0x30 typ 0x34)
/-- Table FTR-2: link-local types. -/
def linkLocal (typ : Nat) : Bool := within 1 typ 5 || within 0x20 typ 0x24

/-- R334: a TC0 or TC1 ferry that finds no credit at an egress. -/
def cutWait (f : Ferry) (eg : List Nat) (d : Dev) : Dev :=
  if f.cls < 2 && eg.any fun q => q < 4 && creditLeft q f.cls d < creditsFor f.len then (d.count (stpF 0x228 24 8)).raise (stpTStat 2) else d

/-- R323, R306, R337: a ferry on port `p`: whether its header CRC, its length and its trailer pass, and whether it bears a STOMP. A frame that the
lane delivers errored fails as its trailer does (07 R189). -/
def ferryRx (p : Nat) (f : Ferry) (hdrOk lenOk crcOk stomp : Bool) (at_ : Nat) (d : Dev) : Dev :=
  let trailerOk := crcOk && !frameErr (portLane p) d
  let d := freeSent (d.tide.abs + at_) (takeCut (portLane p) d)
  if !d.flag fabEn || d.f (portState p) < 2 then d
  else if !hdrOk then (d.count (stpF 0x220 0 8)).raise (stpTStat 0)
  else
    let need := creditsFor f.len
    let d := d.modCred p (f.cls % 4) fun c => { c with received := tok (c.received + need) }
    let cut := f.cls < 2 && !linkLocal f.typ
    let late := f.epoch != d.tide.epoch || f.time + 5 * d.tide.period ≤ d.tide.time + 5 * at_ / 2
    let local_ := linkLocal f.typ
    let eg := if local_ then [4] else egresses f.cls f.src f.dest p d
    if !typeOk f.typ f.cls || 512 < f.len then d.count (stpF 0x220 8 8)
    else if !lenOk then (d.count (stpF 0x220 0 8)).raise (stpTStat 0)
    else if !mayPass p f.typ d then d.count ⟨portReg p 0x14, 16, 16⟩
    else if !trailerOk && !(cut && eg.any (· < 4)) then d.count (stpF 0x220 (if stomp then 24 else 16) 8)
    else if f.cls = 1 && late then (d.count (stpF 0x224 24 8)).raise (stpTStat 3)
    else if 64 ≤ f.hops then d.count (stpF 0x40 0 16)
    else
      let d := whenDo (!trailerOk) (fun d => d.count (stpF 0x220 (if stomp then 24 else 16) 8)) d
      let eg := if trailerOk then eg else eg.filter (· < 4)
      if eg.isEmpty then (if f.dest = 0xFFF then d else d.count (stpF 0x40 16 16))
      else
        let f := { f with hops := f.hops + 1, stomp := !trailerOk }
        let d := cutWait f eg d
        creditWaits at_ (showQueues { d with fab := { d.fab with queue := d.fab.queue ++ [⟨p, eg, need, d.tide.abs + at_, f, 0⟩] } })
/-- R323. -/
def execFerryRx (p : Fin 4) (f : Ferry) (hdrOk lenOk trailerOk stomp : Bool) (at_ : Nat) (s : State) : Host.Outcome State Fault Refusal :=
  runCore s (ferryRx p f hdrOk lenOk trailerOk stomp at_)

/-! ### Scheduling (R325, R326, R332) -/

/-- R326: the tokens of a shaper at count `now`, quarter bits. -/
def tokens (p c now : Nat) (d : Dev) : Nat :=
  let u := d.strait p
  if c = 0 then min 131072 (u.tok0 + 10 * (now - u.tokAt)) else min 1048576 (u.tok1 + 125 * (now - u.tokAt))
/-- The residence limit of a ferry in counts (R336); none for TC1, and none for a TC0 ferry of the local origin, which waits for its shaper and is
not discarded (R326). -/
def residence (q : QEntry) (d : Dev) : Option Nat :=
  match q.ferry.cls with
  | 0 => if q.acct = 4 then none else some 400000
  | 2 => some (400000 * d.f (stpF 0x200 8 8))
  | 3 => some (400000 * d.f (stpF 0x200 16 10))
  | _ => none
/-- R325, R326, R329, R336: may a ferry start on port `p` at count `now`? -/
def eligible (p now : Nat) (q : QEntry) (d : Dev) : Bool :=
  let c := q.ferry.cls
  mayPass p q.ferry.typ d && creditsFor q.ferry.len ≤ creditLeft p c d &&
    (q.acct != 4 || 2 ≤ c || 32 * (28 + q.ferry.len) ≤ tokens p c now d) &&
    (match residence q d with | some r => now ≤ q.since + r | none => true)
/-- The heads of the VOQs of a class on port `p`, by account in round robin order, that may start. -/
def heads (p c now : Nat) (d : Dev) : List QEntry :=
  let start := (d.strait p).rr.getD c 0
  ((List.range 5).map fun i => (start + i) % 5).filterMap fun a =>
    match d.fab.queue.find? fun q => q.acct = a && q.ferry.cls = c && q.egress.contains p with
    | some q => if eligible p now q d then some q else none
    | none => none

/-- R325: the class to serve, and the balances of TC2 and TC3 after a refill where both are spent. -/
def pickClass (p now : Nat) (d : Dev) : Option Nat × Dev :=
  if !(heads p 0 now d).isEmpty then (some 0, d)
  else if !(heads p 1 now d).isEmpty then (some 1, d)
  else match (heads p 2 now d).isEmpty, (heads p 3 now d).isEmpty with
    | true, true => (none, d)
    | false, true => (some 2, d)
    | true, false => (some 3, d)
    | false, false =>
      let u := d.strait p
      if 0 < u.g2 then (some 2, d)
      else if 0 < u.g3 then (some 3, d)
      else (some 2, d.modStrait p fun u => { u with g2 := u.g2 + d.f (stpF 0x200 0 4), g3 := u.g3 + d.f (stpF 0x200 4 4) })

/-- 02 R43, R48: a sync, a delay request and a delay response bear the instant, TIME64 in 1/16 ns, at which their first block leaves the lane; a sync
the tick and epoch of then; a request leaves its instant with the port. -/
def leaving (p t : Nat) (f : Ferry) (d : Dev) : Ferry × Dev :=
  let g := { f with time := t / 16 }
  match f.msg with
  | .sync x => ({ g with msg := .sync { x with tick := d.tide.k, epoch := d.tide.epoch, tx := t } }, d)
  | .delayReq _ => ({ g with msg := .delayReq t },
      { d with tide := { d.tide with delays := tmod (fun _ => {}) d.tide.delays p fun u => { u with t1 := some t } } })
  | .delayResp t2 _ => ({ g with msg := .delayResp t2 t }, d)
  | _ => (f, d)

/-- R325, R329, R331: at a ferry boundary the next ferry of port `p` starts; its units come free once it is sent in full on its last egress. -/
def ferryTx (p at_ : Nat) (d : Dev) : Dev :=
  let now := d.tide.abs + at_
  let d := freeSent now (laneFlow (portLane p) (2500 * at_) d)
  if !d.flag fabEn || d.f (portState p) < 2 || !(d.lane (portLane p)).frames.isEmpty then d
  else
    let x := pickClass p now d
    match x.1 with
    | none => d
    | some c =>
      match (heads p c now x.2).head? with
      | none => d
      | some q =>
        let d := x.2
        let need := creditsFor q.ferry.len
        let bits := 32 * (28 + q.ferry.len)
        let both := !(heads p 2 now d).isEmpty && !(heads p 3 now d).isEmpty
        let d := d.modCred p c fun r => { r with consumed := tok (r.consumed + need) }
        let t0 := tokens p 0 now d
        let t1 := tokens p 1 now d
        let d := d.modStrait p fun u => { u with
          rr := u.rr.set c ((q.acct + 1) % 5), tokAt := now,
          tok0 := if q.acct = 4 && c = 0 then t0 - bits else t0, tok1 := if q.acct = 4 && c = 1 then t1 - bits else t1,
          g2 := if both && c = 2 then u.g2 - need else u.g2, g3 := if both && c = 3 then u.g3 - need else u.g3 }
        let start := startAt (portLane p) (2500 * at_) d
        let x := leaving p (16 * d.tide.time + 16 * start / 1000) q.ferry d
        let l := frameBlocks (ferryBytes x.1)
        let fin := d.tide.abs + (start + (l.length + 1) / 2 * blockPs (d.lane (portLane p)).rate + 2499) / 2500
        let q' := { q with egress := q.egress.filter (· ≠ p), ends := max q.ends fin }
        let d := { x.2 with fab := { x.2.fab with queue := x.2.fab.queue.map fun e => if e = q then q' else e } }
        creditWaits at_ (giveFrame (portLane p) (2500 * at_) l (d.emit (.ferry p x.1)))
/-- R325. -/
def execFerryTxStart (p : Fin 4) (at_ : Nat) (s : State) : Host.Outcome State Fault Refusal := runCore s (ferryTx p at_)

/-- R336: ferries past their class's limit. -/
def execResidenceExpiry (at_ : Nat) (s : State) : Host.Outcome State Fault Refusal := runCore s fun d =>
  let now := d.tide.abs + at_
  let d := freeSent now d
  let late (q : QEntry) : Bool := !q.egress.isEmpty && (match residence q d with | some r => q.since + r < now | none => false)
  let n (c : Nat) : Nat := d.fab.queue.countP fun q => q.ferry.cls = c && late q
  let d' := { d with fab := { d.fab with queue := d.fab.queue.filter fun q => !late q } }
  if n 0 + n 2 + n 3 = 0 then d
  else showQueues (admitLocal ((((d'.count (stpF 0x224 0 16) (n 3)).count (stpF 0x224 16 8) (n 2)).count (stpF 0x228 16 8) (n 0)).raise (stpTStat 3)))

/-! ### Credits (R327 to R330) -/

/-- R328, R329: a CREDIT block; `crcOk`: its CRC-8 passes. -/
def execCreditRx (p c : Fin 4) (limit : BitVec 24) (crcOk : Bool) (s : State) : Host.Outcome State Fault Refusal := runCore s fun d =>
  if !crcOk then d.count (portCr p 16 16)
  else if d.f (portState p) < 2 then d
  else creditWaits 0 (d.modCred p c fun r => { r with limit := limit.toNat })
/-- R329: a CSYNC block. -/
def execCsyncRx (p c : Fin 4) (consumed : BitVec 24) (crcOk : Bool) (s : State) : Host.Outcome State Fault Refusal := runCore s fun d =>
  if !crcOk then d.count (portCr p 16 16)
  else if d.f (portState p) < 2 then d
  else d.modCred p c fun r => { r with received := consumed.toNat }
/-- R328, R329. -/
def execCreditSend (p c : Fin 4) (at_ : Nat) (s : State) : Host.Outcome State Fault Refusal := runCore s fun d =>
  if d.f (portState p) < 2 then d else sendCredit p c at_ (freeSent (d.tide.abs + at_) d)
/-- R328. -/
def execCsyncTimer (p : Fin 4) (at_ : Nat) (s : State) : Host.Outcome State Fault Refusal := runCore s fun d =>
  if d.f (portState p) < 2 then d else forUpTo 4 (fun c d => sendCsync p c at_ d) d
/-- R330: `elapsed` ms without credit for a class that waits. -/
def execCreditTimeout (p c : Fin 4) (elapsed at_ : Nat) (s : State) : Host.Outcome State Fault Refusal := runCore s fun d =>
  if d.f (portState p) < 2 || elapsed < d.f (stpF 0x204 0 7) || !starved p c d then d
  else
    let d := (d.raise (stpTStat 1)).count (portCr p 0 8)
    if (d.cred p c).tmo = 0 then
      sendCsync p c at_ ((d.modCred p c fun r => { r with tmo := 1 }).count (portCr p 8 8))
    else portLeave p 2 ((d.modCred p c fun r => { r with tmo := 0 }))

/-! ### Registers (R349) -/

/-- R331, Table FTR-12: a write to a transport register; a refused value leaves its field. -/
def stpTransWrite (off : Nat) (v : Word) (d : Dev) : Word × Dev :=
  let a := stpReg off
  let rej (d : Dev) : Word × Dev := (refusedCode, d.raise (stpTStat 8))
  let area := d.f (stpF 0x208 0 17)
  let sumRes (d : Dev) : Nat := 5 * ((List.range 4).map fun c => resOf c d).sum
  if off = 0x200 then
    let old := d.rd a
    let ok (lo w l h : Nat) : Bool := within l (fget v lo w) h
    let keep (o : Bool) (lo w : Nat) (x : Word) : Word := if o then x else fset x lo w (fget old lo w)
    let w := keep (ok 0 4 1 15) 0 4 (keep (ok 4 4 1 15) 4 4 (keep (ok 8 8 1 100) 8 8 (keep (ok 16 10 1 1000) 16 10 v)))
    if ok 0 4 1 15 && ok 4 4 1 15 && ok 8 8 1 100 && ok 16 10 1 1000 then (0, d.store a w) else rej (d.store a w)
  else if off = 0x204 then if within 1 (fget v 0 7) 100 then (0, d.store a v) else rej d
  else if off = 0x208 then
    if !d.flag fabEn && within 4096 (fget v 0 17) 65536 && sumRes d ≤ fget v 0 17 then (0, d.store a v) else rej d
  else if 0x210 ≤ off && off < 0x220 then
    let d' := d.store a v
    if 8 ≤ fget v 0 12 && sumRes d' ≤ area then (0, showQueues (admitLocal d')) else rej d
  else (0, d.store a v)

end Sys2Proof.Machine
end

