-- ==== Sys2Proof/Machine/Lanes.lean ====
section
/-! DEFINITION. The serial lanes (07): blocks and coding, bring-up, bonded lanes, losses, low power, test patterns, module pins. -/
namespace Sys2Proof.Machine

/-- A lane leaves or enters UP: the ring or the port follows (R207). -/
def laneOwner (n : Nat) (up : Bool) (d : Dev) : Dev :=
  if strait n then (if up then portLink ((n - 16) / 2) d else portDown ((n - 16) / 2) d)
  else if up then ringUp n d else ringDown n d

/-- A meaning of lane `n`: nothing happens while its domain is off (01 R25). -/
def runLane (n : Nat) (s : State) (f : Dev → Dev) : Host.Outcome State Fault Refusal := runIn (Dev.laneOn n) s f

/-- R189, R207: a frame in progress ends errored; the stream starts anew. -/
def cutStream (e : Nat) (d : Dev) : Dev :=
  d.modLane e fun u => { u with cut := u.cut || u.inFrame, inFrame := false, errored := false, skip := false, fill := 8 }

/-- The receive side of a lane takes a state; entering CDR takes the rate (R184), entering DESKEW begins alignment. -/
def laneTo (st n : Nat) (d : Dev) : Dev :=
  let was := d.f (lstate n)
  let d := if st = 2 then d.modLane n fun u => { u with rate := d.f (laneCtl (evenLane n) 2 2) } else d
  let d := if st < 6 then d.modLane n fun u => { u with fifo := [], amPos := 0, amCount := none, amFail := 0 } else d
  let d := d.setF (lstate n) st
  if was = 6 && st != 6 then laneOwner n false (cutStream (evenLane n) d)
  else if was != 6 && st = 6 then laneOwner n true (d.modLane n fun u => { u with wasUp := true })
  else d

/-- Table LAN-7: a loss takes the receiver, or the port, to `st`; a Strait port's transmitters train again. -/
def laneLoss (n st : Nat) (d : Dev) : Dev :=
  forEach (bonded n) (fun m d =>
    if d.f (lstate m) = 0 || d.f (lstate m) = 9 then d
    else
      let d := (laneTo st m d).modLane m fun u => { u with marker := false }
      let d := if st < 5 then d.modLane m fun u => { u with ready := u.ready && !strait m, bad := 0 } else d
      if strait m then txTo m 1 d else d) d

/-- R208: the module of a Strait lane is absent. -/
def modAbsent (n : Nat) (d : Dev) : Bool := strait n && d.flag (laneF n 0x30 0 1)

/-- R204, R210: LOS asserts. -/
def losAssert (n : Nat) (d : Dev) : Dev :=
  let u := d.lane n
  let d := d.raise (laneStat n 12)
  if d.f (lstate n) = 0 || d.f (lstate n) = 9 || d.f (lstate n) = 7 || d.f (lstate n) = 8 then d
  else if u.eidle != 0 then laneTo (if u.eidle = 1 then 7 else 8) n (d.setLane n { u with eidle := 0 })
  else laneLoss n 1 ((d.raise (laneStat n 16)).count (laneF n 0x10 0 8))

/-- R194, R207, R208: a lane in WAIT_SIG goes on once it has signal and its module. -/
def leaveWait (n : Nat) (d : Dev) : Dev := if d.f (lstate n) = 1 && !d.flag (laneStat n 12) && !modAbsent n d then laneTo 2 n d else d
/-- R194, R204, R207: LOS clears; the other lane of a port that its loss put in WAIT_SIG leaves with it. -/
def losClear (n : Nat) (d : Dev) : Dev := forEach (bonded n) leaveWait (d.lower (laneStat n 12))

/-- R204: LOS follows the received amplitude and, with MOD_LOS_USE, the SL_LOS pin. -/
def losShow (n : Nat) (d : Dev) : Dev :=
  let los := (d.lane n).amp || (strait n && d.flag (laneCtl n 13 1) && d.flag (laneF n 0x30 1 1))
  if los && !d.flag (laneStat n 12) then losAssert n d else if los then d else losClear n d
/-- R204, R208: the filtered level of the amplitude detector, or (`pin`) of the SL_LOS pin of a Strait lane. -/
def losInput (n : Nat) (pin high : Bool) (d : Dev) : Dev :=
  losShow n (if !pin then d.modLane n fun u => { u with amp := high } else if strait n then d.setF (laneF n 0x30 1 1) (b2n high) else d)
/-- R204. -/
def execLosAssert (n : Fin 24) (pin : Bool) (s : State) : Host.Outcome State Fault Refusal := runLane n s (losInput n pin true)
/-- R204. -/
def execLosClear (n : Fin 24) (pin : Bool) (s : State) : Host.Outcome State Fault Refusal := runLane n s (losInput n pin false)

/-- R205: a lane that is OFF recovers no clock. -/
def laneLol (n : Nat) (d : Dev) : Dev :=
  if d.f (lstate n) = 0 then d
  else
    let d := ((d.raise (laneStat n 13)).count (laneF n 0x10 8 8)).raise (laneStat n 17)
    if within 3 (d.f (lstate n)) 6 then laneLoss n 2 d else d
/-- R205. -/
def execLol (n : Fin 24) (s : State) : Host.Outcome State Fault Refusal := runLane n s (laneLol n)

/-- 01 R21: a lane whose reference is lost falls silent. -/
def laneSilent (n : Nat) (d : Dev) : Dev := if d.laneOn n then setTx n 0 d else d

/-- R194, R198, 01 R21: clock recovery locks; a transmitter that had fallen silent starts again. -/
def execCdrLock (n : Fin 24) (s : State) : Host.Outcome State Fault Refusal := runLane n s fun d =>
  if d.f (lstate n) != 2 || (d.lane n).held then d
  else
    let d := if d.f (txMode n) = 0 then txTo n (if !strait n && (d.lane n).wasUp then 2 else 1) d else d
    laneTo 3 n ((d.lower (laneStat n 13)).modLane n fun u => { u with bad := 0 })

/-- R194, R198: block lock; a Narrows lane that has been UP returns to it. -/
def execBlockLock (n : Fin 24) (s : State) : Host.Outcome State Fault Refusal := runLane n s fun d =>
  if d.f (lstate n) != 3 then d
  else laneTo (if !strait n && (d.lane n).wasUp then 6 else 4) n (d.modLane n fun u => { u with bad := 0 })

/-- R206. -/
def lockLoss (n : Nat) (d : Dev) : Dev :=
  if !within 4 (d.f (lstate n)) 6 then d else laneLoss n 3 ((d.raise (laneStat n 18)).count (laneF n 0x10 16 8))
/-- R206. -/
def execBlockLockLoss (n : Fin 24) (s : State) : Host.Outcome State Fault Refusal := runLane n s (lockLoss n)

/-- R196: 16 TRAIN blocks (`inverted`: their complements); a forced polarity expects one pattern. -/
def execPolarityDetect (n : Fin 24) (inverted : Bool) (s : State) : Host.Outcome State Fault Refusal := runLane n s fun d =>
  let pol := d.f (laneCtl n 6 2)
  if d.f (lstate n) != 4 || (pol = 1 && inverted) || (pol = 2 && !inverted) then d
  else (d.setF (laneStat n 10) (b2n inverted)).modLane n fun u => { u with ready := true }

/-- R197: 16 TRAIN blocks with RX_READY on both lanes of port `p`, with the LANE_IDs heard; 64 more are sent before data. -/
def execHandshakeComplete (p : Fin 4) (id0 id1 : Bool) (s : State) : Host.Outcome State Fault Refusal :=
  let e := 16 + 2 * p.val
  runLane e s fun d =>
  let lrev := d.f (laneCtl e 8 2)
  let ok := [e, e + 1].all fun m => d.f (lstate m) = 4 && (d.lane m).ready
  if !ok || id0 = id1 || (lrev = 1 && id0) || (lrev = 2 && !id0) then d
  else forEach [e, e + 1] (fun m d => txTo m 2 (trainBurst m 64 (laneTo 5 m (d.setF (laneStat m 11) (b2n id0))))) d

/-- R198: 64 TRAIN blocks with ORIGIN 0. -/
def execRingTrainingComplete (r : Fin 16) (s : State) : Host.Outcome State Fault Refusal := runLane r s fun d =>
  if d.f (lstate r) != 4 || !(d.lane r).ready then d else laneTo 6 r (txTo r 2 d)

/-- R183, R198, R199: `elapsed` ms since the entry into BLOCK; a Narrows lane that has been UP keeps transmitting data. -/
def execTrainTmo (n : Fin 24) (elapsed : Nat) (s : State) : Host.Outcome State Fault Refusal := runLane n s fun d =>
  let auto := d.flag (laneCtl (evenLane n) 1 1)
  if !within 3 (d.f (lstate n)) 5 || elapsed < d.f (laneF (evenLane n) 8 0 7) then d
  else
    let d := forEach (bonded n) (fun m d =>
      let d := (laneTo 2 m d).modLane m fun u => { u with held := !auto, ready := false, marker := false }
      if !strait m && (d.lane m).wasUp then d else txTo m 1 d) d
    if auto then (d.raise (laneStat n 19)).count (laneF n 0x10 24 8) else d

/-- R201. -/
def execMarkerLock (n : Fin 24) (s : State) : Host.Outcome State Fault Refusal := runLane n s fun d =>
  if strait n && within 5 (d.f (lstate n)) 6 then d.modLane n fun u => { u with marker := true, amFail := 0 } else d
/-- R201: a marker position that fails. -/
def markerFails (n : Nat) (d : Dev) : Dev :=
  let d := ((d.raise (laneStat n 21)).count (laneF n 0x2C 0 16)).modLane n fun u => { u with amFail := u.amFail + 1 }
  if (d.lane n).marker && 4 ≤ (d.lane n).amFail then laneLoss n 5 d else d
/-- R201: the fourth failed position in a row. -/
def execMarkerLockLoss (n : Fin 24) (s : State) : Host.Outcome State Fault Refusal := runLane n s fun d =>
  if !strait n || !within 5 (d.f (lstate n)) 6 || !(d.lane n).marker then d
  else markerFails n (d.modLane n fun u => { u with amFail := 3 })
/-- R202: port `p`, the skew in unit intervals, and whether physical lane 1 is the later. -/
def execDeskewComplete (p : Fin 4) (skew : Nat) (later : Bool) (s : State) : Host.Outcome State Fault Refusal :=
  let e := 16 + 2 * p.val
  runLane e s fun d =>
  if !([e, e + 1].all fun m => d.f (lstate m) = 5 && (d.lane m).marker) then d
  else
    let d := (d.setF (laneF (e + b2n later) 0x28 0 12) (min skew 4095)).setF (laneF (e + b2n !later) 0x28 0 12) 0
    if 31 * 66 < skew then d.raise (laneStat (e + b2n later) 22)
    else forEach [e, e + 1] (fun m d => laneTo 6 m (txTo m 2 d)) d

/-! ### Blocks (R186 to R193, R206) -/

/-- R192, R193: the elastic buffer of a stream after `slip` blocks of clock drift; `fill`: this block is FILLER. What passes after an error is
discarded up to the next FILLER. -/
def elastic (n : Nat) (fill : Bool) (slip : Int) (d : Dev) : Dev :=
  let u := d.lane n
  let f : Int := u.fill + slip
  if f < 0 || 16 < f then (cutStream n ((d.raise (laneStat n 20)).count (laneF n 0x14 24 8))).modLane n fun u => { u with skip := !fill }
  else if !fill then d.setLane n { u with fill := f.toNat }
  else if 10 ≤ f then (d.count (laneF n 0x14 12 12)).setLane n { u with fill := f.toNat - 1, skip := false }
  else if f ≤ 6 && !u.inFrame then (d.count (laneF n 0x14 0 12)).setLane n { u with fill := f.toNat + 1, skip := false }
  else d.setLane n { u with fill := f.toNat, skip := false }

/-- R189, R193, R250: a block of a ring's or port's stream: frames begin and end; one with an invalid block in it is delivered errored. -/
def streamBlk (e : Nat) (x : LBlk × Bool) (slip : Int) (d : Dev) : Dev :=
  let d := elastic e (!x.2 && isFiller x.1) slip d
  let t := if x.1.ctrl && !x.2 then payByte x.1.pay 0 else 0
  if (d.lane e).skip then d
  else d.modLane e fun u =>
    if x.2 then { u with errored := u.errored || u.inFrame }
    else if t = 0x78 then { u with cut := u.inFrame, inFrame := true, errored := false }
    else if termTypes.contains t && u.inFrame then { u with inFrame := false, errored := false, cut := u.errored }
    else u

/-- R200, R202: blocks of both lanes pair up; in DESKEW they are dropped, in UP the port's stream takes them, logical lane 0 first. -/
def pairUp (e : Nat) (slip : Int) (d : Dev) : Dev :=
  let z := if d.flag (laneStat e 11) then e + 1 else e
  let o := 2 * e + 1 - z
  match (d.lane z).fifo, (d.lane o).fifo with
  | a :: t, b :: v =>
    let d := (d.modLane z fun u => { u with fifo := t }).modLane o fun u => { u with fifo := v }
    if d.f (lstate e) = 6 && d.f (lstate (e + 1)) = 6 then streamBlk e b 0 (streamBlk e a slip d) else d
  | _, _ => d

/-- R201: an ALIGN block with its marker count arrives `pos` blocks after the last marker position. The counts are compared when the later lane's
marker arrives. -/
def markerSeen (n count : Nat) (d : Dev) : Dev :=
  let u := d.lane n
  let o := d.lane (n + 1 - 2 * (n % 2))
  let due := u.amPos = 16384
  let differ := o.amPos < 8192 && o.amCount.any (· != count)
  let d := d.modLane n fun u => { u with amPos := 0, amCount := some count, fifo := if d.f (lstate n) = 5 then [] else u.fifo }
  if !due then (if u.marker then d.modLane n fun v => { v with amPos := u.amPos, amCount := u.amCount } else d)
  else if !u.marker then d.modLane n fun u => { u with marker := true, amFail := 0 }
  else if differ then markerFails n (markerFails (n + 1 - 2 * (n % 2)) d)
  else d.modLane n fun u => { u with amFail := 0 }
/-- R201: a block that is no valid ALIGN at an expected position. -/
def markerMissed (n : Nat) (d : Dev) : Dev :=
  if (d.lane n).amPos < 16384 then d
  else
    let d := d.modLane n fun u => { u with amPos := 0, amCount := u.amCount.map fun c => (c + 1) % 65536 }
    if (d.lane n).marker then markerFails n d else d.modLane n fun u => { u with amCount := none }

/-- R206: HI_BER over the last 125 µs, by the counts of the last invalid headers. -/
def hiBer (n now : Nat) (d : Dev) : Dev :=
  let u := d.lane n
  let l := u.badAt.filter fun t => now < t + 50000
  (d.setLane n { u with badAt := l }).setF (laneStat n 14) (b2n (16 ≤ l.length))
/-- R206: HI_BER of every lane at a tick edge. -/
def hiBerEdge (d : Dev) : Dev := forEach ((List.range 24).filter fun n => !(d.lane n).badAt.isEmpty) (fun n d => hiBer n d.tide.abs d) d

/-- R213, R214: the checker takes the 66 raw bits of a block. -/
def checkBits (n : Nat) (hdr : Fin 4) (x : BitVec 64) (d : Dev) : Dev :=
  let pat := d.f (laneF n 0x1C 0 2)
  if !d.flag (laneF n 0x1C 3 1) || pat = 0 then d
  else
    let u := d.lane n
    let flip := d.flag (laneF n 0x1C 4 1)
    let bits := (hdr.val.testBit 0 :: hdr.val.testBit 1 :: (List.range 64).map x.getLsbD).map (· != flip)
    let a := bits.foldl (fun a b => chkBit pat b a) (u.chk, u.chkRun, u.chkErrs, d.flag (laneF n 0x1C 8 1), 0)
    ((d.setLane n { u with chk := a.1, chkRun := a.2.1, chkErrs := a.2.2.1 }).setF (laneF n 0x1C 8 1) (b2n a.2.2.2.1)).count
      (laneF n 0x20 0 32) a.2.2.2.2

/-- R186 to R193, R200, R201, R206: a block as the line carries it: sync header, payload, drift of the buffer, count after the edge. -/
def blockRx (n : Nat) (hdr : Fin 4) (x : BitVec 64) (slip : Int) (at_ : Nat) (d : Dev) : Dev :=
  let now := d.tide.abs + at_
  let d := if within 2 (d.f (lstate n)) 6 || d.f (lstate n) = 9 then checkBits n hdr x d else d
  if !within 3 (d.f (lstate n)) 6 then d
  else
    let inv := d.flag (laneStat n 10)
    let h := if inv then 3 - hdr.val else hdr.val
    let x := if inv then ~~~ x else x
    let good := h = 1 || h = 2
    let u := d.lane n
    let raw := payByte x
    let bare := h = 2 && (raw 0 = 0x2D || raw 0 = 0x55) && ctrlOk raw n
    let align := bare && raw 0 = 0x55
    let train := bare && !align
    let p := if bare then x else descramble u.line x
    let byte := payByte p
    let badCtrl := h = 2 && !bare && !ctrlOk byte n
    let d := d.setLane n { u with
      bad := (2 * u.bad + b2n (!good)) % 2 ^ 64, line := if bare then u.line else x, bip := if align then 0 else bipOf x u.bip,
      badAt := if good then u.badAt else (now :: u.badAt).take 16, amPos := if train then u.amPos else min (u.amPos + 1) 16384,
      eidle := if h = 2 && !bare && !badCtrl && byte 0 = 0x66 then byte 1 + 1 else u.eidle }
    let d := whenDo (!good) (fun d => d.count (laneF n 0xC 0 16)) d
    let d := whenDo badCtrl (fun d => (d.raise (laneStat n 15)).count (laneF n 0xC 16 16)) d
    let d := whenDo (align && BitVec.ofNat 8 (raw 4) != u.bip) (fun d => d.count (laneF n 0x2C 16 16)) d
    let d := hiBer n now d
    let b : LBlk × Bool := (⟨h = 2, p⟩, !good || badCtrl)
    let st := d.f (lstate n)
    let d := if align then (if 5 ≤ st then markerSeen n (raw 2 + 256 * raw 3) d else d)
      else if train then d
      else if !strait n then (if st = 6 then streamBlk n b slip d else d)
      else if 5 ≤ st then pairUp (evenLane n) slip (markerMissed n (d.modLane n fun u => { u with fifo := u.fifo ++ [b] }))
      else d
    if 16 ≤ popCount 64 (d.lane n).bad then lockLoss n d else d
/-- R186. -/
def execBlockRx (n : Fin 24) (hdr : Fin 4) (x : BitVec 64) (slip : Int) (at_ : Nat) (s : State) : Host.Outcome State Fault Refusal :=
  runLane n s (blockRx n hdr x slip at_)

/-! ### Low power (R209 to R212) -/

/-- R209: would a low-power request be accepted, the rate aside? -/
def lpmFree (n : Nat) (d : Dev) : Bool :=
  if strait n then d.f (portState ((n - 16) / 2)) = 0
  else !(d.isles.any fun e => (e.2.entry.role = 1 || e.2.entry.role = 2) && e.2.entry.ring = n)
def lpmOk (n v : Nat) (d : Dev) : Bool := v = 0 || (v != 3 && lpmFree n d && !(v = 1 && (d.lane n).rate = 0))

/-- R212: a full bring-up from CDR. -/
def bringUp (n : Nat) (d : Dev) : Dev :=
  if d.f (lstate n) = 0 || d.f (lstate n) = 9 then d
  else laneTo 2 n (txTo n 1 (d.modLane n fun u => { u with ready := false, wasUp := false, eidle := 0, marker := false }))
/-- R211, R212: the lane leaves its low-power state: a burst and then data, or a full bring-up; a receiver in IDLE_E waits for its partner's burst. -/
def lpmExit (n : Nat) (d : Dev) : Dev :=
  match d.f (laneCtl n 10 2) with
  | 1 => wakeTx n d
  | 2 => bringUp n (d.setF (laneCtl n 10 2) 0)
  | _ => d
/-- R209: 4 EIDLE blocks. -/
def eidleOut (n : Nat) (deep : Bool) (d : Dev) : Dev :=
  let one (a : List LineBlk × LaneU) : List LineBlk × LaneU := let x := txBlk (txInv n d) a.2 (eidleBlk deep); (a.1 ++ [x.1], x.2)
  let r := one (one (one (one ([], d.lane n))))
  (d.setLane n r.2).emit (.blocks n r.1)
/-- R209, R211, R212: a write of LPM. In deep idle the lane's PLL is off, and with it its receiver (DEDUCED). -/
def lpmRequest (n v : Nat) (d : Dev) : Word × Dev :=
  if !lpmOk n v d then (refusedCode, d.raise (laneStat n 23))
  else if v = d.f (laneCtl n 10 2) then (0, d)
  else if v = 0 then (0, lpmExit n d)
  else
    let d := if d.f (txMode n) = 0 then d else eidleOut n (v = 2) d
    let d := setTx n 0 (d.setF (laneCtl n 10 2) v)
    (0, if v = 2 && d.f (lstate n) != 0 && d.f (lstate n) != 9 then laneTo 8 n d else d)
/-- R209. -/
def execLpmRequest (n : Fin 24) (v : Fin 4) (s : State) : Host.Outcome State Fault Refusal := runLane n s fun d => (lpmRequest n v d).2
/-- R210. -/
def execEidleRx (n : Fin 24) (deep : Bool) (s : State) : Host.Outcome State Fault Refusal := runLane n s fun d =>
  if d.f (lstate n) = 6 then d.modLane n fun u => { u with eidle := if deep then 2 else 1 } else d
/-- R211: `host`: LPM is written 0; `burst`: the partner's burst and 16 TRAIN blocks of the learnt polarity are received; neither: the lane's owner
has a block to send. -/
def execElectricalIdleExit (n : Fin 24) (host burst : Bool) (s : State) : Host.Outcome State Fault Refusal := runLane n s fun d =>
  let d := if host then (if d.f (laneCtl n 10 2) = 1 then lpmExit n d else d) else if burst then d else autoWake n d
  if d.f (lstate n) = 7 && burst then laneTo 6 n ((d.lower (laneStat n 12)).modLane n fun u => { u with amp := false }) else d
/-- R212. -/
def execDeepIdleExit (n : Fin 24) (s : State) : Host.Outcome State Fault Refusal := runLane n s fun d =>
  if d.f (laneCtl n 10 2) = 2 then lpmExit n d else if d.f (lstate n) = 8 then bringUp n d else d

/-! ### Test patterns (R213 to R216) -/

/-- R216: pattern generation and LANE_INJ are accepted. -/
def testOk (n : Nat) (d : Dev) : Bool := d.mode = 2 || lpmFree n d
/-- R213, R216: GEN_EN. Where it ends, a Strait port's lanes train together (DEDUCED, R207). -/
def genEnable (n : Nat) (on : Bool) (d : Dev) : Word × Dev :=
  if on = d.flag (laneF n 0x1C 2 1) then (0, d)
  else if on && !testOk n d then (refusedCode, d.raise (laneStat n 23))
  else
    let d := d.setF (laneF n 0x1C 2 1) (b2n on)
    if d.f (lstate n) = 0 then (0, d)
    else if on then (0, setTx n 3 (laneTo 9 n d))
    else (0, forEach (bonded n) bringUp (laneTo 2 n d))
/-- R213. -/
def execPrbsGenEn (n : Fin 24) (on : Bool) (s : State) : Host.Outcome State Fault Refusal := runLane n s fun d => (genEnable n on d).2
/-- R214: the checker locks or loses lock on bits that no BLOCK_RX brings; `errors` are the bit errors seen since the last report, counted while
locked. -/
def execChkLock (n : Fin 24) (locked : Bool) (errors : Nat) (s : State) : Host.Outcome State Fault Refusal := runLane n s fun d =>
  if !d.flag (laneF n 0x1C 3 1) then d
  else
    let d := if d.flag (laneF n 0x1C 8 1) then d.count (laneF n 0x20 0 32) errors else d
    d.setF (laneF n 0x1C 8 1) (b2n locked)
/-- R215: an error is due: in the stream's next block where there is one, else at once: 0 one bit, 1 by rate, 2 a payload bit of the next data block,
3 the next sync header. -/
def inject (n kind : Nat) (d : Dev) : Dev :=
  if kind = 2 || d.f (txMode n) = 2 then d.modLane n fun u => { u with inj := u.inj ++ [if kind = 1 then 0 else kind] }
  else if d.f (txMode n) = 0 then d
  else d.emit (.laneFlip n kind)
/-- R215. -/
def execInjOne (n : Fin 24) (s : State) : Host.Outcome State Fault Refusal := runLane n s (inject n 0)
/-- R215: every 2^(m + 7) bits. -/
def execInjRateFlip (n : Fin 24) (s : State) : Host.Outcome State Fault Refusal := runLane n s fun d =>
  if within 1 (d.f (laneF n 0x1C 11 5)) 24 then inject n 1 d else d
/-- R215, R216: LANE_INJ outside PRBS: bit 0 a payload bit, bit 1 a sync header. -/
def laneInj (n : Nat) (v : Word) (d : Dev) : Word × Dev :=
  if v.getLsbD 0 = false && v.getLsbD 1 = false then (0, d)
  else if !testOk n d || d.f (lstate n) = 9 then (refusedCode, d.raise (laneStat n 23))
  else (0, whenDo (v.getLsbD 1) (inject n 3) (whenDo (v.getLsbD 0) (inject n 2) d))
/-- R215. -/
def execInjPayload (n : Fin 24) (s : State) : Host.Outcome State Fault Refusal := runLane n s fun d => (laneInj n 1 d).2
/-- R215. -/
def execInjSyncHeader (n : Fin 24) (s : State) : Host.Outcome State Fault Refusal := runLane n s fun d => (laneInj n 2 d).2

/-! ### Module pins, settings (R184, R208, R217, 22 R615) -/

/-- R208: START; a Narrows lane has no module. -/
def mod2wStart (n : Nat) (d : Dev) : Dev :=
  if !strait n || d.flag (laneF n 0x34 11 1) then d
  else ((d.setF (laneF n 0x34 11 1) 1).setF (laneF n 0x34 12 1) 0).emit (.mod2w n ((d.rd (laneReg n 0x34)).toNat))
/-- R208. -/
def execMod2wStart (n : Fin 24) (s : State) : Host.Outcome State Fault Refusal := runLane n s (mod2wStart n)
/-- R208: the access ends, with the byte read. -/
def execMod2wDone (n : Fin 24) (nack : Bool) (data : BitVec 8) (s : State) : Host.Outcome State Fault Refusal := runLane n s fun d =>
  if !d.flag (laneF n 0x34 11 1) then d
  else
    let d := (d.setF (laneF n 0x34 11 1) 0).setF (laneF n 0x34 12 1) (b2n nack)
    if nack || d.flag (laneF n 0x34 9 1) then d else d.setF (laneF n 0x34 16 8) data.toNat
/-- R208: the filtered SL_MODABS pin. -/
def execModabsChange (n : Fin 24) (absent : Bool) (s : State) : Host.Outcome State Fault Refusal := runLane n s fun d =>
  if !strait n then d
  else
    let d := d.setF (laneF n 0x30 0 1) (b2n absent)
    leaveWait n d

/-- R183, R184: a rate write. -/
def rateWrite (n v : Nat) (d : Dev) : Word × Dev :=
  if (if strait n then 2 ≤ v && v ≤ 3 else v ≤ 2) then (0, d.setF (laneCtl n 2 2) v) else (refusedCode, d.raise (laneStat n 23))
/-- R184. -/
def execLaneRateWrite (n : Fin 24) (v : Fin 4) (s : State) : Host.Outcome State Fault Refusal := runLane n s fun d => (rateWrite n v d).2

/-- 22 R615: a code outside its range leaves its field. -/
def eqWrite (n : Nat) (v : Word) (d : Dev) : Word × Dev :=
  let old := d.rd (laneReg n 0x18)
  let a := fget v 0 4 ≤ 12
  let b := fget v 4 4 ≤ 10
  let c := fget v 8 4 ≤ 8
  let w := if a then v else fset v 0 4 (fget old 0 4)
  let w := if b then w else fset w 4 4 (fget old 4 4)
  let w := if c then w else fset w 8 4 (fget old 8 4)
  let d := d.store (laneReg n 0x18) w
  if a && b && c then (0, d) else (refusedCode, d.raise (laneStat n 23))
/-- 22 R615. -/
def execLaneEqWrite (n : Fin 24) (v : Word) (s : State) : Host.Outcome State Fault Refusal := runLane n s fun d => (eqWrite n v d).2

/-- R194, R199, R213: EN; a lane whose generator is on enters PRBS. -/
def laneEnable (n : Nat) (on : Bool) (d : Dev) : Dev :=
  if on then
    let d := d.setLane n { d.lane n with held := false }
    if d.f (lstate n) != 0 then d
    else
      let d := d.modLane n fun u => { u with ready := false, wasUp := false, eidle := 0, marker := false }
      if d.flag (laneF n 0x1C 2 1) then setTx n 3 (laneTo 9 n d) else leaveWait n (laneTo 1 n (txTo n 1 d))
  else setTx n 0 (laneTo 0 n d)

/-- R214: a checker that is off holds no lock and starts afresh (DESIGN CHOICE, log 93). -/
def chkOff (n : Nat) (d : Dev) : Dev := (d.setF (laneF n 0x1C 8 1) 0).modLane n fun u => { u with chk := 0, chkRun := 0, chkErrs := 0 }

/-- R217, Table LAN-12 to LAN-14: a write to a lane's register. -/
def laneWrite (n off : Nat) (v : Word) (d : Dev) : Word × Dev :=
  let a := laneReg n off
  if off = 0 then
    let old := d.rd a
    let okPol := fget v 6 2 != 3
    let okRev := fget v 8 2 != 3
    let keep := fset (fset (fset v 2 2 (fget old 2 2)) 10 2 (fget old 10 2)) 0 1 (fget v 0 1)
    let w := if okPol then keep else fset keep 6 2 (fget old 6 2)
    let w := if okRev then w else fset w 8 2 (fget old 8 2)
    let d := d.store a w
    let x := rateWrite n (fget v 2 2) d
    let y := lpmRequest n (fget v 10 2) x.2
    let d := laneEnable n (v.getLsbD 0) y.2
    let d := if v.getLsbD 13 = old.getLsbD 13 then d else losShow n d
    let d := if strait n then d else showLoad n d
    if okPol && okRev then (if x.1 != 0 then x.1 else y.1, d) else (refusedCode, d.raise (laneStat n 23))
  else if off = 8 then if within 1 (fget v 0 7) 100 then (0, d.store a v) else (refusedCode, d.raise (laneStat n 23))
  else if off = 0x18 then eqWrite n v d
  else if off = 0x1C then
    let okR := fget v 11 5 ≤ 24
    let old := d.rd a
    let w := fset (if okR then v else fset v 11 5 (fget old 11 5)) 2 1 (fget old 2 1)
    let d := d.store a w
    let x := genEnable n (v.getLsbD 2) d
    let d := whenDo (v.getLsbD 10) (inject n 0) (if v.getLsbD 3 then x.2 else chkOff n x.2)
    if okR then (x.1, d) else (refusedCode, d.raise (laneStat n 23))
  else if off = 0x24 then laneInj n v d
  else if off = 0x30 then (0, if strait n then d.store a v else d)
  else if off = 0x34 then
    if !strait n then (0, d)
    else
      let d := d.store a v
      (0, whenDo (v.getLsbD 10) (mod2wStart n) d)
  else (0, d.store a v)

end Sys2Proof.Machine
end

