-- ==== Sys2Proof/Machine/Tide.lean ====
section
/-! DEFINITION. The tide (02): its settings, synchronisation, link delays. TIDE_PERIOD holds what was written; `period` is the T in force. Instants of syncs and
delays are in 1/16 ns of TIME64. -/
namespace Sys2Proof.Machine

def tideStat (i : Nat) : Fld := ⟨0x4010000C, i, 1⟩
def tidePeriod : Fld := ⟨0x40100004, 0, 15⟩
def tideDelay (p : Nat) : Fld := ⟨0x40100040 + 4 * p, 0, 32⟩

/-- R36: may T become `t` (5 ns units) now? -/
def periodOk (t : Nat) (d : Dev) : Bool :=
  d.allIdle && (List.range 4).all (fun p => !d.flag (mpoEn p) && (d.f (mpoState p) = 0 || d.f (mpoState p) = 4)) &&
    d.isles.all fun e => e.2.entry.role = 0 || (liveBank e.2).ef.groups.all fun g => ratioOk (2 * t) g.period

/-- R35 to R37: a write of T, effective at the second edge after it, however the labels move; on the root it is the fabric's T, effective with the
next epoch. -/
def periodWrite (t : Nat) (d : Dev) : Word × Dev :=
  if !within 2000 t 20000 then (0x06090030, d.raise (tideStat 8))
  else if !periodOk t d then (refusedCode, d.raise (tideStat 8))
  else
    let d := d.setF tidePeriod t
    if d.flag fabEn && isRoot d then (0, announceEpoch { d with tide := { d.tide with fabT := t } })
    else (0, { d with tide := { d.tide with pendT := some (t, 2) } })
/-- R36. -/
def execTidePeriodWrite (t : BitVec 15) (s : State) : Host.Outcome State Fault Refusal := runCore s fun d => (periodWrite t.toNat d).2

/-- R54: the register takes the value; it governs from the next tick edge. -/
def guardWrite (g : Nat) (d : Dev) : Word × Dev :=
  if !within 200 g 2000 then (0x06090030, d)
  else (0, { d.setF ⟨0x40100008, 0, 11⟩ g with tide := { d.tide with pendGuard := some g } })
/-- R54. -/
def execTideGuardWrite (g : BitVec 11) (s : State) : Host.Outcome State Fault Refusal := runCore s fun d => (guardWrite g.toNat d).2

/-- R44. -/
def stepReq (d : Dev) : Dev := if d.anyRun then d else { d with tide := { d.tide with stepReq := true } }
/-- R44. -/
def execStepReq (s : State) : Host.Outcome State Fault Refusal := runCore s stepReq

/-- R42, R49: the sync port. -/
def syncPort (d : Dev) : Option Nat :=
  match d.fab.root with
  | none => none
  | some r =>
    if r.2 = ownUid then none
    else match d.fab.routes.find? fun x => x.1 = r.2 with
      | some x => x.2.2.find? fun p => d.f (portState p) = 4 && !(tget (fun _ => ({} : DelayU)) d.tide.delays p).meas.isEmpty
      | none => none

/-- R46: the tide unit reaches FREE: split strings in PRECHARGE or RUN lose their time. -/
def tideFree (d : Dev) : Dev :=
  let d := { d with tide := { d.tide with tstate := 0, near := 0, far := 0, line := none } }
  forEach d.heldStrings (fun s d => if split (d.str s) && ((d.str s).sstate = 1 || (d.str s).sstate = 2) then fqEnter s 0x12 0x1FF 0 d else d) d

/-- R45: ACQUIRE, 16 ticks without a valid sync. -/
def acquireTmo (d : Dev) : Dev := if d.tide.tstate = 1 && 16 ≤ d.tide.silent then tideFree d else d
/-- R45: LOCKED, 4 ticks. -/
def lockedTmo (d : Dev) : Dev :=
  if d.tide.tstate = 2 && 4 ≤ d.tide.silent && !isRoot d then { d with tide := { d.tide with tstate := 3 } } else d
/-- R45: HOLDOVER, 64 ticks. -/
def holdoverExp (d : Dev) : Dev := if d.tide.tstate = 3 && 64 ≤ d.tide.silent then tideFree (d.raise (tideStat 9)) else d
/-- R45. -/
def execAcquireTimeout (s : State) : Host.Outcome State Fault Refusal := runCore s acquireTmo
/-- R45. -/
def execLockedSyncTimeout (s : State) : Host.Outcome State Fault Refusal := runCore s lockedTmo
/-- R45. -/
def execHoldoverExp (s : State) : Host.Outcome State Fault Refusal := runCore s holdoverExp

/-- R41: a device whose T is not the fabric's follows no parent. -/
def mismatched (d : Dev) : Dev := if isRoot d then d.setF (tideStat 2) 1 else (if d.tide.tstate = 0 then d else tideFree d).setF (tideStat 2) 1

/-- R312: is this the device that measures at the seam? -/
def seamDevice (d : Dev) : Bool := (seamUids d).all fun u => ownUid ≤ u

/-- R312, R314: a sync of the winner's side: Δ in ns, own line minus the winner's. -/
def seamSync (p : Nat) (m : SyncMsg) (rx : Nat) (d : Dev) : Dev :=
  match d.fab.merge with
  | none => d
  | some u =>
    if !seamDevice d || m.period = 0 || m.rootUid != u.winner then d
    else
      let own : Int := d.tide.k * (5 * d.tide.period : Nat) + ((rx : Int) / 16 - d.tide.time)
      let win : Int := m.tick * m.period + (m.tx / 16) % m.period + d.f (tideDelay p) / 16
      let x := own - win
      let small := x.natAbs ≤ 5
      let u := { u with near := if small && u.left = 0 then u.near + 1 else 0,
                        epoch := m.epoch, k0 := m.tick - m.tx / 16 / m.period, period := m.period }
      let d := { d with fab := { d.fab with merge := some u } }
      if u.kd.isNone && (u.km.isNone || (u.left = 0 && !small)) then d.emit (.send .root 9 8 (.merge (.measure x))) else d

/-- R39, R45: what TIME64 of the device reads less in the epoch of a sync: 0 in its own, the span up to k0 of an announced one. -/
def epochShift (m : SyncMsg) (d : Dev) : Int :=
  match d.tide.next with
  | some e => if m.epoch != d.tide.epoch && e.epoch = m.epoch then d.tide.time + ((e.k0 : Int) - d.tide.k) * (5 * d.tide.period : Nat) else 0
  | none => 0

/-- R45: the device's own tick, after offset correction, as the sync left the parent. -/
def ownTick (m : SyncMsg) (d : Dev) : Int :=
  d.tide.k + ((m.tx : Int) / 16 + epochShift m d - d.tide.time) / (5 * d.tide.period : Nat)

/-- R45, 10 R298: is a sync whose CRC passed valid? A device that joins takes the epoch of its parent. -/
def syncValid (m : SyncMsg) (d : Dev) : Bool :=
  let joining := d.tide.tstate = 0 || d.tide.tstate = 1
  m.rootUid = rootUid d && (joining ||
    ((m.epoch = d.tide.epoch || d.tide.next.any fun e => e.epoch = m.epoch) && ownTick m d = m.tick))

/-- R37, R43 to R45, 10 R298: a sync of the parent, arrived at `rx`. It distributes the fabric's T: a device in FREE with another T stays there.
The sync that moves FREE to ACQUIRE counts among the 16 consecutive ones (DESIGN CHOICE, log 47). While a string is in RUN no label moves, so the
epoch of a parent to join is taken with the step, and LOCKED waits for it (R41). -/
def parentSync (p : Nat) (m : SyncMsg) (rx : Nat) (d : Dev) : Dev :=
  let t := 5 * d.tide.period
  let off : Int := (rx : Int) - epochShift m d * 16 - (m.tx + d.f (tideDelay p))
  let now : Int := (m.tx + d.f (tideDelay p) : Nat) / 16
  let joining := d.tide.tstate = 0 || d.tide.tstate = 1
  if d.flag localOnly || isRoot d || syncPort d != some p || !syncValid m d then d
  else if d.tide.tstate = 0 && m.period != t then mismatched { d with tide := { d.tide with fabT := m.period / 5 } }
  else
    let d := { (if m.period = t then d.setF (tideStat 2) 0 else d) with tide := { d.tide with fabT := m.period / 5 } }
    let k0 := m.tick - m.tx / 16 / t
    let aligned := epochShift m d != 0 || (m.epoch = d.tide.epoch && k0 = d.tide.k0)
    let n : Int := now / t + 1
    let fr := d.draw 200001
    let d := fr.2
    let small := off.natAbs ≤ 80
    let wide := 320 < off.natAbs
    let st := match d.tide.tstate with
      | 0 => 1
      | 1 => if small && 15 ≤ d.tide.near && aligned then 2 else 1
      | 2 => if wide && 3 ≤ d.tide.far then 1 else 2
      | _ => if wide then 1 else 2
    let d := (d.wr 0x4010002C (BitVec.ofNat 32 (unsigned 32 off))).wr 0x40100050 (BitVec.ofNat 32 (unsigned 32 ((fr.1 : Int) - 100000)))
    let d := if joining then { d with fab := { d.fab with topEpoch := max d.fab.topEpoch m.epoch } } else d
    { d with tide := { d.tide with
        tstate := st, silent := 0, offset := off, near := if small && st = 1 then d.tide.near + 1 else 0,
        far := if wide && st = 2 then d.tide.far + 1 else 0, line := if epochShift m d != 0 then none else some ((k0 : Int) + n, n * t, m.epoch, k0) } }

/-- R43, R45. -/
def execSyncFerryRx (p : Fin 4) (m : SyncMsg) (rx : Nat) (crcOk : Bool) (s : State) : Host.Outcome State Fault Refusal := runCore s fun d =>
  let d := consume 1 d
  if !crcOk || (d.f (portState p) != 2 && d.f (portState p) != 4) then d
  else if d.fab.merge.isSome && m.rootUid != rootUid d then seamSync p m rx d
  else parentSync p m rx d

/-! ### Link delays (R48, R49) -/

def Dev.delayU (d : Dev) (p : Nat) : DelayU := tget (fun _ => {}) d.tide.delays p
def Dev.setDelayU (d : Dev) (p : Nat) (u : DelayU) : Dev := { d with tide := { d.tide with delays := tput (fun _ => {}) d.tide.delays p u } }

/-- R48: its instant is that at which the ferry leaves the lane (`leaving`). -/
def execDelayRequestTimer (p : Fin 4) (s : State) : Host.Outcome State Fault Refusal := runCore s fun d =>
  if !mayPass p 2 d then d else (d.setDelayU p { d.delayU p with t1 := none }).emit (.send (.port p) 2 0 (.delayReq 0))
/-- R48: a request arrives at `t2`; its response bears t2 and the instant at which it leaves. -/
def execDelayReqRx (p : Fin 4) (t2 : Nat) (s : State) : Host.Outcome State Fault Refusal := runCore s fun d =>
  let d := consume 2 d
  if !mayPass p 3 d then d else d.emit (.send (.port p) 3 16 (.delayResp t2 0))
/-- R48, R49: a response with the neighbour's `t2` and `t3` arrives at `t4`. The half of an odd difference, and the mean, are rounded half up
(DESIGN CHOICE, log 33). -/
def execDelayRespRx (p : Fin 4) (t2 t3 t4 : Nat) (s : State) : Host.Outcome State Fault Refusal := runCore s fun d =>
  let d := consume 3 d
  let u := d.delayU p
  match u.t1 with
  | none => d
  | some t1 =>
    if d.f (portState p) != 2 && d.f (portState p) != 4 then d else
    let asym : Int := d.sf ⟨0x40100030 + 4 * p.val, 0, 16⟩
    let x : Int := ((t4 : Int) - t1 - ((t3 : Int) - t2) + 1) / 2 + (2 * 16 * asym + 1000) / 2000
    let cur : Int := d.f (tideDelay p)
    if 16 ≤ u.meas.length && 160 < (x - cur).natAbs then d.setDelayU p { u with t1 := none, discards := u.discards + 1 }
    else
      let l := (x :: u.meas).take 16
      let mean : Int := (2 * l.sum + l.length) / (2 * l.length)
      (d.setDelayU p { u with t1 := none, meas := l }).wr (tideDelay p).addr (BitVec.ofNat 32 (unsigned 32 mean))

/-- R59: a write to a TIDE register. -/
def tideWrite (off : Nat) (v : Word) (d : Dev) : Word × Dev :=
  let a := 0x40100000 + off
  if off = 0 then
    let d := d.store a v
    let d := if !d.flag localOnly then d else
      let d := if isRoot d then setRoot none d else d
      if d.tide.tstate != 0 then tideFree d else d
    (0, linkChanged (whenDo (v.getLsbD 1) stepReq d))
  else if off = 4 then periodWrite (fget v 0 15) d
  else if off = 8 then guardWrite (fget v 0 11) d
  else (0, d.store a v)

/-! ### At the edge (R39, R40, R43, R44, R313, R314) -/

/-- R313: the correction of a merge at this edge, on the label of the edge. -/
def mergeCorrect (d : Dev) : Dev :=
  match d.fab.merge with
  | none => d
  | some u =>
    if !(u.km.any fun k => k ≤ d.tide.k) || u.left = 0 then d
    else if u.slew then
      let c : Int := max (-50) (min u.left 50)
      showFab { d with fab := { d.fab with merge := some { u with left := u.left - c } } }
    else
      let t : Int := 5 * d.tide.period
      let n : Int := (u.left + (if 0 < u.left then 0 else t - 1)) / t
      let k := ((d.tide.k : Int) - n).toNat
      let d := stepCarriers (-n * d.tc) d
      showFab { d with
        tide := { d.tide with k := k, time := ((d.tide.time : Int) - n * t).toNat }
        fab := { d.fab with merge := some { u with left := 0 } } }

/-- R36, R44: T, in 5 ns, comes into force at this edge; carriers keep their place relative to it. -/
def setT (t : Nat) (d : Dev) : Dev :=
  let d := stepCarriers ((d.tide.k : Int) * (2 * t) - (d.tide.k : Int) * d.tc) d
  adcTideCheck { d with tide := { d.tide with period := t, pendT := none } }

/-- R37: at an epoch change the device adopts the fabric's T, in 5 ns, if R36 accepts it; else it keeps its own and stays in FREE. -/
def adoptT (t : Nat) (d : Dev) : Dev :=
  if t = d.tide.period then d.setF (tideStat 2) 0
  else if periodOk t d then (setT t (d.setF tidePeriod t)).setF (tideStat 2) 0
  else mismatched (d.raise (tideStat 8))

/-- R37, R39: at the edge of k0 the device adopts the epoch, and the T last distributed. -/
def epochChange (d : Dev) : Dev :=
  match d.tide.next with
  | none => d
  | some e =>
    if d.tide.k < e.k0 then d
    else
      let d := (d.raise (tideStat 10)).count (stpF 0x44 8 8)
      let d := adoptT d.tide.fabT { d with tide := { d.tide with next := none, epoch := e.epoch, k0 := e.k0, line := none } }
      { d with tide := { d.tide with time := (d.tide.k - e.k0) * 5 * d.tide.period } }

/-- R314: at the edge of k_d the losing part joins the winner: its epoch, k0 and T, as R37 lets the device take it; a new T renumbers the edge. -/
def mergeAdopt (d : Dev) : Dev :=
  match d.fab.merge with
  | none => d
  | some u =>
    if !(u.kd.any fun k => k ≤ d.tide.k) then d
    else
      let was := isRoot d
      let key := match lsaOf (lsasOf d) u.winner with | some l => some (l.prio, l.uid) | none => none
      let own := d.tide.period
      let d := adoptT (u.period / 5) { d with tide := { d.tide with tstate := if was then 1 else d.tide.tstate } }
      let k : Nat := if d.tide.period = own then d.tide.k else d.tide.k * own / d.tide.period
      let d := { d with
        tide := { d.tide with epoch := u.epoch, k0 := u.k0, next := none, line := none, k := k,
                              time := (k - u.k0) * 5 * d.tide.period, fabT := u.period / 5 }
        fab := { d.fab with merge := none, topEpoch := max d.fab.topEpoch u.epoch, leases := if was then [] else d.fab.leases } }
      let d := setRoot key ((d.raise (tideStat 10)).count (stpF 0x44 16 8))
      linkChanged d

/-- R35, R36, R38, R44, R54: the label of the new edge, the T and guard in force from it. -/
def tideAdvance (d : Dev) : Dev :=
  let t := 5 * d.tide.period
  let d := { d with tide := { d.tide with
    abs := d.tide.abs + d.tc, k := (d.tide.k + 1) % 2 ^ 48, time := d.tide.time + t, silent := if isRoot d then 0 else d.tide.silent + 1 } }
  let d := match d.tide.line with
    | some (k, time, epoch, k0) =>
      if d.anyRun then d
      else
        let d := stepCarriers ((k - d.tide.k) * d.tc) (if epoch = d.tide.epoch && k0 = d.tide.k0 then d else d.raise (tideStat 10))
        { d with tide := { d.tide with k := k.toNat, time := time.toNat, epoch := epoch, k0 := k0, line := none, offset := 0 } }
    | none => d
  let slew := d.anyRun && decide (800 < d.tide.offset.natAbs)
  let c : Int := max (-800) (min d.tide.offset 800)
  let d := if d.anyRun then { d with tide := { d.tide with offset := d.tide.offset - c, line := none } } else d
  let d := { d.setF (tideStat 3) (b2n slew) with tide := { d.tide with stepReq := false } }
  let d := match d.tide.pendT with
    | some (v, n + 2) => { d with tide := { d.tide with pendT := some (v, n + 1) } }
    | some (v, _) =>
      let d := setT v d
      if d.tide.fabT = v || d.fab.root.isNone then d.setF (tideStat 2) 0 else mismatched d
    | none => d
  let d := match d.tide.pendGuard with
    | some g => { d with tide := { d.tide with guard := g, pendGuard := none } }
    | none => d
  mergeAdopt (epochChange (mergeCorrect (holdoverExp (lockedTmo (acquireTmo d)))))

/-- R43: a sync ferry on each Strait port other than the sync port. -/
def syncTx (d : Dev) : Dev :=
  let sp := syncPort d
  forUpTo 4 (fun p d =>
    if sp = some p || !mayPass p 1 d then d
    else d.emit (.send (.port p) 1 24 (.sync ⟨d.tide.k, d.tide.epoch, 16 * d.tide.time, 5 * d.tide.fabT, rootUid d,
      match d.fab.root with | some r => r.1 | none => 0⟩))) d

end Sys2Proof.Machine
end

