-- ==== Sys2Proof/Machine/Pairs.lean ====
section
/-! DEFINITION. Device modes as every block changes them (20 R570, 21 R604), and active and standby pairs (12): pairing, heartbeats, digests,
loss, takeover, hand-back, switchover. -/
namespace Sys2Proof.Machine

/-! ### Mode changes -/

/-- 17 R503: sessions opened under the zero key close as the device leaves COMMISSION; a session's transaction is aborted with it. -/
def dropZeroSessions (d : Dev) : Dev :=
  let gone := (d.host.sessions.filter (·.zero)).map (·.id)
  { d with host := { d.host with sessions := d.host.sessions.filter fun x => !x.zero
                                 txs := d.host.txs.filter fun t => !gone.contains t.session } }

/-- 20 R570, 21 Table COI-2 step 1: the mode becomes `mode`; `cause` as in 18 Table JRN-3; `toOff`: control passes to the partner (06 R157). -/
def setMode (mode cause : Nat) (toOff : Bool) (d : Dev) : Dev :=
  let was := d.mode
  if was = mode then d
  else
    let d := d.setF modeFld mode
    let d := jEvent 1 [BitVec.ofNat 8 was, BitVec.ofNat 8 mode, BitVec.ofNat 8 cause] 0x2000 d
    let d := if was = 2 then dropZeroSessions d else d
    let d := if was = 4 then leaveRun toOff { d with red := { d.red with relinq := d.red.paired && !toOff } } else d
    safetyUpdate d

/-! ### The pair's registers -/

def redF (off lo w : Nat) : Fld := ⟨primAddr .red 0 off, lo, w⟩
def redStat (i : Nat) : Fld := redF 4 i 1
def pairEn : Fld := redF 0 0 1
def ownSide (d : Dev) : Nat := d.f (redF 0 1 1)
/-- R354: this device is preferred. -/
def preferred (d : Dev) : Bool := d.flag (redF 0x1C 3 1)
/-- R354: both devices preferred, or neither. -/
def prefConflict (d : Dev) : Bool := d.red.paired && d.red.hb.any fun h => h.preferred == preferred d

/-- R361: the mirror age in ms, at `at_` counts after the edge. -/
def mirrorAge (at_ : Nat) (d : Dev) : Option Nat := d.red.mirAt.map fun m => (d.tide.abs + at_ - m) / 400000

/-- R361. -/
def takeReady (at_ : Nat) (d : Dev) : Bool :=
  let ringsUp := d.isles.all fun e => (e.2.entry.role != 1 && e.2.entry.role != 2) || d.f (nrwState e.2.entry.ring) = 3
  d.mode = 3 && d.red.paired && ringsUp && !d.red.gap &&
    (match mirrorAge at_ d with | some a => a ≤ d.f (redF 0x14 0 13) | none => false) &&
    !d.pow.held && !d.flag ⟨safReg 0xC, 0, 1⟩ && !d.flag ⟨0x40020004, 0, 1⟩

/-- PSTATE (Table RED-7). -/
def pairState (d : Dev) : Nat :=
  if !d.red.paired then 0
  else if d.red.kd.isSome then 3
  else if d.red.kh.isSome then 4
  else if d.mode = 4 then 1 else if d.mode = 3 then 2 else 0

/-- Tables RED-6, RED-7: the fields that show the pair's state. -/
def showRed (at_ : Nat) (d : Dev) : Dev :=
  let d := ((d.setF (redF 4 0 3) (pairState d)).setF (redStat 3) (b2n (takeReady at_ d))).setF (redStat 4) (b2n (d.red.paired && !d.red.lost))
  let d := (d.setF (redStat 7) (b2n (d.red.hb.any (·.pause)))).setF (redStat 8) (b2n (decide (16 ≤ d.red.split)))
  let d := d.setF (redStat 9) (b2n (prefConflict d))
  d.setF (redF 0x18 0 16) (match mirrorAge at_ d with | some a => min a 65535 | none => 0)

/-- R351, R291: PAIR_EN, PAIR_OK and the partner's UID. -/
def pairPortOk (d : Dev) : Bool := d.flag pairEn && (pairPort d).isSome

/-- What goes to the partner: on the pair port, while it is up. -/
def toPartner (typ len : Nat) (m : Msg) (d : Dev) : Dev :=
  match pairPort d with
  | some p => d.emit (.send (.port p) typ len m)
  | none => d

/-! ### Heartbeats (R356, R357) -/

/-- The generation that a string segment runs. -/
def segGen (s : Nat) (d : Dev) : Nat := (d.isles.find? fun e => e.2.entry.role = 1 && e.2.entry.string = s).elim 0 fun e => e.2.gen

/-- R360: does the device send the bits of the latest heartbeat, as a paired standby? -/
def shadows (d : Dev) : Option Heartbeat := if d.red.paired && d.mode = 3 then d.red.hb else none
/-- R360: the halt bits that a standby sends beside its own. -/
def standbyHalts (r : Nat) (d : Dev) : Nat := match shadows d with | some h => (h.rings.getD r (0, 0, 0)).2.2 % 65536 | none => 0

/-- Table RED-1. Strings that the plan does not hold carry zeros. -/
def heartbeat (d : Dev) : Heartbeat :=
  { tick := d.tide.k, mode := d.mode, run := d.mode = 4, relinquish := d.red.relinq, pause := d.pow.restart, preferred := preferred d,
    takeReady := takeReady 0 d, side := ownSide d,
    rings := (List.range 16).map fun r =>
      (d.f ⟨nrwReg r 0x0C, 0, 16⟩, d.f ⟨nrwReg r 0x0C, 16, 16⟩, d.f ⟨nrwReg r 0x10, 0, 16⟩),
    strings := (List.range 64).map fun s =>
      let u := d.str s
      if u.held then ⟨u.sstate, u.variant, segGen s d % 1024, u.excl.getD 0 0, u.excl.getD 1 0⟩ else ⟨0, 0, 0, 0, 0⟩ }

/-- R356: PAIR_HB at the tick edge. It is sent while the pair port joins the devices, so that SIDE can be compared. -/
def sendHb (d : Dev) : Dev :=
  let d := if pairPortOk d then toPartner 0x20 360 (.pairHb (heartbeat d)) d else d
  { d with red := { d.red with relinq := false } }

/-- R351, R356, R369: a partner heartbeat. -/
def execPairHbRx (h : Heartbeat) (crcOk : Bool) (s : State) : Host.Outcome State Fault Refusal := runCore s fun d =>
  let d := consume 0x20 d
  if !crcOk || !pairPortOk d || !(h.tick = d.tide.k || h.tick + 1 = d.tide.k) then d
  else if h.side = ownSide d then showRed 0 { d.raise (redStat 22) with red := { d.red with paired := false } }
  else
    let first := !d.red.paired
    let r := d.red
    let r := { r with paired := true, hb := some h, hbNow := true, relNow := r.relNow || h.relinquish, lost := r.lost && h.mode != 3 && d.mode != 3 }
    let r := if first then { r with hbQuiet := 0, aliveQuiet := 0, lost := false } else r
    showRed 0 { d with red := r }

/-- R353, R362: a transition of PAIR_ALIVE_IN after its filter. -/
def execPairAliveInTransition (s : State) : Host.Outcome State Fault Refusal := runCore s fun d => { d with red := { d.red with aliveNow := true } }

/-! ### Digests (R358) -/

/-- The digest of an isle after its run: CRC-32C of its state words 256 to 1,023; 0 unless it reached DONE. A line is 16 bytes. -/
def isleDigest (crc : List Byte → Nat) (n : Nat) (d : Dev) : Nat :=
  let u := d.isle n
  if u.istate != 4 then 0
  else crc ((List.range 768).flatMap fun i => leBytes 16 (tget (fun _ => (0 : Line)) u.words (256 + i)).toNat)

/-- R358, R365: DIVERGED bit of an isle. -/
def divFld (n : Nat) : Fld := redF (0x20 + 4 * (n / 32)) (n % 32) 1

/-- R358: a digest round of the partner: tick, first isle, 64 digests. -/
def execPairDigRx (tick first : Nat) (digests : List Nat) (crcOk : Bool) (s : State) : Host.Outcome State Fault Refusal := runCore s fun d =>
  let d := consume 0x21 d
  if !crcOk || !d.red.paired || d.mode != 3 || first % 64 != 0 || tick + 1 != d.tide.k || tick != d.red.digTick then d
  else forUpTo 64 (fun i d =>
    let n := first + i
    let theirs := digests.getD i 0
    let own := tget (fun _ => 0) d.red.digests n
    if theirs = 0 || own = 0 then d
    else if theirs = own then
      let g := tget (fun _ => 0) d.red.good n + 1
      let d := { d with red := { d.red with bad := terase d.red.bad n, good := tput (fun _ => 0) d.red.good n (min g 4) } }
      if 4 ≤ g then d.lower (divFld n) else d
    else
      let b := tget (fun _ => 0) d.red.bad n + 1
      let d := ({ d with red := { d.red with good := terase d.red.good n, bad := tput (fun _ => 0) d.red.bad n (min b 2) } }).count (redF 0x40 24 8)
      if 2 ≤ b then (d.raise (divFld n)).raise (redStat 19) else d) d

/-- R358: at an edge: the digests of the round, kept on the standby, sent by the active device. -/
def digestRound (crc : List Byte → Nat) (d : Dev) : Dev :=
  if !d.red.paired || d.tide.k = 0 || (d.mode != 3 && d.mode != 4) then d
  else
    let first := 64 * (d.tide.k % 4)
    let ds := (List.range 64).map fun i => isleDigest crc (first + i) d
    if d.mode = 4 then toPartner 0x21 264 (.pairDig (d.tide.k - 1) first ds) d
    else { d with red := { d.red with digTick := d.tide.k - 1,
                                      digests := forUpTo 64 (fun i t => tput (fun _ => 0) t (first + i) (ds.getD i 0)) [] } }

/-! ### Standby (R360) -/

/-- R360: the standby applies variant and excluded set of the latest heartbeat; a differing G is shown. -/
def standbyString (s : Nat) (x : HbString) (d : Dev) : Dev :=
  let u := d.str s
  if !u.held then d
  else
    let d := if segGen s d % 1024 != x.gen then d.raise (redStat 20) else d
    let ex := [x.ex1, x.ex2].take x.variant
    if u.variant = x.variant && u.excl = ex then d
    else
      let back := u.excl.filter fun p => !ex.contains p
      let d := excludeIsles s ex d
      let d := forEach (d.cells s) (fun n d =>
        let i := d.isle n
        if back.contains i.entry.gPos && i.istate = 0 && !i.ueStop then d.setIsle n (leaveStopped i) else d) d
      pushVariant s (d.modStr s fun u => { u with variant := x.variant, excl := ex })

/-- R360: entries the standby records are kept from the tick of its heartbeat on (21 R607). -/
def standbyApply (d : Dev) : Dev :=
  match d.red.hb with
  | none => d
  | some h =>
    let d := forUpTo 64 (fun s d => standbyString s (h.strings.getD s ⟨0, 0, 0, 0, 0⟩) d) d
    forEach d.heldStrings (fun s d => d.modStr s fun u => { u with fq := u.fq.filter fun e => h.tick ≤ e.tick }) d

/-! ### Loss and takeover (R362 to R364) -/

/-- R362: at an edge, what arrived in the window that ends. -/
def closeWindow (d : Dev) : Dev :=
  let r := d.red
  let d := (d.setF (redStat 5) (b2n r.aliveNow)).setF (redStat 6) (b2n r.hbNow)
  if !r.paired then { d with red := { r with aliveNow := false, hbNow := false, relNow := false } }
  else { d with red := { r with
    aliveQuiet := if r.aliveNow then 0 else min 2 (r.aliveQuiet + 1), hbQuiet := if r.hbNow then 0 else min 2 (r.hbQuiet + 1),
    aliveNow := false, hbNow := false } }

/-- R362 to R364, R368: the partner is lost: a takeover at the next edge, NO_TAKE, or PARTNER_LOST. -/
def partnerLoss (d : Dev) : Dev :=
  let r := d.red
  let gone := (2 ≤ r.aliveQuiet && 2 ≤ r.hbQuiet) || r.relNow
  let d := { d with red := { d.red with relNow := false } }
  if !r.paired || r.lost then d
  else if gone then
    let active := r.hb.any fun h => h.run || h.relinquish
    let d := { d with red := { d.red with lost := true, asked := none, kh := match r.kh with | some (k, true) => some (k, true) | _ => none } }
    if d.mode = 3 && active then
      if takeReady 0 d then { d with red := { d.red with kd := some d.tide.k, take := r.hb } }
      else jEvent 5 [] 0x5100 (d.raise (redStat 18))
    else
      let seen := match r.hb with | some h => h.mode | none => 0
      jEvent 4 [BitVec.ofNat 8 seen] 0x5100 (d.raise (redStat 16))
  else
    let degr := decide (2 ≤ r.aliveQuiet) != decide (2 ≤ r.hbQuiet)
    let d := if degr && !r.degr then (d.raise (redStat 17)).count (redF 0x40 16 8) else d
    { d with red := { d.red with degr := degr } }

/-- R362. -/
def execPartnerLost (s : State) : Host.Outcome State Fault Refusal := runCore s fun d => showRed 0 (partnerLoss d)

/-- R363 step 2, R366, 06 Table BAL-2: every string takes state, variant and excluded set of a heartbeat, without the entry actions of
06 R159; an entry into SAFE takes those of R160 with cause 0x18; a variant not held goes to SAFE with NO_PLAN. -/
def takeStrings (h : Heartbeat) (d : Dev) : Dev :=
  forUpTo 64 (fun s d =>
    let x := h.strings.getD s ⟨0, 0, 0, 0, 0⟩
    if !(d.str s).held then d
    else
      let d := standbyString s x d
      let u := d.str s
      if x.sstate = 3 then (if u.sstate = 3 then d else stringSafe s 0x18 d)
      else if (x.sstate = 1 || x.sstate = 2) && u.sstate != x.sstate && u.defn.variants.length ≤ x.variant then stringSafe s 0x14 d
      else if x.sstate = 1 && u.sstate != 1 then d.setStr s { u with sstate := 1, preTick := d.tide.abs, preDone := false, preRun := 0 }
      else d.setStr s { u with sstate := x.sstate }) d

/-- R363 step 4: cells of live strings whose node's last record reports HALTED, SAFE or DISABLED. -/
def haltedEntries (d : Dev) : Dev :=
  forEach (d.isles.map (·.1)) (fun n d =>
    let e := (d.isle n).entry
    let live := (d.str e.string).sstate = 1 || (d.str e.string).sstate = 2
    let ns := stw (rnode (d.ring e.ring) e.node).status 32 3
    if e.role = 1 && live && (ns = 1 || ns = 3 || ns = 4) then cellFault n 0x06 0 d else d) d

/-- R363: at edge k_d + 1. The evaluation of step 3 is that of the edge's third step. -/
def takeover (d : Dev) : Dev :=
  match d.red.kd, d.red.take with
  | some kd, some h =>
    if d.tide.k ≤ kd || d.mode != 3 then d
    else
      let d := setMode 4 1 false d
      let d := takeStrings h d
      let d := haltedEntries d
      let d := forUpTo 256 (fun n d => if d.flag (divFld n) then d.setIsle n (oweFirst (d.isle n)) else d) d
      let d := (d.wr (primAddr .red 0 0x44) (BitVec.ofNat 32 kd)).wr (primAddr .red 0 0x48) (BitVec.ofNat 32 (kd / 2 ^ 32 % 65536))
      let d := d.count (redF 0x40 0 8)
      jEvent 3 (leBytes 6 kd) 0x5100 { d with red := { d.red with take := none } }
  | _, _ => d

/-- R363: takeover is complete at k_d + 2. -/
def takeoverDone (d : Dev) : Dev :=
  match d.red.kd with
  | some kd => if kd + 2 ≤ d.tide.k then { d with red := { d.red with kd := none, take := none } } else d
  | none => d

/-! ### Hand-back and switchover (R365 to R367) -/

/-- R365: a string in PRECHARGE or in a re-spread. -/
def stringsBusy (d : Dev) : Bool := d.strings.any fun e => e.2.sstate = 1 || e.2.respread.isSome
def anyDiverged (d : Dev) : Bool := (List.range 8).any fun i => (d.rd (primAddr .red 0 (0x20 + 4 * i))) != 0

/-- R365: the conditions on the preferred device. -/
def revertFree (d : Dev) : Bool :=
  preferred d && !prefConflict d && d.flag (redF 0 3 1) && takeReady 0 d && !anyDiverged d && !d.flag (redStat 20) && !stringsBusy d &&
    d.red.kh.isNone && d.red.kd.isNone && d.red.hb.any fun h => h.run && h.strings.all fun x => x.sstate != 1
/-- R365: any break restarts the hold-off. -/
def holdCheck (d : Dev) : Dev :=
  if !revertFree d then { d with red := { d.red with hold := none } }
  else if d.red.hold.isNone then { d with red := { d.red with hold := some d.tide.abs } } else d

/-- R365: the hold-off is over. -/
def execRevertHoldoffExpiry (s : State) : Host.Outcome State Fault Refusal := runCore s fun d =>
  match d.red.hold with
  | some h0 =>
    if revertFree d && d.red.asked.isNone && 400000000 * d.f (redF 0x10 0 12) ≤ d.tide.abs - h0 then
      let kh := d.tide.k + 4
      toPartner 0x23 8 (.revertReq kh) { d with red := { d.red with asked := some kh } }
    else d
  | none => d

/-- R365, R369: REVERT_REQ at the active device. -/
def execRevertReqRx (kh : BitVec 48) (crcOk : Bool) (s : State) : Host.Outcome State Fault Refusal := runCore s fun d =>
  let d := consume 0x23 d
  let k := kh.toNat
  if !crcOk || !d.red.paired || d.mode != 4 || k < d.tide.k + 2 || preferred d || stringsBusy d || d.red.kh.isSome || d.red.kd.isSome then d
  else showRed 0 (toPartner 0x24 8 (.revertAck k) { d with red := { d.red with kh := some (k, true) } })

/-- R365, R367: REVERT_ACK at the device that is to take control; the partner that hands over by command names its k_h in the same way. -/
def execRevertAckRx (kh : BitVec 48) (crcOk : Bool) (s : State) : Host.Outcome State Fault Refusal := runCore s fun d =>
  let d := consume 0x24 d
  let k := kh.toNat
  let asked := d.red.asked = some k
  let switched := d.red.asked.isNone && takeReady 0 d && d.tide.k + 2 ≤ k
  if !crcOk || !d.red.paired || d.mode != 3 || d.red.kh.isSome || !(asked || switched) then d
  else showRed 0 { d with red := { d.red with kh := some (k, false), asked := none, hold := none } }

/-- R365: no acknowledgement by edge k_h - 1. -/
def revertFail (d : Dev) : Dev :=
  match d.red.asked with
  | some kh => if kh ≤ d.tide.k + 1 then (({ d with red := { d.red with asked := none, hold := none } }).raise (redStat 21)) else d
  | none => d
/-- R365. -/
def execRevertFail (s : State) : Host.Outcome State Fault Refusal := runCore s revertFail

/-- R367: SWITCH, or its refusal. -/
def switchOver (d : Dev) : Word × Dev :=
  if d.red.paired && d.mode = 4 && !d.red.lost && d.red.hb.any (·.takeReady) && d.red.kh.isNone && d.red.kd.isNone && d.red.asked.isNone then
    let kh := d.tide.k + 4
    (0, showRed 0 (toPartner 0x24 8 (.revertAck kh) { d with red := { d.red with kh := some (kh, true) } }))
  else (refusedCode, d)
/-- R367. -/
def execSwitch (s : State) : Host.Outcome State Fault Refusal := runCore s fun d => (switchOver d).2

/-- R366: at edges k_h and k_h + 1. -/
def handBack (d : Dev) : Dev :=
  match d.red.kh with
  | none => d
  | some (kh, gives) =>
    if gives then
      if kh < d.tide.k then
        let d := { d with red := { d.red with kh := none } }
        if d.mode = 4 then (setMode 3 0 true d).count (redF 0x40 8 8) else d
      else d
    else
      match d.red.hb with
      | none => { d with red := { d.red with kh := none } }
      | some h =>
        if kh < d.tide.k then
          let d := { d with red := { d.red with kh := none } }
          if d.mode = 4 then (takeStrings h d).count (redF 0x40 8 8) else d
        else if kh = d.tide.k && d.mode = 3 then takeStrings h (setMode 4 0 false d)
        else d

/-! ### Both in RUN (Table RED-4) -/

/-- Every node of the running plan reports following the other ring. -/
def nodesElsewhere (d : Dev) : Bool :=
  let own := d.isles.filter fun e => (e.2.entry.role = 1 || e.2.entry.role = 2) && (rnode (d.ring e.2.entry.ring) e.2.entry.node).status != 0
  !own.isEmpty && own.all fun e => stw (rnode (d.ring e.2.entry.ring) e.2.entry.node).status 36 1 != ownSide d

/-- Table RED-4: SPLIT, and the device whose ring no node follows steps back once contact is restored. -/
def bothRun (d : Dev) : Dev :=
  let away := d.mode = 4 && d.red.paired && nodesElsewhere d
  let d := { d with red := { d.red with split := if away then min 16 (d.red.split + 1) else 0 } }
  if away && d.red.hb.any (·.run) && d.red.hbQuiet = 0 && d.red.kh.isNone && d.red.kd.isNone then
    setMode 3 0 true (jEvent 6 [] 0x5100 d)
  else d

/-! ### Alive wire, mirror timing -/

/-- R353: PAIR_ALIVE_OUT at an edge. -/
def aliveOut (d : Dev) : Dev :=
  let on := (d.mode = 3 || d.mode = 4 || d.mode = 5) && !d.pow.trip && !d.pow.held
  { d with red := { d.red with aliveOut := on && !d.red.aliveOut } }

/-- R359: what waits for the mirror goes in one MIR_CFG; mirroring pauses during a supervisor restart. -/
def sendMirror (d : Dev) : Dev :=
  if d.red.mirOut.isEmpty || d.pow.restart then d
  else toPartner 0x22 496 (.mirCfg d.red.mirOut) { d with red := { d.red with mirOut := [], mirSent := d.tide.abs } }
/-- R359: nothing was sent for 10 ms (`at_` counts after the edge). -/
def execMirCfgIdleTimer (at_ : Nat) (s : State) : Host.Outcome State Fault Refusal := runCore s fun d =>
  if !mirrors d || d.pow.restart then d
  else if !d.red.mirOut.isEmpty then sendMirror d
  else if 4000000 ≤ d.tide.abs + at_ - d.red.mirSent then toPartner 0x22 0 (.mirCfg []) { d with red := { d.red with mirSent := d.tide.abs + at_ } } else d

/-- R361: the mirror age passes its limit, `at_` counts after the edge. -/
def execMirrorAgeExpiry (at_ : Nat) (s : State) : Host.Outcome State Fault Refusal := runCore s fun d => showRed at_ d

/-- R354 to R371: a write to a RED register. -/
def redWrite (off : Nat) (v : Word) (d : Dev) : Word × Dev :=
  let a := primAddr .red 0 off
  if off = 0 then
    let d := d.store a v
    let d := if d.flag pairEn then d else { d with red := { d.red with paired := false, hb := none, lost := false, degr := false, hold := none } }
    let r : Word × Dev := if v.getLsbD 2 then switchOver d else (0, d)
    (r.1, showRed 0 r.2)
  else if off = 8 || off = 0xC then
    let d := d.store a v
    (0, showRed 0 (forUpTo 4 pairCheck { d with red := { d.red with paired := false, hb := none } }))
  else if off = 0x10 then if within 5 (fget v 0 12) 3600 then (0, d.store a v) else (0x06090030, d)
  else if off = 0x14 then if within 20 (fget v 0 13) 5000 then (0, d.store a v) else (0x06090030, d)
  else (0, d.store a v)

/-- R355: is a paired device's entry into RUN refused? `rival`: the partner received a RUN command for the same edge. -/
def runRefused (rival : Bool) (d : Dev) : Bool :=
  let theirs := d.red.hb.any (·.preferred)
  let wins := if preferred d != theirs then preferred d else decide (ownUid < partnerUid d)
  d.red.paired && (d.red.hb.any (·.run) ||
    ((match d.red.hb with | some h => decide (h.tick + 2 < d.tide.k) | none => true) && d.flag (redStat 5)) || (rival && !wins))

end Sys2Proof.Machine
end

