-- ==== Sys2Proof/Machine/Power.lean ====
section
/-! DEFINITION. Clocks and protected memories (01), modes, power, start-up and temperature (20), but for the stages of BOOT that apply a
configuration image. -/
namespace Sys2Proof.Machine

def pwrF (off lo w : Nat) : Fld := ⟨primAddr .pwr 0 off, lo, w⟩
def pwrStat (i : Nat) : Fld := pwrF 4 i 1
def pwrCnt (i : Nat) : Fld := pwrF 0x18 (8 * i) 8
def domStat (n : Nat) : Fld := pwrF 0xC n 1
def thmF (off lo w : Nat) : Fld := ⟨primAddr .thm 0 off, lo, w⟩
def thmStat (i : Nat) : Fld := thmF 4 i 1
def thmCnt (i : Nat) : Fld := thmF 0x4C (8 * i) 8
def warning (d : Dev) : Bool := d.flag (thmStat 0)

/-! ### Reset of the core (20 R585, R587, R591) -/

/-- What survives outside PD_0 and PD_1: nothing. Registers of PWR, THM and FUSE, the fuse shadow, the journal and its flash stand; the nodes
are outside the device. -/
def coreReset (d : Dev) : Dev :=
  { regs := d.regs.filter fun e => match decodeAddr e.1 with | some l => regDomain l = 0 | none => false
    draws := d.draws, out := d.out, nodes := d.nodes, banks := d.banks
    tide := { abs := d.tide.abs }
    jrn := { d.jrn with cursor := 1, txQuery := 0, flushing := false, page := [] }
    host := { lastModeCmd := d.host.lastModeCmd }
    pow := { d.pow with stage := 0, modeCmd := none, autoRun := false, rising := [], restart := false, gateTemp := false } }

/-- The domains that remain: `keep` is DOM_STAT. -/
def powerOnly (keep : Nat) (d : Dev) : Dev := (coreReset d).wr (primAddr .pwr 0 0xC) (BitVec.ofNat 32 keep)

/-- 20 R570, R576, Table MPT-2: BOOT begins at the stage after power-good. -/
def enterBoot (cause : Nat) (d : Dev) : Dev :=
  let last := d.mode
  let d := powerOnly 3 d
  let d := ((d.setF (pwrF 4 24 4) cause).setF (pwrF 4 8 4) last).setF (pwrF 4 20 2) 0
  let d := d.setF modeFld 1
  safetyUpdate { d with pow := { d.pow with stage := 1, cause := 0, held := false, lanesOff := false, trip := false } }

/-- 20 Table MPT-2: DORMANT, with the cause pending for the next BOOT. -/
def enterDormant (cause : Nat) (d : Dev) : Dev :=
  let d := (powerOnly 3 d).setF modeFld 0
  safetyUpdate { d with pow := { d.pow with cause := cause, held := false } }

/-- 20 R575, R595: BOOT as its cause, power-good and the release of a trip have all come. -/
def tryBoot (d : Dev) : Dev :=
  if d.mode = 0 && d.pow.aon && d.pow.good && d.pow.cause != 0 && !d.pow.trip then enterBoot d.pow.cause d else d

/-! ### Rows of power and reset -/

/-- 20 Table MPT-2: VDD_AON reaches its window. -/
def execVddAonUp (s : State) : Host.Outcome State Fault Refusal := run s fun d =>
  if d.pow.aon then d else { d with pow := { d.pow with aon := true, cause := 1, good := false } }

/-- 18 R533: all power is lost; the journal's retention with it. What lies in flash, in the fuses and at the nodes stays. -/
def execVddAonLoss (s : State) : Host.Outcome State Fault Refusal :=
  run s fun d =>
    { draws := d.draws, nodes := d.nodes, tide := { abs := d.tide.abs }
      jrn := { flash := d.jrn.flash, flashPos := d.jrn.flashPos }
      pow := { aon := false } }

/-- 20 R575: every rail but VPP_FUSE inside its window without a break, RESET_N high, for `elapsed` µs: 1 ms is power-good. -/
def execPowerGood (elapsed : Nat) (s : State) : Host.Outcome State Fault Refusal := run s fun d =>
  if !d.pow.aon || elapsed < 1000 then d else tryBoot { d with pow := { d.pow with good := true } }

/-- 20 R587, R595: a compared rail outside its window for `elapsed` ns: 2 µs is a brownout. -/
def execBrownout (elapsed : Nat) (s : State) : Host.Outcome State Fault Refusal :=
  run s fun d =>
    if elapsed < 2000 then d
    else
      let d := (enterDormant (if d.pow.trip then 5 else 6) d).count (pwrCnt 0)
      { d with pow := { d.pow with good := false } }

/-- 20 R574: the device leaves DORMANT through power-good; a cause that is pending stands (R587). -/
def leaveDormant (cause : Nat) (d : Dev) : Dev :=
  tryBoot { d with pow := { d.pow with cause := if d.pow.cause = 0 then cause else d.pow.cause } }

/-- 20 Table MPT-2, R574, 22 R614: RESET_N rises after `low` ns. -/
def execResetNEdge (low : Nat) (s : State) : Host.Outcome State Fault Refusal :=
  let acts (d : Dev) : Bool := 1000 ≤ low && d.pow.aon && !d.pow.trip && !d.pow.held
  run s fun d => if !acts d then d else if d.mode = 0 then leaveDormant 2 d else enterBoot 2 d

/-- 20 R574: the wake timer expires, `elapsed` s after DORMANT began. -/
def execWakeTimer (elapsed : Nat) (s : State) : Host.Outcome State Fault Refusal := run s fun d =>
  let t := d.f (pwrF 0x10 0 16)
  if d.mode != 0 || t = 0 || elapsed < t then d else leaveDormant 7 d

/-- 17 R518, 20 R576: a device reset by command. -/
def deviceReset (v : Word) (d : Dev) : Word × Dev :=
  if v != 0x5254 then (0x06090030, d)
  else if d.mode < 2 then (refusedCode, d)
  else (0, enterBoot 3 (d.count (pwrCnt 2)))
/-- 17 R518. -/
def execDeviceReset (v : Word) (s : State) : Host.Outcome State Fault Refusal := runCore s fun d => (deviceReset v d).2

/-- 20 R576: 10 s after a boot failure. -/
def execBootRetry (elapsed : Nat) (s : State) : Host.Outcome State Fault Refusal := run s fun d =>
  if d.mode = 1 && d.f (pwrF 4 20 2) != 0 && 10 ≤ elapsed then
    let last := d.f (pwrF 4 8 4)
    (enterBoot (d.f (pwrF 4 24 4)) d).setF (pwrF 4 8 4) last
  else d

/-! ### Modes -/

def portsOff (d : Dev) : Bool := (List.range 4).all fun p => d.f (mpoState p) = 0
def stringsOff (d : Dev) : Bool := d.strings.all fun e => e.2.sstate = 0

/-- 20 R571: refused. -/
def modeReject (d : Dev) : Word × Dev := (refusedCode, d.raise (pwrStat 15))

/-- 20 Table MPT-2: a dormant request. -/
def dormantReq (d : Dev) : Word × Dev :=
  if (d.mode = 2 || d.mode = 5) && d.allIdle && portsOff d then (0, enterDormant 0 d) else modeReject d
/-- 20 Table MPT-2. -/
def execDormantReq (s : State) : Host.Outcome State Fault Refusal := runCore s fun d => (dormantReq d).2

/-- 20 Table MPT-2: does the present mode allow mode `mode` by command? -/
def modeAllowed (mode : Nat) (rival : Bool) (d : Dev) : Bool :=
  let m := d.mode
  match mode with
  | 2 => m = 3 || m = 5
  | 3 => m = 4 || m = 5 || (m = 2 && d.flag ⟨safReg 0, 4, 1⟩ && !d.flag ⟨safReg 0, 5, 1⟩ && !d.plan.held.isEmpty && d.flag ⟨0x40040004, 0, 1⟩)
  | 4 => m = 3 && !d.plan.held.isEmpty && !warning d && !runRefused rival d
  | 5 => m = 3 || m = 4
  | _ => false

/-- 20 R571: a mode command; an allowed one takes effect at the next edge. -/
def modeCommand (v : Nat) (d : Dev) : Word × Dev :=
  if modeAllowed v false d then (0, { d with pow := { d.pow with modeCmd := some v }, host := { d.host with lastModeCmd := v } })
  else modeReject (if v = 4 && d.mode = 3 && runRefused false d then d.raise (redStat 23) else d)
/-- 20 R571. -/
def execModeCommand (v : BitVec 8) (s : State) : Host.Outcome State Fault Refusal := runCore s fun d => (modeCommand v.toNat d).2

/-- 20 R571, 21 R604: the mode command due at this edge, judged afresh. -/
def modeDue (rival : Bool) (d : Dev) : Dev :=
  match d.pow.modeCmd with
  | none => d
  | some v =>
    let d := { d with pow := { d.pow with modeCmd := none } }
    if modeAllowed v rival d then setMode v 0 false d
    else (modeReject (if v = 4 && d.mode = 3 && runRefused rival d then d.raise (redStat 23) else d)).2

/-- 20 R573. -/
def autoRun (d : Dev) : Dev :=
  if d.pow.autoRun && !d.flag pairEn && modeAllowed 4 false d then setMode 4 0 false { d with pow := { d.pow with autoRun := false } } else d

/-! ### Power domains -/

/-- The isles and rings of the running plan that lie in a domain (01 R26). -/
def domainHolds (n : Nat) (d : Dev) : Bool :=
  d.isles.any fun e => e.2.entry.role != 0 &&
    (n = 4 + e.1 / 64 || ((e.2.entry.role = 1 || e.2.entry.role = 2) && n = (if e.2.entry.ring < 8 then 8 else 9)))

/-- 01 R22, 20 R584: may the domains requested be those of `want` (bits 4 to 11)? -/
def domainsOk (want : Nat) (d : Dev) : Bool :=
  let was := (d.rd (primAddr .pwr 0 8)).toNat
  let gone (n : Nat) : Bool := (was.testBit n || d.domOn n) && !want.testBit n
  (want / 16 = 0 || d.domOn 2) && (!want.testBit 9 || want.testBit 8) && !((List.range 8).any fun i => gone (4 + i) && domainHolds (4 + i) d) &&
    !(gone 10 && (d.flag fabEn || d.flag pairEn)) &&
    !(gone 11 && (!portsOff d || (mvSlot d).isSome ||
        (List.range 4).any fun f => d.f (encMode f) != 0 && (List.range 4).any fun p => d.f ⟨mpoReg p 0, 12, 2⟩ = f || (!d.saf.spb.isEmpty && spbPort d p 1 1 = f))) &&
    !(isHalf d && (want.testBit 6 || want.testBit 7))

/-- 20 R585, 01 R25: isolation engages and the domain goes off; its blocks lose what they hold. -/
def domainOff (n : Nat) (d : Dev) : Dev :=
  if !d.domOn n then d
  else
    let d := forUpTo 24 (fun l d => if regDomain ⟨.lane, l, 0⟩ = n then laneEnable l false d else d) d
    let d := if n < 4 || 7 < n then d else { d with isles := d.isles.filter fun e => 4 + e.1 / 64 != n }
    let d := { d with lanes := d.lanes.filter fun e => regDomain ⟨.lane, e.1, 0⟩ != n }
    let d := if n = 8 || n = 9 then { d with rings := d.rings.filter fun e => (if e.1 < 8 then 8 else 9) != n } else d
    let d := if n = 10 then { d with fab := {} } else d
    (d.clearRegs fun l => regDomain l = n).lower (domStat n)

/-- 20 R584, R585: PWR_DOM_REQ. Removals act at once, domains to be powered take their turns. -/
def domainRequest (v : Word) (d : Dev) : Word × Dev :=
  let want := fget v 0 12 / 16 * 16
  if !domainsOk want d then (refusedCode, d.raise (pwrStat 16))
  else
    let d := d.wr (primAddr .pwr 0 8) (BitVec.ofNat 32 want)
    let d := forUpTo 8 (fun i d => if want.testBit (4 + i) then d else cfcRenew (domainOff (4 + i) d)) d
    (0, { d with pow := { d.pow with rising := ((List.range 8).map (· + 4)).filter fun n => want.testBit n && !d.domOn n } })

/-! ### Housekeeping and temperature (20 R588 to R592) -/

/-- 17 Table DIC-12: the error register 0x1001. -/
def errorRegister (d : Dev) : Nat :=
  let a := d.flag ⟨safReg 0, 6, 1⟩
  let b := d.flag ⟨safReg 0, 7, 1⟩
  let comm := d.flag ⟨0x46000004, 1, 1⟩ || d.flag ⟨0x46000004, 7, 1⟩
  let safe := d.strings.any fun e => e.2.sstate = 3
  b2n (a || b || comm || safe || warning d) + 4 * b2n a + 8 * b2n b + 16 * b2n comm + 128 * b2n safe
/-- The node-ID in force (17 R518). -/
def canNode (d : Dev) : Nat := fget d.host.netCan 0 7
/-- 17 Table DIC-10: the COB-ID of the EMCY; 0x80 and the node-ID where 0x1014 was not written. -/
def emcyId (d : Dev) : Nat := d.host.emcyCob.getD (0x80 + canNode d)
/-- 17 Table DIC-10: an EMCY with code 0xFF00, the error register, and in the vendor bytes SAF_A_FAULT, SAF_B_FAULT and the last fault-queue
cause; the spec gives the vendor bytes no order. -/
def emcy (d : Dev) : Dev :=
  let cause := d.strings.foldl (fun m e => if e.2.lastCause != 0 then e.2.lastCause else m) 0
  let on := d.flag ⟨0x46000000, 1, 1⟩ && !d.flag ⟨0x46000004, 1, 1⟩ && (d.host.nmt = 1 || d.host.nmt = 2)
  if on then d.emit (.can (emcyId d) (leBytes 2 0xFF00 ++ leBytes 1 (errorRegister d) ++ leBytes 1 (d.rd (safReg 0xC)).toNat ++
    leBytes 1 (d.rd (safReg 0x10)).toNat ++ leBytes 3 cause)) else d

/-- 20 R590: the warning is set or cleared by what the rounds counted. -/
def warnSet (d : Dev) : Dev :=
  if !warning d && (2 ≤ d.pow.hot || d.pow.few || d.flag (thmStat 6)) then
    let d := ((d.raise (thmStat 0)).raise (thmStat 1)).count (thmCnt 0)
    showRed 0 (emcy d)
  else d
def warnClear (d : Dev) : Dev :=
  if warning d && 10 ≤ d.pow.cool && !d.pow.few && !d.flag (thmStat 6) then showRed 0 (d.lower (thmStat 0)) else d
/-- 20 R590. -/
def execThermalWarning (s : State) : Host.Outcome State Fault Refusal := runCore s warnSet
/-- 20 R590. -/
def execThermalWarningClear (s : State) : Host.Outcome State Fault Refusal := runCore s warnClear

/-- Insert into a rising list. -/
def insertInt (x : Int) : List Int → List Int
  | [] => [x]
  | y :: t => if x ≤ y then x :: y :: t else y :: insertInt x t

/-- Windows of Table MPT-4 in mV, in its order. -/
def railWindow : List (Nat × Nat) :=
  [(760, 840), (760, 840), (810, 890), (1140, 1260), (1710, 1890), (3135, 3465), (1710, 1890), (1710, 1890)]

/-- 20 R589: a TS reading is valid: -60 to +180 °C, within 25 °C of the median (the mean of the two middle readings); quarter °C. -/
def sensorOk (ts : List Int) (x : Int) : Bool :=
  let l := ts.foldr insertInt []
  let m2 := l.getD 3 0 + l.getD 4 0
  decide (-240 ≤ x) && decide (x ≤ 720) && decide ((2 * x - m2).natAbs ≤ 200)

/-- 20 R589: sensor `i` of the comparator against the valid TS reading nearest to it; the spec does not place the sensors. -/
def cmpCheck (i : Nat) (x : Int) (good : List Int) (d : Dev) : Dev :=
  let w := d.draw (max 1 good.length)
  let d := w.2
  let far := !good.isEmpty && decide (40 < (x - good.getD w.1 0).natAbs)
  let runs := if far then d.pow.cmpRuns.getD i 0 + 1 else 0
  let d := { d with pow := { d.pow with cmpRuns := d.pow.cmpRuns.set i (min runs 4) } }
  if 4 ≤ runs then d.raise (thmStat 6) else d

/-- 20 R588, R589: a round's 32 readings: quarter °C for channels 0 to 7 and 31, mV for 8 to 28. -/
def housekeeping (v : List Int) (vpp : Bool) (d : Dev) : Dev :=
  let ts := (List.range 8).map fun i => v.getD i 0
  let good := ts.filter (sensorOk ts)
  let d := forUpTo 8 (fun i d =>
    let x := ts.getD i 0
    d.wr (primAddr .thm 0 (8 + 4 * i)) (BitVec.ofNat 32 (unsigned 12 x + 0x8000 * b2n (sensorOk ts x)))) d
  let bad := 8 - good.length
  let d := if bad = 0 then d else (d.raise (thmStat 5)).count (thmCnt 2) bad
  let tj := good.foldl max (good.getD 0 (d.sf (thmF 0x28 0 12)))
  let top := if d.pow.round = 0 then tj else max tj (d.sf (thmF 0x28 16 12))
  let d := (d.setF (thmF 0x28 0 12) (unsigned 12 tj)).setF (thmF 0x28 16 12) (unsigned 12 top)
  let d := forUpTo 8 (fun r d =>
    let x := (v.getD (8 + r) 0).toNat
    let w := railWindow.getD r (0, 0)
    d.wr (primAddr .pwr 0 (0x20 + 4 * r)) (BitVec.ofNat 32 (x % 65536 + 65536 * b2n (decide (w.1 ≤ x) && decide (x ≤ w.2))))) d
  let odd := d.pow.round % 2
  let d := d.setF (thmF 0x2C (16 * odd) 12) (unsigned 12 (v.getD 31 0))
  let d := cmpCheck odd (v.getD 31 0) good d
  let d := d.setF (thmStat 2) (b2n (tjInWindow d && vppInWindow d))
  let d := d.setF (pwrStat 17) (b2n (vpp && d.saf.burn.isNone))
  let warn : Int := 4 * d.f (thmF 0 0 8)
  let d := { d with pow := { d.pow with
    round := d.pow.round + 1, few := good.length < 5
    hot := if decide (warn ≤ tj) then min 2 (d.pow.hot + 1) else 0
    cool := if decide (tj < warn - 20) then min 10 (d.pow.cool + 1) else 0 } }
  warnClear (warnSet d)

/-- 20 R582: the result of a burn that the fuse window ends, after the round's readings are in. -/
def windowResult (d : Dev) : Word := if tjInWindow d then 0x0A500004 else 0x0A500003
/-- 20 R582, R588: a housekeeping round; a burn outside the fuse window stops after the bit in progress. -/
def execHousekeepingRound (v : List Int) (vpp : Bool) (s : State) : Host.Outcome State Fault Refusal :=
  let out (d : Dev) : Bool := d.saf.burn.isSome && !(tjInWindow (housekeeping v vpp d) && vppInWindow (housekeeping v vpp d))
  runCore s fun d =>
    let stop := out d
    let e := housekeeping v vpp d
    if stop then burnEnd (windowResult e) e else e

/-- 09 R275, 08 R252, 20 R591: four broadcast HALTs with BYPASS on a ring, ahead of the HALTs that wait. They set no halt bit; their echoes are
awaited. -/
def broadcastHalt (r : Nat) (d : Dev) : Dev :=
  let d := (d.count ⟨nrwReg r 0x28, 16, 16⟩ 4).modRing r fun u => { u with echoes := u.echoes ++ [255, 255, 255, 255] }
  giveOrdered r 0 true (List.replicate 4 (haltBlk 255 true d.tide.k)) ((((d.emit (.haltAll r)).emit (.haltAll r)).emit (.haltAll r)).emit (.haltAll r))

/-- 20 R591: the trip, once a sensor of the comparator has read 140 °C or more for `elapsed` µs: 10 µs. -/
def execThermalShutdown (elapsed : Nat) (s : State) : Host.Outcome State Fault Refusal := run s fun d =>
  let d := whenDo (10 ≤ elapsed) (fun d => d.count (pwrCnt 1)) d
  if elapsed < 10 || d.mode = 0 || d.pow.trip then d
  else
    let d := { d with pow := { d.pow with trip := true }, saf := { d.saf with hot := true }, red := { d.red with aliveOut := false } }
    let d := forUpTo 16 (fun r d => if d.flag (nrwEn r) then broadcastHalt r d else d) d
    safetyUpdate (forUpTo 4 portGatesOff d)
/-- 20 R591: 2 µs after the trip. -/
def execThermalLaneStop (s : State) : Host.Outcome State Fault Refusal := run s fun d =>
  if !d.pow.trip || d.pow.lanesOff then d
  else forUpTo 24 (fun n d => setTx n 0 d) { d with pow := { d.pow with lanesOff := true } }
/-- 20 R591: 5 µs after the trip; a burn in progress stops. The mode left stays shown until BOOT. -/
def execThermalDomainRemove (s : State) : Host.Outcome State Fault Refusal :=
  run s fun d => if d.pow.trip then powerOnly 3 d else d
/-- 20 R592, R595: both sensors below 120 °C for `elapsed` ms. A device that a main clock fault holds stays in reset (01 R19). -/
def execThermalRelease (elapsed : Nat) (s : State) : Host.Outcome State Fault Refusal := run s fun d =>
  if !d.pow.trip || elapsed < 1000 then d
  else if d.pow.held then { d with pow := { d.pow with trip := false, lanesOff := false } }
  else if d.mode = 0 then tryBoot { d with pow := { d.pow with trip := false, lanesOff := false, cause := 5 } }
  else enterBoot 5 { d with pow := { d.pow with trip := false, lanesOff := false } }

/-! ### The battery gate (20 R593) -/

/-- Breakpoint `j`. -/
def batPoint (j : Nat) (d : Dev) : Int := d.sf (thmF (0x34 + 4 * (j / 2)) (16 * (j % 2)) 16)
def batPoints (d : Dev) : List Int := (List.range 9).map fun j => batPoint j d
def strictUp : List Int → Bool
  | a :: b :: t => decide (a < b) && strictUp (b :: t)
  | _ => true
def curveOk (l : List Int) : Bool := strictUp l || strictUp (l.map fun x => -x)

/-- 20 R593: the temperature in 0.1 °C, by interpolation; none beyond the curve. A half is rounded up (DESIGN CHOICE: R593 gives the step
alone). -/
def batTemp (x : Int) (d : Dev) : Option Int :=
  let l := batPoints d
  if !curveOk l then none
  else
    let sgn : Int := if decide (l.getD 0 0 < l.getD 8 0) then 1 else -1
    let y := sgn * x
    match (List.range 8).find? fun j => decide (sgn * l.getD j 0 ≤ y) && decide (y ≤ sgn * l.getD (j + 1) 0) with
    | none => none
    | some j =>
      let a := sgn * l.getD j 0
      let w := sgn * l.getD (j + 1) 0 - a
      some (-200 + 100 * (j : Int) + (200 * (y - a) + w) / (2 * w))

/-- 20 R593: the gate at a tick edge, from the slot's published value. Only a temperature outside its limits closes it on temperature; a value
beyond the curve does not (DEDUCED). -/
def batteryGate (d : Dev) : Dev :=
  let s := d.f (thmF 0x30 0 5)
  let off := d.flag (adcInvalid s) || d.flag (adcStaleBit s)
  let t := batTemp (d.sf (adcVal s)) d
  let lo : Int := 10 * signed 8 (d.f (thmF 0x30 8 8))
  let hi : Int := 10 * signed 8 (d.f (thmF 0x30 16 8))
  let inside := match t with
    | some x => if d.pow.gateTemp then decide (lo + 20 ≤ x) && decide (x ≤ hi - 20) else decide (lo ≤ x) && decide (x ≤ hi)
    | none => false
  let open_ := inside && !off && d.flag (thmF 0x30 5 1)
  let was := d.flag (thmStat 3)
  let d := { d with pow := { d.pow with gateTemp := match t with | some _ => !inside | none => d.pow.gateTemp } }
  let d := d.setF (thmStat 3) (b2n !open_)
  let d := if !open_ && !was then d.count (thmCnt 1) else d
  let tv : Nat := match t with | some x => unsigned 16 x + 2 ^ 17 | none => 0
  d.wr (primAddr .thm 0 0x48) (BitVec.ofNat 32 (tv + 2 ^ 16 * b2n open_))

/-- 20 R590, R593, R597: a write to a THM register. Through the registers the curve is written word by word: a word is stored, and sets CURVE_ERR
where it leaves a curve that is not strictly monotonic, with which the gate stays closed (DESIGN CHOICE: R593 refuses a curve, and a word is
none). -/
def thmWrite (off : Nat) (v : Word) (d : Dev) : Word × Dev :=
  let a := primAddr .thm 0 off
  if off = 0 then if within 60 (fget v 0 8) 135 then (0, d.store a v) else (0x06090030, d)
  else if off = 0x30 then
    let lo := signed 8 (fget v 8 8)
    let hi := signed 8 (fget v 16 8)
    if decide (-10 ≤ lo) && decide (hi ≤ 55) && decide (lo + 5 ≤ hi) then (0, d.store a v) else (0x06090030, d)
  else if 0x34 ≤ off && off ≤ 0x44 then
    let d := d.store a v
    (0, whenDo (!curveOk (batPoints d)) (fun d => d.raise (thmStat 4)) d)
  else (0, d.store a v)

/-- 20 R593: the curve is written whole through its object; one that is not strictly monotonic is refused. -/
def curveWrite (l : List Byte) (d : Dev) : Word × Dev :=
  if !curveOk ((List.range 9).map fun j => signed 16 (leAt l (2 * j) 2)) then (0x06090030, d.raise (thmStat 4))
  else (0, forUpTo 5 (fun j d => d.wr (primAddr .thm 0 (0x34 + 4 * j)) (BitVec.ofNat 32 (leAt l (4 * j) 4))) d)

/-- 20 R596: a write to a PWR register. -/
def pwrWrite (off : Nat) (v : Word) (d : Dev) : Word × Dev :=
  let a := primAddr .pwr 0 off
  if off = 0 then
    let d := d.store a v
    if v.getLsbD 1 then dormantReq d else (0, d)
  else if off = 8 then domainRequest v d
  else (0, d.store a v)

/-- 20 R583: a Harbour key. -/
def keyWrite (k : List Byte) (d : Dev) : Word × Dev :=
  if d.mode != 2 || k.length != 32 then (refusedCode, d) else (0, { d with saf := { d.saf with key := some k } })
/-- 20 R583. -/
def execHarbourKeyWrite (k : List Byte) (s : State) : Host.Outcome State Fault Refusal := runCore s fun d => (keyWrite k d).2

/-! ### Clocks (01 R18 to R21) -/

/-- 01 R18, Table ARC-6: a monitor declares a main clock fault: what it measures has been outside its window for `elapsed` ns. ICLK and PCLK
run at 400 MHz, SVCLK at 800 MHz (Table ARC-5). -/
def mainFault (m : ClockMon) (elapsed : Nat) : Bool :=
  match m with
  | .ref hz => !within 20000000 hz 30000000 && 10000 ≤ elapsed
  | .pll locked => !locked && 2000 ≤ elapsed
  | .core clk hz =>
    let nom := if clk = 2 then 800000000 else 400000000
    !within (nom - nom / 100) hz (nom + nom / 100) && 10000 ≤ elapsed

/-- 01 R18, Table ARC-6: the cross-check of SCCLK (400 MHz) and SKOSC (16 MHz), each against the other within 10 %, for 20 µs. -/
def crossFault (scc sk elapsed : Nat) : Bool :=
  let far (x ref : Nat) : Bool := 10 * x < 9 * ref || 11 * ref < 10 * x
  (far scc (25 * sk) || far (25 * sk) scc) && 20000 ≤ elapsed

/-- 01 R19: the device forces its outputs off and holds itself in reset. The mode left stays shown until BOOT. -/
def execMainClockFault (m : ClockMon) (elapsed : Nat) (s : State) : Host.Outcome State Fault Refusal :=
  let acts (d : Dev) : Bool := d.mode != 0 && !d.pow.held && mainFault m elapsed
  run s fun d =>
    if acts d then
      let d := powerOnly (d.rd (primAddr .pwr 0 0xC)).toNat d
      safetyUpdate { d with pow := { d.pow with held := true } }
    else d
/-- 01 R19: REF_CLK in its window and the PLL locked for `elapsed` µs. While a thermal trip stands its own release leads to BOOT (20 R592). -/
def execMainClockRelease (elapsed : Nat) (s : State) : Host.Outcome State Fault Refusal := run s fun d =>
  if !d.pow.held || elapsed < 1000 then d
  else if d.pow.trip then { d with pow := { d.pow with held := false } }
  else enterBoot 4 d
/-- 01 R20. -/
def execClassAClockFault (scc sk elapsed : Nat) (s : State) : Host.Outcome State Fault Refusal :=
  runCore s fun d => if crossFault scc sk elapsed then classA 0 d else d
/-- 01 R21: NREF_0, NREF_1 or SREF. -/
def execReferenceLossOfLock (ref : Fin 3) (s : State) : Host.Outcome State Fault Refusal := runCore s fun d =>
  forUpTo 8 (fun i d => laneSilent (8 * ref.val + i) d) (forUpTo 8 (fun i d => if d.laneOn (8 * ref.val + i) then laneLol (8 * ref.val + i) d else d) d)

/-! ### Protected memories (01 R28 to R34) -/

def eccF (off lo w : Nat) : Fld := ⟨primAddr .sys 0 off, lo, w⟩

/-- 01 R32, 19 R566: the supervisor cluster restarts. -/
def supervisorRestart (d : Dev) : Dev := setHold { d with pow := { d.pow with restart := true } }

/-- 01 Table ARC-9: the reaction to an uncorrectable error. -/
def ueReaction (mem bank word : Nat) (use : ShoalUse) (at_ : Nat) (d : Dev) : Dev :=
  match mem with
  | 0 => isleUe bank at_ (hurtBank bank word d)
  | 1 =>
    match use with
    | .free => d
    | .sample n => d.modIsle n fun u =>
        if d.tide.k % 2 = 0 then { u with slot0 := { u.slot0 with valid := false } } else { u with slot1 := { u.slot1 with valid := false } }
    | .edges r => d.modRing r fun u => { u with egress := u.egress.drop 1 }
    | .ferry i =>
      match d.fab.queue[i]? with
      | none => d
      | some q =>
        let d := { d with fab := { d.fab with queue := d.fab.queue.eraseIdx i } }
        showQueues (admitLocal (d.count (match q.ferry.cls with | 0 => stpF 0x228 16 8 | 1 => stpF 0x224 24 8 | 2 => stpF 0x224 16 8 | _ => stpF 0x224 0 16)))
    | .capture j => if d.f (capState j) = 0 then d else d.setF (capState j) 4
  | 2 => supervisorRestart d
  | 3 => classA 1 d
  | _ =>
    let e := d.jslot (word / 4)
    if e.seq = 0 then d
    else ((d.setJslot (word / 4) { e with damaged := true }).raise (jrnStat 3)).count ⟨0x4500002C, 0, 8⟩

/-- 01 R32 to R34: a word read with an uncorrectable error. -/
def uncorrectable (mem bank word : Nat) (use : ShoalUse) (at_ : Nat) (d : Dev) : Dev :=
  let d := ((d.raise (eccF 0x140 (8 + mem) 1)).setF (eccF 0x140 16 3) mem).count (eccF (0x150 + 4 * mem) 24 8)
  let d := d.wr (primAddr .sys 0 0x148) (BitVec.ofNat 32 (bank % 256 * 2 ^ 24 + word % 2 ^ 15))
  ueReaction mem bank word use at_ d

/-- 01 Table ARC-8: banks of a memory, and words of one. -/
def bankCount (mem : Nat) : Nat := match mem with | 0 => 256 | 1 => 32 | 2 => 4 | _ => 1
def bankWords (mem : Nat) : Nat := match mem with | 0 => 1024 | 2 => 32768 | _ => 16384

/-- 01 R29, Table ARC-7: does the domain that holds a memory, and PD_2 with its scrubber, have power? -/
def memOn (mem bank : Nat) (d : Dev) : Bool := d.domOn 2 && (mem != 0 || d.domOn (4 + bank / 64))

/-- 01 R28: the word that the scrubber of a bank reads at its next slot. -/
def scrubAt (mem bank : Nat) (d : Dev) : Nat := tget (fun _ => 0) d.bus.scrub (256 * mem + bank)
/-- 01 R28: the scrubber goes on to the next word, after the last to the first. -/
def scrubOn (mem bank : Nat) (d : Dev) : Dev :=
  { d with bus := { d.bus with scrub := tput (fun _ => 0) d.bus.scrub (256 * mem + bank) ((scrubAt mem bank d + 1) % bankWords mem) } }
/-- 01 R30: a corrected word waits no longer to be written back. -/
def dropBack (mem bank word : Nat) (d : Dev) : Dev :=
  { d with bus := { d.bus with writeBack := d.bus.writeBack.erase (mem, bank, word) } }

/-- 01 R30, R33: `n` words with one bit, or two, are corrected. -/
def correctedCount (mem n : Nat) (two : Bool) (d : Dev) : Dev :=
  if n = 0 then d
  else (d.raise (eccF 0x140 mem 1)).count (if two then eccF (0x150 + 4 * mem) 16 8 else eccF (0x150 + 4 * mem) 0 16) n

/-- 01 R30, R32 to R34: a word is read: `bits` 0 without error, 1 or 2 corrected, 3 uncorrectable. -/
def wordRead (mem bank word bits : Nat) (use : ShoalUse) (at_ : Nat) (d : Dev) : Dev :=
  match bits with
  | 0 => d
  | 3 => uncorrectable mem bank word use at_ d
  | n =>
    let d := correctedCount mem 1 (n = 2) d
    { d with bus := { d.bus with writeBack := d.bus.writeBack ++ [(mem, bank, word)] } }

/-- 01 R28, R30, R31: a cycle of a bank. The scrubber has priority, but for a functional access to the very word it would read: that is
served, and the scrubber reads the word at its next slot. A functional write cancels the write-back of its word. -/
def bankCycle (mem bank : Nat) (c : BankCycle) (bits : Nat) (use : ShoalUse) (at_ : Nat) (d : Dev) : Dev :=
  let served (w : Nat) (write : Bool) (d : Dev) : Dev := if write then dropBack mem bank w d else wordRead mem bank w bits use at_ d
  let slot : Dev := wordRead mem bank (scrubAt mem bank d) bits use at_ (scrubOn mem bank d)
  match c with
  | .scrub => slot
  | .both w write => if w = scrubAt mem bank d then served w write d else slot
  | .access w write => served w write d
/-- 01 R28. -/
def execScrubAccess (mem : Fin 5) (bank : Nat) (c : BankCycle) (bits : Fin 4) (use : ShoalUse) (at_ : Nat) (s : State) :
    Host.Outcome State Fault Refusal :=
  runCore s fun d => if bank < bankCount mem.val && memOn mem.val bank d then bankCycle mem.val bank c bits.val use at_ d else d
/-- 01 R30: a corrected word is written back. -/
def execEccWriteBack (mem : Fin 5) (bank word : Nat) (s : State) : Host.Outcome State Fault Refusal :=
  runCore s (dropBack mem.val bank word)

/-- 13 R393: the supervisor watchdog. -/
def execSupervisorWatchdog (s : State) : Host.Outcome State Fault Refusal := runCore s fun d =>
  if d.mode < 2 then d else supervisorRestart d

/-- 18 R529: every PENDING entry becomes CUT. -/
def cutPending (d : Dev) : Dev :=
  forEach (d.jrn.slots.map (·.1)) (fun i d =>
    let e := d.jslot i
    if e.seq != 0 && e.st = 0 && (e.kind = 1 || e.kind = 2) then (d.setJslot i { e with st := 2 }).raise (jrnStat 5) else d) d

/-- 01 R32, 21 R606: the restart completes; the journal's steps are performed. -/
def execSupervisorRestartDone (s : State) : Host.Outcome State Fault Refusal := runCore s fun d =>
  if !d.pow.restart then d
  else
    let d := { d with pow := { d.pow with restart := false } }
    let d := jEvent 0xB [] 0x2000 (cutPending d)
    let d := match d.plan.due with | some x => maskEntry x.1 x.2 d | none => d
    sendMirror (releaseHold d)

/-- 19 R547: an instruction reaches the TAP: 0 BYPASS, 1 register access, 2 EXTEST, 3 CLAMP, 4 other boundary scan. -/
def execJtagInstructionLoad (ins : Fin 5) (s : State) : Host.Outcome State Fault Refusal := run s fun d =>
  let lock := (leAt d.saf.spb 3 1).testBit 0
  let pins := d.mode = 2 && stringsOff d && portsOff d
  let t : Nat := match ins.val with | 1 => if lock then 0 else 1 | 2 => if pins then 2 else 0 | 3 => if pins then 3 else 0 | x => x
  { d with bus := { d.bus with tap := t } }

end Sys2Proof.Machine
end

