-- ==== Sys2Proof/Machine/Journal.lean ====
section
/-! DEFINITION. The journal beyond its entries' making (18): entry bytes, reading, the flush area, the journal at BOOT, mirrored entries,
registers. -/
namespace Sys2Proof.Machine

/-- R530, Table JRN-1: the 64 bytes of an entry. -/
def entryBytes (e : JEntry) : List Byte :=
  let body := if e.kind = 4 then e.mask
    else leBytes 2 e.fabEpoch ++ leBytes 1 e.chan ++ leBytes 1 (b2n e.valueRef + 2 * b2n e.txMember + 4 * b2n e.mirrored) ++ leBytes 4 e.source ++
      leBytes 4 e.txId ++ leBytes 2 e.index ++ leBytes 1 e.sub ++ leBytes 1 e.typ ++ e.value
  leBytes 6 e.seq ++ leBytes 2 e.epoch ++ leBytes 8 e.time ++ (body ++ List.replicate 32 0).take 32 ++
    leBytes 4 e.result.toNat ++ leBytes 1 e.st ++ leBytes 2 e.maskRef ++ leBytes 1 e.kind ++ leBytes 6 e.origSeq ++ leBytes 2 e.origEpoch

/-- The copy of sequence `s` that governs in the flush area: the one at the highest position (R535). -/
def flashCopy (s epoch : Nat) (d : Dev) : Option JEntry :=
  (d.jrn.flash.foldl (fun m e => if e.2.seq = s && e.2.epoch = epoch then some e.2 else m) none)

/-- R531, R536, Table JRN-4: the entry of sequence `s`, or the code of why there is none. -/
def jRead (s : Nat) (d : Dev) : Word × Option JEntry :=
  let e := d.jslot s
  if e.seq = s && s != 0 then (if e.damaged then (0x0A580001, none) else (0, some e))
  else if d.jrn.seq < s then (if d.jrn.flash.any fun x => x.2.seq = s then (0x0A580004, none) else (0x0A580003, none))
  else match flashCopy s d.jrn.epoch d with
    | some e => (0, some e)
    | none => (0x0A580002, none)

/-- The oldest sequence in SRAM. -/
def jOldest (d : Dev) : Nat := if d.jrn.seq = 0 then 0 else max 1 (d.jrn.seq - 4095)

/-- R541: up to `n` consecutive entries from `s`. -/
def jBlock : Nat → Nat → Dev → List Byte
  | 0, _, _ => []
  | n + 1, s, d => match (jRead s d).2 with | some e => entryBytes e ++ jBlock n (s + 1) d | none => []

/-- R541: the record of a transaction: its TX entry, and the MASK entry it refers to. -/
def jTxRecord (t : Nat) (d : Dev) : Word × List Byte :=
  match d.jrn.slots.find? fun x => x.2.kind = 2 && x.2.txId = t && !x.2.damaged with
  | none => (0x0A580002, [])
  | some x =>
    let e := x.2
    let mask := if e.maskRef = 0 || 0xFFFE ≤ e.maskRef then []
      else if e.mirrored then (match d.jrn.slots.find? fun y => y.2.mirrored && y.2.kind = 4 && y.2.origSeq = e.origSeq + e.maskRef && y.2.origEpoch = e.origEpoch with
        | some y => entryBytes y.2 | none => [])
      else match (jRead (e.seq + e.maskRef) d).2 with | some m => entryBytes m | none => []
    (0, entryBytes e ++ mask)

/-! ### Flushing (R535, R536) -/

def flushEn : Fld := ⟨0x45000000, 0, 1⟩
/-- Entries the flush area holds. -/
def flashRoom (d : Dev) : Nat := 1024 * d.f ⟨0x45000020, 0, 11⟩

/-- The last sequence that is copied or lost. -/
def flushFrom (d : Dev) : Nat := max d.jrn.flushed (jOldest d - 1)

/-- The next page: up to 4 entries not yet copied, else up to 4 rewritten ones. The entries of a page are consecutive, since BOOT takes no other
(DEDUCED). -/
def nextPage (d : Dev) : List Nat :=
  let fresh := ((List.range 4).map fun i => flushFrom d + 1 + i).filter fun s => s ≤ d.jrn.seq
  match fresh, d.jrn.again with
  | [], s :: _ => ((List.range 4).map fun i => s + i).takeWhile fun s => d.jrn.again.contains s
  | _, _ => fresh
/-- Does anything wait to be copied? -/
def unflushed (d : Dev) : Nat := d.jrn.seq - flushFrom d + d.jrn.again.length

/-- A flush goes on with its next page, or ends. -/
def flushNext (d : Dev) : Dev :=
  let p := nextPage d
  if p.isEmpty then { d.setF (jrnStat 0) 0 with jrn := { d.jrn with flushing := false, page := [] } }
  else { d.setF (jrnStat 0) 1 with jrn := { d.jrn with flushing := true, page := p } }
/-- A flush starts. -/
def flushStart (d : Dev) : Dev := if !d.flag flushEn || d.jrn.flushing || unflushed d = 0 then d else flushNext d

/-- R535: the flush period has passed (`elapsed` ms), or 64 entries wait. -/
def execFlushTimer (elapsed : Nat) (s : State) : Host.Outcome State Fault Refusal := runCore s fun d =>
  if 10 * d.f ⟨0x45000000, 16, 16⟩ ≤ elapsed || 64 ≤ unflushed d then flushStart d else d
/-- R535. -/
def execFlushNow (s : State) : Host.Outcome State Fault Refusal := runCore s flushStart

/-- The write position: a block is erased as the position enters it. -/
def flashEnter (d : Dev) : Dev :=
  let pos := if flashRoom d ≤ d.jrn.flashPos then 0 else d.jrn.flashPos
  let flash := if pos % 1024 = 0 then d.jrn.flash.filter fun x => !(pos ≤ x.1 && x.1 < pos + 1024) else d.jrn.flash
  { d with jrn := { d.jrn with flashPos := pos, flash := flash } }

/-- R535: a page is programmed and read back; one that fails is written again at the next page. -/
def execFlushPageDone (ok : Bool) (s : State) : Host.Outcome State Fault Refusal := runCore s fun d =>
  if !d.jrn.flushing then d
  else
    let d := flashEnter d
    let pos := d.jrn.flashPos
    if !ok then (({ d with jrn := { d.jrn with flashPos := pos + 4 } }).raise (jrnStat 1)).count ⟨0x4500002C, 8, 8⟩
    else
      let put (i s : Nat) (j : JrnU) : JrnU :=
        let e := d.jslot s
        if e.seq = s then { j with flash := tput (fun _ => {}) j.flash (pos + i) e } else j
      let j := forUpTo d.jrn.page.length (fun i j => put i (d.jrn.page.getD i 0) j) d.jrn
      let top := d.jrn.page.foldl max d.jrn.flushed
      flushNext { d with jrn := { j with flashPos := pos + 4, flushed := top, again := d.jrn.again.filter fun s => !d.jrn.page.contains s } }

/-! ### The journal at BOOT (R529, R532, R533) -/

/-- The generation that an entry records as assigned (Table JRN-2). -/
def entryGen (e : JEntry) : Nat := if e.kind = 1 && e.index = 0x2000 && e.sub = 0x10 && e.valueRef then leAt e.value 8 4 else 0

/-- R529, R532: the journal continues. -/
def jrnContinue (d : Dev) : Dev :=
  let d := cutPending d
  let d := forEach (d.jrn.slots.map (·.1)) (fun i d =>
    let e := d.jslot i
    if e.kind = 2 && e.maskRef = 0xFFFF then d.setJslot i { e with maskRef := 0xFFFE } else d) d
  let es := d.jrn.slots.map (·.2)
  { d with jrn := { d.jrn with nextTx := (es.foldl (fun m e => max m (if e.mirrored then 0 else e.txId)) 0) + 1 }
           plan := { d.plan with gLast := (d.jrn.slots ++ d.jrn.flash).foldl (fun m e => max m (entryGen e.2)) 0 } }

/-- R535: the flash entries that BOOT takes: a kind and a state of Table JRN-1, and sequences consecutive with the page's neighbours. -/
def flashTaken (d : Dev) : Dev :=
  let fl := d.jrn.flash
  let fits (p q : Nat) (s : Nat) : Bool := fl.all fun y => y.1 != q || p / 4 != q / 4 || y.2.seq + p = s + q
  let ok (x : Nat × JEntry) : Bool :=
    1 ≤ x.2.kind && x.2.kind ≤ 4 && x.2.st ≤ 2 && fits x.1 (x.1 + 1) x.2.seq && (x.1 = 0 || fits x.1 (x.1 - 1) x.2.seq)
  { d with jrn := { d.jrn with flash := fl.filter ok } }

/-- R533: the journal is reinitialised; the epoch from the flush area, or from the random source. The epoch after 65,535 is 1 (DESIGN
CHOICE: R533 draws none that is 0). -/
def jrnReinit (d : Dev) : Dev :=
  let fl := d.jrn.flash.map (·.2)
  let top := fl.foldl (fun m e => max m e.epoch) 0
  let r := d.draw 65535
  let d := r.2
  let epoch := if fl.isEmpty then r.1 + 1 else top % 65535 + 1
  let d := { d with jrn := { d.jrn with slots := [], seq := 0, epoch := epoch, latch := true, nextTx := 1, flushed := 0, again := [] }
                    plan := { d.plan with gLast := fl.foldl (fun m e => max m (entryGen e)) 0 } }
  jEvent 0xA (leBytes 2 (if fl.isEmpty then 0xFFFF else top)) 0x5800 (d.raise (jrnStat 4))
def jrnBoot (d : Dev) : Dev := let d := flashTaken d; if d.jrn.latch then jrnContinue d else jrnReinit d

/-! ### Mirrored entries (R537, 12 R369) -/

/-- R537: the standby's own copy of a mirrored entry, or the rewrite of that copy; a gap holds TAKE_READY off until it is filled. Answers
whether the entry was taken as new, in order. -/
def mirEntry (e : JEntry) (d : Dev) : Dev × Bool :=
  let next := match d.red.mirNext with | some (n, ep) => if ep = e.epoch then n else e.seq | none => e.seq
  let top := max d.red.mirTop e.seq
  if e.seq = next then
    let d := jAppendV { e with mirrored := true, origSeq := e.seq, origEpoch := e.epoch } e.value d
    let d := d.setJslot d.jrn.seq { (d.jslot d.jrn.seq) with fabEpoch := e.fabEpoch }
    ({ d with red := { d.red with mirNext := some (next + 1, e.epoch), mirTop := top, gap := next < top } }, true)
  else if e.seq < next then
    let held := d.jrn.slots.find? fun x => x.2.mirrored && x.2.origSeq = e.seq && x.2.origEpoch = e.epoch
    match held with
    | none => (d, false)
    | some x => (jRewrite x.2.seq (fun y => { y with result := e.result, st := e.st, maskRef := e.maskRef }) d, false)
  else ({ d with red := { d.red with gap := true, mirTop := top } }, false)

/-! ### Registers (R543) -/

/-- R543: a write to a JRN register. -/
def jrnWrite (off : Nat) (v : Word) (d : Dev) : Word × Dev :=
  let a := primAddr .jrn 0 off
  let rej : Word × Dev := (refusedCode, d.raise (jrnStat 6))
  if off = 0 then
    if !within 1 (fget v 16 16) 6000 || (v.getLsbD 0 && d.f ⟨0x45000020, 0, 11⟩ = 0) then
      let keep := fset (fset v 16 16 (if within 1 (fget v 16 16) 6000 then fget v 16 16 else d.f ⟨0x45000000, 16, 16⟩)) 0 1
        (if v.getLsbD 0 && d.f ⟨0x45000020, 0, 11⟩ = 0 then d.f flushEn else fget v 0 1)
      (refusedCode, (d.store a keep).raise (jrnStat 6))
    else
      let d := d.store a v
      (0, if v.getLsbD 1 then flushStart d else d)
  else if off = 0x1C then if d.flag flushEn then rej else (0, d.store a v)
  else if off = 0x20 then
    if d.flag flushEn || fget v 0 11 = 1 || 1024 < fget v 0 11 then rej else (0, d.store a v)
  else (0, d.store a v)

end Sys2Proof.Machine
end

