-- ==== Sys2Proof/Machine/Registers.lean ====
section
/-! DEFINITION. The register bus (19): what each register reads as, what a write does, the checks of an access, pairs, bus errors, and the
configuration check. -/
namespace Sys2Proof.Machine

/-! ### Reading -/

/-- The low and the high word of a number. -/
def lo32 (n : Nat) : Word := BitVec.ofNat 32 n
def hi32 (n : Nat) : Word := BitVec.ofNat 32 (n / 2 ^ 32)
/-- A number placed at a bit. -/
def atBit (n lo : Nat) : Word := BitVec.ofNat 32 n <<< lo

/-- 03 Tables ISL-14, ISL-16, ISL-18, 04 Table CTL-13, 05 Tables MOD-9, MOD-11: an isle's registers beyond what they store. -/
def readIsl (n off : Nat) (w : Word) (d : Dev) : Word :=
  let u := d.isle n
  let e := u.entry
  match off with
  | 4 => w ||| atBit (b2n u.ueStop) 3 ||| atBit (b2n u.stalled) 4 ||| atBit (b2n u.liveB) 5 ||| atBit (u.cause % 16) 8 |||
      atBit (min u.consec 255) 16 ||| atBit (u.istate % 16) 24
  | 8 => lo32 u.gen
  | 0xC =>
    let v := if e.role = 1 then (d.str e.string).variant else 0
    atBit (e.segPos % 128) 7 ||| atBit (e.string % 64) 14 ||| atBit (e.node % 16) 20 ||| atBit ((if e.role = 3 then e.port else e.ring) % 16) 24 |||
      atBit (e.role % 4) 28 ||| atBit (v % 4) 30
  | 0x10 => atBit ((liveBank u).cost % 65536) 0 ||| atBit (u.pendCost % 65536) 16
  | 0x20 => w ||| atBit (b2n u.lead) 7 ||| atBit (b2n (oscDetecting u)) 3
  | 0x34 => w ||| atBit (b2n (liveBank u).ef.compat) 24
  | 0x44 => w ||| atBit (u.ef.seq % 65536) 0
  | _ => w

/-- 06 Tables BAL-10, BAL-12: a string's registers. -/
def readSrts (s off : Nat) (w : Word) (d : Dev) : Word :=
  let u := d.str s
  match off with
  | 4 => w ||| atBit u.sstate 0 ||| atBit u.variant 2 ||| atBit (b2n u.respread.isSome) 4 ||| atBit (b2n u.preDone) 5 ||| atBit (nAct u % 1024) 8
  | 8 =>
    let p (i lo : Nat) : Word := match u.excl[i]? with | some x => atBit (x % 512 + 512) lo | none => 0
    p 0 0 ||| p 1 16
  | 0xC => atBit u.lastCause 0 ||| atBit (u.lastPos % 512) 8 ||| atBit (min (u.fq.length + u.fqOvf.toList.length) 31) 21
  | 0x14 | 0x18 | 0x1C | 0x20 => lo32 (unsigned 16 (u.vals.getD ((off - 0x14) / 4) 0))
  | _ => w

/-- 02 Tables TID-4, TID-6: the TIDE registers. -/
def readTide (off : Nat) (w : Word) (d : Dev) : Word :=
  match off with
  | 0xC => (w &&& 0xFFFF0FFC) ||| atBit d.tide.tstate 0 ||| atBit ((syncPort d).getD 15) 12
  | 0x10 => lo32 d.tide.k
  | 0x14 => hi32 d.tide.k
  | 0x18 => lo32 d.tide.time
  | 0x1C => hi32 d.tide.time
  | 0x20 => lo32 d.tide.epoch
  | 0x24 => lo32 d.tide.k0
  | 0x28 => hi32 d.tide.k0
  | _ => w

/-- 10 Table FTP-9: STP_RT for the address selected. -/
def readRoute (d : Dev) : Word :=
  match uidAt (d.f (stpF 0x48 0 12)) d with
  | none => 0
  | some u =>
    let hop (i lo : Nat) : Word := match (nextHops u d)[i]? with | some p => atBit (p + 4) lo | none => 0
    let dist := match d.fab.routes.find? fun r => r.1 = u with | some r => r.2.1 | none => 0
    hop 0 0 ||| hop 1 3 ||| atBit (dist % 128) 8

/-- 10 Table FTP-9, 11 Table FTR-12: registers of STP that are not stored. -/
def readStp (off : Nat) (w : Word) (d : Dev) : Word :=
  match off with
  | 0x14 => lo32 (d.fab.left % 2 ^ 17)
  | 0x20 => lo32 ownUid
  | 0x24 => hi32 ownUid
  | 0x4C => readRoute d
  | 0x20C => lo32 (poolFree d % 2 ^ 17)
  | _ => w

/-- 17 Table DIC-16. -/
def readHbr (off : Nat) (w : Word) (d : Dev) : Word :=
  if off = 4 then
    w ||| atBit (b2n !d.host.bans.isEmpty) 4 ||| atBit (b2n (d.host.subs.any fun e => 2 ≤ e.2.state)) 8 ||| atBit (min d.host.sessions.length 8) 16 |||
      atBit (min d.host.txs.length 4) 20
  else w

/-- 18 Table JRN-8. -/
def readJrn (off : Nat) (w : Word) (d : Dev) : Word :=
  match off with
  | 8 => lo32 d.jrn.seq
  | 0xC => hi32 d.jrn.seq
  | 0x10 => lo32 (jOldest d)
  | 0x14 => hi32 (jOldest d)
  | 0x18 => lo32 d.jrn.epoch
  | 0x24 => lo32 d.jrn.flushed
  | 0x28 => hi32 d.jrn.flushed
  | _ => w

/-- 20 Table MPT-13: the FUSE shadow; the words of the Harbour key read 0. -/
def readFuse (off : Nat) (w : Word) (d : Dev) : Word :=
  if off < 0x400 then
    let i := off % 0x100 / 4
    if 50 ≤ i && i ≤ 57 then 0 else lo32 (leAt (d.banks.getD (off / 0x100) []) (4 * i) 4)
  else match off with
    | 0x804 => if d.banks.isEmpty then 0 else lo32 ownUid
    | 0x808 => if d.banks.isEmpty then 0 else hi32 ownUid
    | _ => w

/-- The word of the register at a place, without any effect of the read. -/
def regRead (l : Loc) (d : Dev) : Word :=
  match regDefAt l with
  | none => 0
  | some _ =>
    let w := d.rd (primAddr l.blk l.inst l.off)
    match l.blk with
    | .isl => readIsl l.inst l.off w d
    | .islc => if l.off = 4 then w ||| atBit (d.plan.state % 4) 0 else if l.off = 8 then lo32 ((d.plan.staged.map (·.gen)).getD 0) else w
    | .srts => readSrts l.inst l.off w d
    | .tide => readTide l.off w d
    | .stp => readStp l.off w d
    | .nrw => if l.off = 0x10 then w ||| lo32 (standbyHalts l.inst d) else if 0x40 ≤ l.off && l.off < 0x60 then lo32 (leAt (d.ring l.inst).reply (32 * d.f (nrwF l.inst 0x30 28 2) + l.off - 0x40) 4) else w
    | .enc => if l.off = 4 then encStatWord l.inst d else if l.off = 0xC then lo32 (unsigned 32 (d.enc l.inst).pos) else w
    | .mpo => if 0x30 ≤ l.off && l.off < 0x3C then
        lo32 ((match (d.port l.inst).cur with | some c => (platch c ((l.off - 0x30) / 4)).u | none => 0) % 2 ^ 24) else w
    | .hbr => readHbr l.off w d
    | .jrn => readJrn l.off w d
    | .fuse => readFuse l.off w d
    | .sys => if l.off = 0 then atBit (if isHalf d then 0x7128 else 0x7256) 16 ||| atBit (Config.revision % 256) 8 else w
    | _ => w

/-- A register read at its address. -/
def readAt (a : Nat) (d : Dev) : Word := match decodeAddr a with | some l => regRead l d | none => 0

/-! ### Writing -/

/-- 03 Table ISL-15, 05 R150, 20 R594, R597: an isle's registers; `at_` counts after the edge. -/
def islWrite (n off : Nat) (v : Word) (at_ : Nat) (d : Dev) : Word × Dev :=
  match off with
  | 0 =>
    let d := d.store (islReg n 0) v
    (0, whenDo (v.getLsbD 1) (latRst n) d)
  | 0x30 => efOverride n v at_ (ovrLock d) d
  | 0x64 => if d.mode = 2 then (0, d.store (islReg n 0x64) v) else (refusedCode, d)
  | _ => (0, d.store (islReg n off) v)

/-- 03 Table ISL-17: the common registers. A weight of 0 is stored as 1 (R75). -/
def islcWrite (off : Nat) (v : Word) (d : Dev) : Word × Dev :=
  let a := islcReg off
  match off with
  | 0 =>
    let ok := within 25 (fget v 8 8) 90
    let d := d.store a (keepFld ok 8 8 (d.rd a) v)
    let d := if ok then d else d.raise ⟨islcReg 4, 3, 1⟩
    let r : Word × Dev := if v.getLsbD 0 then commitRegs d else (0, d)
    let d := whenDo (v.getLsbD 1) planAbort r.2
    (if ok then r.1 else 0x06090030, d)
  | 0x40 =>
    (0, d.store a ((List.range 5).foldl (fun w i => fset w (4 * i) 4 (max 1 (fget v (4 * i) 4))) v))
  | _ => (0, d.store a v)

/-- 11 R338: the hops between the two devices of a string that are furthest apart. -/
def stringHops (s : Nat) (d : Dev) : Nat :=
  let ls := lsasOf d
  let ids := ((d.str s).defn.devices.take (d.str s).defn.segs).filterMap fun a => if a = d.fab.addr then some ownUid else uidAt a d
  let far (u : Nat) : Nat := ((reachFrom ls u).filter fun r => ids.contains r.1).foldl (fun m r => max m r.2.1) 0
  ids.foldl (fun m u => max m (far u)) 0

/-- 06 Table BAL-11: the command register; both parts of one write act, the bypass first. -/
def stringWrite (s : Nat) (v : Word) (at_ : Nat) (d : Dev) : Word × Dev :=
  let x : Word × Dev := if v.getLsbD 3 then bypassRequest s (fget v 4 9) at_ d else (0, d)
  let y : Word × Dev := if fget v 0 3 = 0 then (0, x.2) else hostWrite s (fget v 0 3) (stringHops s x.2) x.2
  (if x.1 != 0 then x.1 else y.1, y.2)

/-- 06 Table BAL-10: a string's registers; a value outside its range leaves the register. -/
def srtsWrite (s off : Nat) (v : Word) (at_ : Nat) (d : Dev) : Word × Dev :=
  let a := srtReg s off
  match off with
  | 0 => stringWrite s v at_ d
  | 0x30 => if fget v 0 16 ≤ 32767 && within 10 (fget v 16 16) 6000 then (0, d.store a v) else (0x06090030, d)
  | 0x34 => if within 200 (fget v 0 12) 3200 && within 1 (fget v 16 4) 8 then (0, d.store a v) else (0x06090030, d)
  | _ => (0, d.store a v)

/-- 17 R514, R518: the network registers taken as ETH_EN or CAN_EN sets; the CAN port boots up, or leaves the bus. -/
def netEnable (was : Word) (d : Dev) : Dev :=
  let now := d.rd (primAddr .hbr 0 0)
  let d := if now.getLsbD 0 && !was.getLsbD 0 then
      { d with host := { d.host with netEth := [8, 0xC, 0x10, 0x30, 0x34, 0x38, 0x3C].map fun o => d.rd (primAddr .hbr 0 o) } }
    else d
  if now.getLsbD 1 && !was.getLsbD 1 then
    let d := { d with host := { d.host with netCan := d.rd (primAddr .hbr 0 0x18), nmt := 1 } }
    d.emit (.can (0x700 + canNode d) [0])
  else if !now.getLsbD 1 then { d with host := { d.host with nmt := 0 } } else d

/-- 17 R518, R523: a write to an HBR register. -/
def hbrWrite (off : Nat) (v : Word) (d : Dev) : Word × Dev :=
  let a := primAddr .hbr 0 off
  let rej : Word × Dev := (refusedCode, d.raise ⟨primAddr .hbr 0 4, 10, 1⟩)
  let net := (8 ≤ off && off ≤ 0x10) || off = 0x18 || 0x30 ≤ off
  if off = 0 then (0, netEnable (d.rd a) (d.store a v))
  else if net && d.f ⟨primAddr .hbr 0 0, 0, 2⟩ != 0 then rej
  else if off = 0x14 then if within 5 (fget v 0 10) 600 && within 1 (fget v 16 6) 60 then (0, d.store a v) else rej
  else if off = 0x18 then if 1 ≤ fget v 0 7 && fget v 12 3 ≤ 4 then (0, d.store a v) else rej
  else (0, d.store a v)

def cfcF (off lo w : Nat) : Fld := ⟨primAddr .cfc 0 off, lo, w⟩
def cfcStat (i : Nat) : Fld := cfcF 4 i 1

/-- R565: COMMIT: the next sweep to start is captured. -/
def cfcCommit (d : Dev) : Dev := { d.raise (cfcStat 5) with bus := { d.bus with commit := true } }
/-- R565: CFC_REF is written. -/
def cfcRefWrite (v : Word) (d : Dev) : Dev := (d.wr (primAddr .cfc 0 8) v).raise (cfcStat 0)
/-- R569: a write to a CFC register. -/
def cfcWrite (off : Nat) (v : Word) (d : Dev) : Word × Dev :=
  let a := primAddr .cfc 0 off
  match off with
  | 0 => (0, whenDo (v.getLsbD 1) cfcCommit (if v.getLsbD 0 then setHold (d.store a v) else releaseHold (d.store a v)))
  | 8 => (0, cfcRefWrite v d)
  | _ => (0, d.store a v)

/-- 16 Tables ADC-5, ADC-6: a write to an ADC register with its commands. -/
def adcRegWrite (a : Nat) (l : Loc) (v : Word) (d : Dev) : Word × Dev :=
  if l.blk = .adcs && l.off = 0x1C then
    if adcLocked d l.inst then (refusedCode, d.raise (adcStat 9))
    else
      let d := d.store a v
      let d := whenDo (v.getLsbD 2) (calStop l.inst) d
      let d := whenDo (v.getLsbD 0) (calStart l.inst { fs := false, vfs := 0 }) d
      (0, whenDo (v.getLsbD 1) (calStart l.inst { fs := true, vfs := signed 16 (fget v 16 16) }) d)
  else if l.blk = .adc && l.off = 4 then (0, d.store a v)
  else
    let r := adcWrite a v d
    (r.1, if l.blk = .adc && l.off = 0 then adcFltClr (v.getLsbD 2) (v.getLsbD 3) r.2 else r.2)

/-- 19 R548: a write of a whole word to the register at a place: its code where its chapter refuses it; `at_` counts after the edge. -/
def regWrite (l : Loc) (v : Word) (at_ : Nat) (d : Dev) : Word × Dev :=
  match regDefAt l with
  | none => (0, d)
  | some _ =>
    let a := primAddr l.blk l.inst l.off
    match l.blk with
    | .isl => islWrite l.inst l.off v at_ d
    | .islc => islcWrite l.off v d
    | .srts => srtsWrite l.inst l.off v at_ d
    | .tide => tideWrite l.off v d
    | .nrw => nrwWrite l.inst l.off v d
    | .stp => if 0x400 ≤ l.off then capWrite ((l.off - 0x400) / 0x20) ((l.off - 0x400) % 0x20) v d
        else if 0x200 ≤ l.off then stpTransWrite l.off v d else stpTopoWrite l.off v d
    | .lane => laneWrite l.inst l.off v d
    | .mpo => mpoWrite l.inst l.off v d
    | .enc => encWrite l.inst l.off v d
    | .adc | .adcs => adcRegWrite a l v d
    | .jrn => jrnWrite l.off v d
    | .hbr => hbrWrite l.off v d
    | .red => redWrite l.off v d
    | .pwr => pwrWrite l.off v d
    | .thm => thmWrite l.off v d
    | .cfc => cfcWrite l.off v d
    | .saf => (0, d)
    | .sys | .fuse | .srt => (0, d.store a v)

/-! ### Pairs (R553) -/

/-- The low words of the designated pairs; the high word lies 4 above. -/
def pairLow (l : Loc) : Bool :=
  match l.blk with
  | .tide => l.off = 0x10 || l.off = 0x18
  | .islc => l.off = 0x10
  | .srts => l.off = 0x28
  | .stp => l.off = 0x20 || l.off = 0x28 || (0x100 ≤ l.off && l.off < 0x180 && l.off % 0x20 = 8) || (0x400 ≤ l.off && l.off < 0x500 && l.off % 0x20 = 0x14)
  | .red => l.off = 8 || l.off = 0x44
  | .jrn => l.off = 8 || l.off = 0x10 || l.off = 0x24
  | .fuse => l.off = 0x804
  | _ => false
/-- The pairs of RW words. -/
def pairRw (l : Loc) : Bool := (l.blk = .islc && l.off = 0x10) || (l.blk = .red && l.off = 8)
/-- The place 4 below, and above. -/
def Loc.below (l : Loc) : Loc := { l with off := l.off - 4 }
def Loc.above (l : Loc) : Loc := { l with off := l.off + 4 }
def pairHigh (l : Loc) : Bool := 4 ≤ l.off && pairLow l.below
/-- Where an initiator's latch of a word lies. -/
def latchKey (init : Nat) (l : Loc) : Nat := init * 2 ^ 32 + primAddr l.blk l.inst l.off

/-- R553: a read of the low word latches the high word for the initiator. -/
def latchHigh (init : Nat) (l : Loc) (d : Dev) : Dev :=
  { d with bus := { d.bus with latched := tput (fun _ => 0) d.bus.latched (latchKey init l.above) ((regRead l.above d).toNat + 1) } }

/-- What an initiator reads at a place: of a pair's high word what it latched, if it latched it. -/
def busValue (init : Nat) (l : Loc) (d : Dev) : Word :=
  let v := tget (fun _ => 0) d.bus.latched (latchKey init l)
  if pairHigh l && v != 0 then lo32 (v - 1) else regRead l d

/-! ### Reads that clear (R549, R551) -/

/-- A counter's field is read and cleared; what it held counts on for the objects that count since BOOT (17 R495). A read also clears
ISL_OVR_CNT and ISL_SMP_CNT while CNT_FREEZE makes them hold (03 R94; DESIGN CHOICE, log 96). -/
def clearField (a : Nat) (x : RegField) (d : Dev) : Dev :=
  let v := d.f ⟨a, x.lo, x.width⟩
  let d := d.setF ⟨a, x.lo, x.width⟩ 0
  if v = 0 then d else { d with host := { d.host with sums := tmod (fun _ => 0) d.host.sums (32 * a + x.lo) (· + v) } }

/-- R551: the RC fields that lie wholly within the bits [lo+n-1:lo] clear; STP_PHW clears the high-water marks (11 Table FTR-12). -/
def clearRead (l : Loc) (lo n : Nat) (d : Dev) : Dev :=
  let a := primAddr l.blk l.inst l.off
  let fs := match regDefAt l with | some r => r.fields | none => []
  let d := forEach (fs.filter fun x => x.acc = .rc && lo ≤ x.lo && x.lo + x.width ≤ lo + n) (clearField a) d
  if l.blk = .stp && l.off = 0x290 && n = 32 then
    forUpTo 4 (fun p d => d.setF (stpF (0x280 + 4 * p) 16 16) (d.f (stpF (0x280 + 4 * p) 0 16))) d
  else d

/-! ### Accesses (R550 to R560) -/

def berrInfo (lo w : Nat) : Fld := ⟨primAddr .sys 0 0x104, lo, w⟩
def berrCnt (lo w : Nat) : Fld := ⟨primAddr .sys 0 0x108, lo, w⟩

/-- R560: a bus error is recorded and counted. Causes: 1 UNALIGNED, 2 UNMAPPED, 3 NARROW_WRITE, 4 DOMAIN_OFF, 5 ISOLATED, 6 MODE. -/
def busError (cause : Nat) (x : Access) (d : Dev) : Dev :=
  let d := d.count (berrCnt 0 16)
  let d := if cause = 3 then d.count (berrCnt 16 8) else d
  if d.flag (berrInfo 16 1) then d.raise (berrInfo 17 1)
  else
    let size := if x.size = 1 then 0 else if x.size = 2 then 1 else 2
    let w := atBit (x.init % 8) 0 ||| atBit (b2n x.write) 3 ||| atBit size 4 ||| atBit cause 8 ||| atBit 1 16
    (d.wr (primAddr .sys 0 0x100) (lo32 x.addr)).wr (primAddr .sys 0 0x104) (w ||| (d.rd (primAddr .sys 0 0x104) &&& 0x20000))

/-- Checks 1 to 4 of Table REG-3 on an access of at most 32 bits: the cause of a bus error, or 0; whether a SAF write is ignored. -/
def busCheck (x : Access) (d : Dev) : Nat × Bool :=
  if x.addr % min x.size 4 != 0 then (1, false)
  else match decodeAddr x.addr with
    | none => (2, false)
    | some l =>
      let safe := match regDefAt l with | some r => rmwSafe r | none => true
      if x.write && x.size < 4 && !safe then (3, false)
      else if x.write && l.blk = .saf && x.init != 4 then (0, true)
      else if x.write && x.init = 5 && d.mode != 2 then (6, false)
      else (0, false)

/-- The bits of a word that an access covers: lowest bit and width. -/
def laneOf (x : Access) : Nat × Nat := (8 * (x.addr % 4), 8 * min x.size 4)

/-- R548, R552, R553: a write reaches its register: whole, or by read-modify-write of the stored word; the low word of an RW pair is
held for the initiator until its write of the high word. The answer is the register's own refusal. -/
def busStore (x : Access) (l : Loc) (at_ : Nat) (d : Dev) : Word × Dev :=
  let key := latchKey x.init l
  let held := tget (fun _ => 0) d.bus.held key
  let base := if pairLow l && pairRw l && held != 0 then lo32 (held - 1) else d.rd (primAddr l.blk l.inst l.off)
  let b := laneOf x
  let v := if 4 ≤ x.size then lo32 (x.data % 2 ^ 32) else fset base b.1 b.2 x.data
  if pairLow l && pairRw l then (0, { d with bus := { d.bus with held := tput (fun _ => 0) d.bus.held key (v.toNat + 1) } })
  else if pairHigh l && pairRw l.below then
    let lowKey := latchKey x.init l.below
    let lw := tget (fun _ => 0) d.bus.held lowKey
    let d := if lw = 0 then d
      else (regWrite l.below (lo32 (lw - 1)) at_ { d with bus := { d.bus with held := terase d.bus.held lowKey } }).2
    regWrite l v at_ d
  else regWrite l v at_ d

/-- R551, R553: a read: its data, and what reading does. -/
def busLoad (x : Access) (l : Loc) (d : Dev) : Nat × Dev :=
  let b := laneOf x
  let v := fget (busValue x.init l d) b.1 b.2
  let d := if pairLow l then latchHigh x.init l d else d
  (v, clearRead l b.1 b.2 d)

/-- How an access of at most 32 bits ends: it stalls, or its cause (0 none), the register's refusal and the data. -/
inductive BusEnd where
  | stall
  | done (cause : Nat) (code : Word) (data : Nat)
  deriving DecidableEq, Repr

/-- R557, R559: an access of at most 32 bits. -/
def busOne (x : Access) (at_ : Nat) (d : Dev) : BusEnd × Dev :=
  let c := busCheck x d
  if c.1 != 0 then (.done c.1 0 0, busError c.1 x d)
  else if c.2 then (.done 0 0x06010002 0, d.count (berrCnt 24 8))
  else match decodeAddr x.addr with
    | none => (.done 0 0 0, d)
    | some l =>
      if !d.domOn (regDomain l) then (.stall, d)
      else if x.write then let r := busStore x l at_ d; (.done 0 r.1 0, r.2)
      else let r := busLoad x l d; (.done 0 0 r.1, r.2)

/-- R553: the halves of a 64-bit access. -/
def halves (x : Access) : List Access :=
  if x.size = 8 then [{ x with size := 4, data := x.data % 2 ^ 32 }, { x with size := 4, addr := x.addr + 4, data := x.data / 2 ^ 32 }] else [x]

/-- R545, R553: an access runs to its end, which goes out half by half, or stalls with what is left of it. -/
def busHalves : List Access → Nat → Dev → Option Access × Dev
  | [], _, d => (none, d)
  | x :: t, at_, d =>
    match busOne x at_ d with
    | (.stall, d) => (some (if t.isEmpty then x else { x with size := 8, data := x.data + 2 ^ 32 * (t.headD x).data }), d)
    | (.done c _ v, d) =>
      let d := d.emit (.bus x.init c v)
      if c != 0 then (none, d) else busHalves t at_ d

/-- R545: how far an initiator's turn lies behind that of the last one granted, among cores 0 to 3 and JTAG. -/
def busTurn (last i : Nat) : Nat := (min i 4 + 4 - min last 4) % 5

/-- R545: the access granted next, in round robin among the initiators, and those that go on waiting. -/
def busGrant (last : Nat) (l : List Access) : Option (Access × List Access) :=
  let first := (List.range 5).findSome? fun k => l.findIdx? fun x => busTurn last x.init = k
  first.bind fun i => (l[i]?).map fun x => (x, l.eraseIdx i)

/-- R545: accesses that wait are granted in turn, at most `n` of them, until one stalls. -/
def busServe : Nat → List Access → Nat → Dev → Dev
  | 0, _, _, d => d
  | n + 1, l, at_, d =>
    match busGrant d.bus.turn l with
    | none => d
    | some (x, t) =>
      match busHalves (halves x) at_ { d with bus := { d.bus with turn := x.init } } with
      | (some y, d) => { d with bus := { d.bus with waiting := y :: t } }
      | (none, d) => busServe n t at_ d
def busDrain (l : List Access) (at_ : Nat) (d : Dev) : Dev := busServe l.length l at_ d

/-- R559: the access that holds the bus is tried again; once it ends, the others follow. -/
def busResume (at_ : Nat) (d : Dev) : Dev :=
  match d.bus.waiting with
  | [] => d
  | x :: t =>
    match busHalves (halves x) at_ { d with bus := { d.bus with waiting := [] } } with
    | (some y, d) => { d with bus := { d.bus with waiting := y :: t } }
    | (none, d) => busDrain t at_ d

/-- R544, R547: may the initiator use the bus? Supervisor cores while the cluster runs, JTAG through its register-access instruction. The
safety core reaches the SAF window alone. -/
def busAllowed (x : Access) (d : Dev) : Bool :=
  d.domOn 2 && !d.pow.held &&
    (if x.init < 4 then !d.pow.restart else if x.init = 4 then x.addr / 0x10000 = 0x4400 else x.init = 5 && d.bus.tap = 1)

/-- R545: an access is requested. One that stalls holds the bus; the safety core's port lies off it. -/
def busAccess (x : Access) (at_ : Nat) (d : Dev) : Dev :=
  if !busAllowed x d then d
  else if x.init != 4 && !d.bus.waiting.isEmpty then { d with bus := { d.bus with waiting := d.bus.waiting ++ [x] } }
  else match busHalves (halves x) at_ (if x.init = 4 then d else { d with bus := { d.bus with turn := x.init } }) with
    | (some y, d) => { d with bus := { d.bus with waiting := [y] } }
    | (none, d) => d

/-- R557: a write access. -/
def execRegisterWrite (x : Access) (at_ : Nat) (s : State) : Host.Outcome State Fault Refusal := runCore s (busAccess { x with write := true } at_)
/-- R549, R551: a read access; RC fields clear. -/
def execRcRead (x : Access) (at_ : Nat) (s : State) : Host.Outcome State Fault Refusal := runCore s (busAccess { x with write := false } at_)
/-- R553: a read of a pair's low word. -/
def execPairLowRead (x : Access) (at_ : Nat) (s : State) : Host.Outcome State Fault Refusal := runCore s (busAccess { x with write := false } at_)

/-- R559: the access in progress has stalled for `elapsed` ICLK cycles. -/
def execDomainStallTimeout (elapsed at_ : Nat) (s : State) : Host.Outcome State Fault Refusal := runCore s fun d =>
  match d.bus.waiting with
  | [] => d
  | x :: t =>
    if elapsed < 4096 then d
    else busDrain t at_ ((busError 4 { x with size := min x.size 4 } { d with bus := { d.bus with waiting := [] } }).emit (.bus x.init 4 0))

/-- R559: isolation engages on domain `n`: an access stalled on it ends. -/
def busIsolate (n at_ : Nat) (d : Dev) : Dev :=
  match d.bus.waiting with
  | [] => d
  | x :: t =>
    let hit : Bool := match decodeAddr x.addr with | some l => decide (regDomain l = n) | none => false
    if hit then
      busDrain t at_ ((busError 5 { x with size := min x.size 4 } { d with bus := { d.bus with waiting := [] } }).emit (.bus x.init 5 0))
    else d

/-- R559: isolation engages on the domains that no longer are to come up. -/
def busSettle (was : List Nat) (at_ : Nat) (d : Dev) : Dev :=
  forEach (was.filter fun n => !d.pow.rising.contains n && !d.domOn n) (fun n d => busIsolate n at_ d) d

/-- 20 R584, 19 R559. -/
def execDomainRequest (v : Word) (at_ : Nat) (s : State) : Host.Outcome State Fault Refusal := run s fun d =>
  busSettle d.pow.rising at_ (domainRequest v d).2

/-! ### Domains that come up (20 R585) -/

/-- 20 R585: the domain whose turn it is reaches power-good: its registers hold their reset values, its isolation is released, an access
that waited for it completes; the reference is taken anew (R567). -/
def domainUp (n at_ : Nat) (d : Dev) : Dev :=
  let d := (d.clearRegs fun l => regDomain l = n).raise (domStat n)
  let d := whenDo (n = 11) (fun d => d.lower adcSettled) d
  let d := { d with pow := { d.pow with rising := d.pow.rising.drop 1 } }
  let d := cfcRenew d
  busResume at_ d
/-- 20 R585, 01 R22. -/
def execDomainReleased (at_ : Nat) (s : State) : Host.Outcome State Fault Refusal := runCore s fun d =>
  match d.pow.rising with
  | n :: _ => if n != 9 || d.domOn 8 then domainUp n at_ d else d
  | [] => d

/-! ### The configuration check (R561 to R567) -/

/-- R561, Table REG-6: the covered bits of a register. -/
def coverMask (r : RegDef) : Word := accMask r .rw

/-- R562: the words of one block's covered registers, in address order. -/
def blockWords (b : Blk) (d : Dev) : List Word :=
  if !cfcBlock b then []
  else
    let rs := (regsOf b).filter fun r => coverMask r != 0
    let rs := (List.range 0x600).filterMap fun o => rs.find? fun r => r.off = o
    let n := if b = .isl && isHalf d then 128 else blkCount b
    (List.range n).flatMap fun i => rs.map fun r =>
      if d.domOn (regDomain ⟨b, i, r.off⟩) then d.rd (primAddr b i r.off) &&& coverMask r else 0
/-- R562: the message. -/
def sweepWords (d : Dev) : List Word := blkOrder.flatMap fun b => blockWords b d
def sweepCrc (d : Dev) : Word := lo32 (crc32c ((sweepWords d).flatMap fun w => leBytes 4 w.toNat))

def hold (d : Dev) : Bool := d.flag (cfcF 0 0 1)

/-- R563 to R565: a sweep starts: a COMMIT that waits takes it. -/
def sweepStart (d : Dev) : Dev :=
  if !d.domOn 2 || d.bus.sweep.isSome then d
  else { d.raise (cfcStat 1) with bus := { d.bus with
    sweep := some (d.flag (cfcStat 0) && !hold d && !d.bus.commit, d.bus.commit), commit := false, holdSeen := hold d
    sweepRef := d.rd (primAddr .cfc 0 8), sweepRegs := d.regs } }
/-- R563. -/
def execCfcSweepStart (s : State) : Host.Outcome State Fault Refusal := runCore s sweepStart

/-- R564: a mismatching sweep sets CFG_SWEEP (13 R393); two in a row command SAFE (13 Table SAF-7). -/
def sweepMismatch (d : Dev) : Dev :=
  let d := ((d.count (cfcF 0x18 0 16)).raise (cfcStat 3)).raise (cfcStat 2)
  let n := satAdd 8 (d.f (cfcF 4 8 8)) 1
  let d := { d.setF (cfcF 4 8 8) n with saf := { d.saf with sweeps := n } }
  whenDo (decide (2 ≤ n)) safeAll (classB 2 none d)

/-- R564, R565: the capture, after which a supervisor that held judgement clears HOLD (R567). -/
def sweepCapture (d : Dev) : Dev :=
  let d := ((d.wr (primAddr .cfc 0 8) (d.rd (primAddr .cfc 0 0xC))).raise (cfcStat 0))
  let d := if d.bus.commit then d else d.lower (cfcStat 5)
  if d.bus.renew && !d.bus.commit && !d.pow.restart then releaseHold { d with bus := { d.bus with renew := false } } else d

/-- R563: the words that a sweep read between its start and its completion: of a word that changed meanwhile the rule does not say which
value it met, so that is drawn. -/
def sweepRead (d : Dev) : List Word × Dev :=
  ((sweepWords { d with regs := d.bus.sweepRegs }).zip (sweepWords d)).foldr (fun x r =>
    if x.1 = x.2 then (x.1 :: r.1, r.2)
    else let c := r.2.draw 2; ((if c.1 = 0 then x.1 else x.2) :: r.1, c.2)) ([], d)

/-- R564, R566: a sweep completes after `time` µs. It is judged against the reference as it stood at its start (R565). -/
def sweepDone (time : Nat) (d : Dev) : Dev :=
  match d.bus.sweep with
  | none => d
  | some (judged, captures) =>
    let (ws, d) := sweepRead d
    let crc := lo32 (crc32c (ws.flatMap fun w => leBytes 4 w.toNat))
    let d := { d.lower (cfcStat 1) with bus := { d.bus with sweep := none, sweepRegs := [] } }
    let d := ((d.wr (primAddr .cfc 0 0xC) crc).setF (cfcF 0x10 0 16) ws.length).setF (cfcF 0x14 0 10) time
    if captures then (sweepCapture d).count (cfcF 0x18 16 8)
    else if judged && !hold d && !d.bus.holdSeen then
      if crc = d.bus.sweepRef then
        { (d.lower (cfcStat 2)).setF (cfcF 4 8 8) 0 with saf := { d.saf with sweeps := 0 } }
      else sweepMismatch d
    else if hold d && d.bus.holdTmo then sweepMismatch d
    else d.count (cfcF 0x18 16 8)
/-- R564. -/
def execCfcSweepDone (time : Nat) (s : State) : Host.Outcome State Fault Refusal := runCore s (sweepDone time)

/-- R565. -/
def execCfcCommit (s : State) : Host.Outcome State Fault Refusal := runCore s fun d => if d.domOn 2 then cfcCommit d else d
/-- R565. -/
def execCfcRefWrite (v : Word) (s : State) : Host.Outcome State Fault Refusal := runCore s fun d => if d.domOn 2 then cfcRefWrite v d else d
/-- R566: HOLD has stood for `elapsed` µs with a reference. -/
def execHoldTmo (elapsed : Nat) (s : State) : Host.Outcome State Fault Refusal := runCore s fun d =>
  if hold d && d.flag (cfcStat 0) && 100000 < elapsed && !d.bus.holdTmo then
    { (d.raise (cfcStat 4)).count (cfcF 0x18 24 8) with bus := { d.bus with holdTmo := true } }
  else d

end Sys2Proof.Machine
end

