-- ==== Sys2Proof/Machine/DictObjects.lean ====
section
/-! DEFINITION. The object dictionary (17): every object of the chapters' object tables with its type, access code, range and store. -/
namespace Sys2Proof.Machine

/-- Access codes of Table DIC-3. -/
inductive OAcc where
  | const | ro | wo | rw | rwc | rws | rwt
  deriving DecidableEq, Repr

/-- A Range column (R491, R492): none, an interval with its step, a list of intervals, byte lengths. -/
inductive ORng where
  | all
  | span (lo hi step : Nat)
  | list (l : List (Nat × Nat))
  | len (lo hi : Nat)
  deriving DecidableEq, Repr

/-- Where an object lies: a field of a register, of which the value is `mul` times the field plus `add`; whole registers, least significant
first; a fixed value; elsewhere in the state. -/
inductive OSrc where
  | fld (x : Fld) (mul add : Nat)
  | regs (l : List Nat)
  | fixed (l : List Byte)
  | own
  deriving DecidableEq, Repr

/-- An object: type code (Table DIC-2), access, range, store. -/
structure Obj where
  typ : Nat
  acc : OAcc
  rng : ORng := .all
  src : OSrc := .own
  deriving DecidableEq, Repr

/-- Table DIC-2: the size of a type; 0 for STR and DOM. -/
def typSize : Nat → Nat
  | 1 | 2 => 1
  | 3 | 6 | 9 => 2
  | 4 | 7 | 0xA | 0xB => 4
  | 5 | 8 | 0xC | 0xD => 8
  | _ => 0

def oFld (a lo w : Nat) (mul : Nat := 1) (add : Nat := 0) : OSrc := .fld ⟨a, lo, w⟩ mul add
def oTop (n : Nat) : Nat × Obj := (0, ⟨2, .const, .all, .fixed [BitVec.ofNat 8 n]⟩)
def oRo (sub typ : Nat) (s : OSrc := .own) : Nat × Obj := (sub, ⟨typ, .ro, .all, s⟩)
def oCon (sub n v : Nat) (typ : Nat := 4) : Nat × Obj := (sub, ⟨typ, .const, .all, .fixed (leBytes n v)⟩)
def oW (sub typ : Nat) (acc : OAcc) (r : ORng) (s : OSrc := .own) : Nat × Obj := (sub, ⟨typ, acc, r, s⟩)
/-- The registers from `a`, `n` of them. -/
def oRegs (a n : Nat) : OSrc := .regs ((List.range n).map fun i => a + 4 * i)

/-- 00 Table SCO-3, 17 Table DIC-12: identity and communication. 0x1014 and the PDO parameters follow CiA 1301. -/
def objCom (ix : Nat) (d : Dev) : Option (List (Nat × Obj)) :=
  let hbr (o : Nat) : Nat := primAddr .hbr 0 o
  if ix = 0x1000 then some [oCon 0 4 0]
  else if ix = 0x1001 then some [oRo 0 2]
  else if ix = 0x1008 then some [(0, ⟨0xE, .const, .all, .fixed (([0x49, 0x5A, 0x37] : List Byte) ++ (if isHalf d then [0x31, 0x32, 0x38] else [0x32, 0x35, 0x36]))⟩)]
  else if ix = 0x1014 then some [oW 0 4 .rws .all]
  else if ix = 0x1017 then some [oW 0 3 .rws .all]
  else if ix = 0x1018 then some [oTop 5, oCon 1 4 0x005AE1A0, oCon 2 4 (if isHalf d then 0x7128 else 0x7256), oRo 3 4, oCon 4 4 (ownUid % 2 ^ 32),
    oCon 5 8 (ownUid % 2 ^ 64) 0xD]
  else if (0x1400 ≤ ix && ix < 0x1408) || (0x1800 ≤ ix && ix < 0x1808) then
    some [oTop 5, oW 1 4 .rws .all, oW 2 2 .rws (.list [(1, 240), (0xFE, 0xFE)]), oW 3 3 .rws .all, oW 5 3 .rws .all]
  else if (0x1600 ≤ ix && ix < 0x1608) || (0x1A00 ≤ ix && ix < 0x1A08) then
    some (oTop 16 :: (List.range 16).map fun i => oW (i + 1) 4 .rws .all)
  else if ix = 0x1F80 then some [oTop 6, oW 1 4 .rwc .all (.regs [hbr 8]), oW 2 4 .rwc .all (.regs [hbr 0xC]), oW 3 4 .rwc .all (.regs [hbr 0x10]),
    oW 4 0xF .rwc (.len 16 16) (oRegs (hbr 0x30) 4), oW 5 3 .rws (.span 5 600 1) (oFld (hbr 0x14) 0 10), oW 6 2 .rws (.span 1 60 1) (oFld (hbr 0x14) 16 6)]
  else if ix = 0x1F82 then some [oTop 4, oW 1 2 .rwc (.span 1 127 1) (oFld (hbr 0x18) 0 7), oW 2 2 .rwc (.span 0 3 1) (oFld (hbr 0x18) 8 2),
    oW 3 2 .rwc (.span 0 4 1) (oFld (hbr 0x18) 12 3), oW 4 1 .rws .all (oFld (hbr 0) 2 1)]
  else none

/-- 17 Table DIC-12, 20 Table MPT-14, 03 Table ISL-19, 02 Table TID-7: device, plan, tide, thermal and power. -/
def objDevice (ix : Nat) : Option (List (Nat × Obj)) :=
  let pwr (o : Nat) : Nat := primAddr .pwr 0 o
  let thm (o : Nat) : Nat := primAddr .thm 0 o
  let tid (o : Nat) : Nat := primAddr .tide 0 o
  if ix = 0x2000 then some
    [oTop 25, oRo 1 2 (.fld modeFld 1 0), oW 2 2 .rw (.span 2 5 1), oW 3 4 .wo (.list [(0x5254, 0x5254)]), oW 4 2 .wo (.list [(1, 1)]),
     oW 5 3 .rws .all (oFld (pwr 0x10) 0 16), oW 6 1 .rwc .all (oFld (pwr 0) 0 1), oRo 7 4 (.regs [pwr 4]), oRo 8 4 (.regs [pwr 0x14]),
     oW 9 0xF .wo (.len 32 32), oRo 10 4, oW 0x10 0xF .rwt .all, oRo 0x11 4 (.regs [islcReg 8]), oW 0x12 5 .rwt (.span 0 (2 ^ 48 - 1) 1),
     oRo 0x13 4 (.regs [islcReg 0xC]), oRo 0x14 2 (oFld (islcReg 4) 0 2), oRo 0x15 4 (.regs [islcReg 0x18]), oRo 0x16 0xF (oRegs (islcReg 0x20) 8),
     oW 0x17 4 .rwt .all, oW 0x18 2 .rws (.span 25 90 1) (oFld (islcReg 0) 8 8), oW 0x19 2 .rws (.span 1 16 1) (oFld (islcReg 0) 16 4 1 1)]
  else if ix = 0x2100 then some
    [oTop 8, oW 1 4 .rws (.span 10000 100000 5) (oFld (tid 4) 0 15 5), oW 2 4 .rws (.span 500000 5000000 2500) (oFld (tid 8) 0 11 2500),
     oRo 3 5 (oRegs (tid 0x10) 2), oRo 4 0xC (oRegs (tid 0x18) 2), oRo 5 3 (oFld (tid 0x20) 0 16), oRo 6 2 (oFld (tid 0xC) 0 2), oRo 7 7 (.regs [tid 0x2C]),
     oW 8 1 .rwc .all (oFld (tid 0) 0 1)]
  else if ix = 0x2200 then some
    [oTop 10, oRo 1 6, oRo 2 0xF (oRegs (thm 8) 8), oW 3 2 .rws (.span 60 135 1) (oFld (thm 0) 0 8), oRo 4 4 (.regs [thm 4]), oW 5 3 .rw .all,
     oRo 6 3 (oFld (pwr 0xC) 0 16), oRo 7 0xF (oRegs (pwr 0x20) 8), oW 8 4 .rwc .all (.regs [thm 0x30]), oW 9 0xF .rwc (.len 18 18), oRo 10 4 (.regs [thm 0x48])]
  else none

/-- 06 Table BAL-13, 05 Table MOD-12, 04 Table CTL-14, 03 Table ISL-19, 08 Table NRW-18: strings, modulation, laws, isles, nodes, rings. -/
def objPlant (ix : Nat) (d : Dev) : Option (List (Nat × Obj)) :=
  let n := ix % 256
  let r := ix % 16
  if 0x3000 ≤ ix && ix < 0x3040 then
    let s (o : Nat) : Nat := srtReg (ix % 64) o
    some [oTop 14, oRo 1 2 (oFld (s 4) 0 2), oW 2 2 .rw (.span 0 4 1), oRo 3 3, oRo 4 3 (oFld (s 4) 8 10), oRo 5 2 (oFld (s 4) 2 2),
      oRo 6 4 (.regs [s 8]), oRo 7 4 (.regs [s 0xC]), oRo 8 2 (oFld (s 0x10) 0 8), oW 9 3 .rwt (.span 0 511 1),
      oW 0xA 9 .rws (.span 0 32767 1) (oFld (s 0x30) 0 16), oW 0xB 3 .rws (.span 100 60000 10) (oFld (s 0x30) 16 16 10),
      oW 0xC 3 .rws (.span 200 3200 1) (oFld (s 0x34) 0 12), oW 0xD 2 .rws (.span 1 8 1) (oFld (s 0x34) 16 4), oRo 0xE 5]
  else if ix = 0x3100 then some ([oTop 8] ++ (oRo 1 3 :: (List.range 5).map fun i => oRo (i + 2) 4) ++ [oW 7 2 .rw .all, oW 8 4 .rw .all])
  else if ix = 0x3200 then some ([oTop 7] ++ (oRo 1 3 :: (List.range 5).map fun i => oRo (i + 2) 4) ++ [oRo 7 0xF])
  else if 0x4000 ≤ ix && ix < 0x4100 then
    if isHalf d && 128 ≤ n then none
    else some [oTop 7, oRo 1 2 (oFld (islReg n 0xC) 28 2), oRo 2 3, oRo 3 3, oRo 4 4 (.regs [islReg n 8]), oRo 5 4 (.regs [islReg n 0x14]), oRo 6 4,
      oRo 7 2 (oFld (islReg n 4) 24 4)]
  else if 0x4100 ≤ ix && ix < 0x4200 then
    some [oTop 7, oRo 1 0xF, oRo 2 5, oRo 3 4 (oFld (nrwReg (n / 16) (0x80 + 4 * (n % 16))) 0 20), oRo 4 5, oRo 5 4, oRo 6 4, oW 7 0xF .rwt (.len 16 16)]
  else if 0x4800 ≤ ix && ix < 0x4810 then
    some [oTop 8, oW 1 2 .rwc (.span 1 16 1) (oFld (nrwReg r 0) 4 4 1 1), oRo 2 2 (oFld (nrwReg r 4) 0 2), oRo 3 4 (.regs [nrwReg r 0x14]),
      oW 4 3 .rws (.span 40 800 1) (oFld (nrwReg r 0) 16 10), oW 5 2 .rws (.span 1 15 1) (oFld (nrwReg r 0) 12 4), oRo 6 3 (oFld (nrwReg r 0x18) 0 12),
      oW 7 0xF .rwc (.len 34 34), oW 8 3 .rw .all (oFld (nrwReg r 8) 0 16)]
  else none

/-- 10 Table FTP-13, 11 Table FTR-16, 12 Table RED-8, 13 Table SAF-18: fabric, transport, capture, pair, safety. -/
def objNet (ix : Nat) : Option (List (Nat × Obj)) :=
  let stp (o : Nat) : Nat := primAddr .stp 0 o
  let red (o : Nat) : Nat := primAddr .red 0 o
  let saf (o : Nat) : Nat := primAddr .saf 0 o
  if ix = 0x5000 then some
    [oTop 13, oW 1 1 .rwc .all (oFld (stp 0) 0 1), oW 2 4 .rwc .all (.regs [stp 4]), oW 3 3 .rwc (.list [(0, 0x7FF)]) (oFld (stp 8) 0 12),
     oW 4 2 .rws .all (oFld (stp 0) 8 8), oW 5 4 .rws (.span 60 86400 1) (oFld (stp 0x10) 0 17), oW 6 3 .rws (.span 1 600 1) (oFld (stp 0x18) 0 10),
     oRo 7 3 (oFld (stp 0xC) 0 16), oRo 8 0xD (oRegs (stp 0x28) 2), oRo 9 4 (.regs [stp 0x30]), oRo 10 3 (oFld (stp 0x38) 0 13), oRo 11 7 (.regs [stp 0x3C]),
     oW 12 1 .wo (.list [(1, 1)]), oW 13 3 .rws .all]
  else if ix = 0x5001 then some
    [oTop 9, oW 1 2 .rws (.span 1 15 1) (oFld (stp 0x200) 0 4), oW 2 2 .rws (.span 1 15 1) (oFld (stp 0x200) 4 4),
     oW 3 2 .rws (.span 1 100 1) (oFld (stp 0x200) 8 8), oW 4 3 .rws (.span 1 1000 1) (oFld (stp 0x200) 16 10), oW 5 2 .rws (.span 1 100 1) (oFld (stp 0x204) 0 7),
     oW 6 4 .rwc (.span 4096 65536 1) (oFld (stp 0x208) 0 17), oW 7 0xF .rws (.len 16 16) (oRegs (stp 0x210) 4), oRo 8 4, oRo 9 5]
  else if 0x5010 ≤ ix && ix < 0x5018 then
    let c (o : Nat) : Nat := capReg (ix % 8) o
    some [oTop 10, oW 1 2 .rw (.span 0 3 1), oW 2 2 .rws (.span 0 5 1) (oFld (c 0) 3 3), oW 3 3 .rws .all (oFld (c 4) 0 16),
      oW 4 3 .rws (.span 1 65535 1) (oFld (c 4) 16 16), oW 5 0xF .rws (.len 4 128), oW 6 3 .rws (.span 0 0xFFD 1) (oFld (c 8) 0 12),
      oW 7 2 .rws (.span 1 64 1) (oFld (c 8) 16 7), oW 8 2 .rws (.span 1 25 1) (oFld (c 8) 24 5), oW 9 3 .rws (.span 8 256 1) (oFld (c 0xC) 0 9), oRo 10 0xF]
  else if ix = 0x5100 then some
    [oTop 12, oW 1 1 .rwc .all (oFld (red 0) 0 1), oW 2 0xD .rwc .all (oRegs (red 8) 2), oW 3 2 .rwc (.span 0 1 1) (oFld (red 0) 1 1),
     oW 4 1 .rws .all (oFld (red 0) 3 1), oW 5 3 .rws (.span 5 3600 1) (oFld (red 0x10) 0 12), oW 6 3 .rws (.span 20 5000 1) (oFld (red 0x14) 0 13),
     oRo 7 2, oRo 8 4 (.regs [red 4]), oW 9 1 .wo (.list [(1, 1)]), oRo 10 4, oRo 11 5 (oRegs (red 0x44) 2), oRo 12 0xF (oRegs (red 0x20) 8)]
  else if ix = 0x5200 then some
    [oTop 11, oW 1 0xF .rwc (.len 192 192), oRo 2 4 (.regs [saf 4]), oW 3 4 .wo .all, oRo 4 4 (.regs [saf 8]), oRo 5 4 (.regs [saf 0]),
     oRo 6 4 (.regs [saf 0x14]), oRo 7 5, oRo 8 4 (.regs [saf 0xC]), oRo 9 4 (.regs [saf 0x10]), oW 10 2 .wo (.list [(1, 15)]), oW 11 4 .wo .all]
  else none

/-- 14 Table MPO-12, 15 Table FBK-11, 16 Table ADC-9: ports, feedback, station ADC. -/
def objMotor (ix : Nat) : Option (List (Nat × Obj)) :=
  if 0x5300 ≤ ix && ix < 0x5304 then
    let m (o : Nat) : Nat := mpoReg (ix % 4) o
    some [oTop 10, oW 1 1 .rw .all (oFld (m 0) 0 1), oRo 2 2 (oFld (m 4) 0 3), oRo 3 2 (oFld (m 4) 4 4), oW 4 4 .rw .all, oW 5 5 .rw .all (.regs [m 8, m 0xC]),
      oW 6 4 .rw .all (.regs [m 0x10]), oW 7 4 .rw .all (.regs [m 0x14]), oW 8 5 .rw .all (.regs [m 0x18, m 0x1C]), oW 9 4 .rw .all (.regs [m 0x2C]), oRo 10 5]
  else if 0x5310 ≤ ix && ix < 0x5314 then
    let e (o : Nat) : Nat := encReg (ix % 4) o
    some [oTop 14, oW 1 2 .rw (.span 0 5 1) (oFld (e 0) 0 3), oRo 2 7 (.regs [e 8]), oRo 3 7 (.regs [e 0x30]), oRo 4 4 (.regs [e 4]), oW 5 7 .wo .all,
      oW 6 1 .wo (.list [(1, 1)]), oW 7 7 .rw .all (.regs [e 0x20]), oW 8 8 .rw .all (.regs [e 0x14, e 0x18]),
      oW 9 4 .rw (.list [(0, 0), (4, 2 ^ 31 - 1)]) (.regs [e 0x1C]), oW 10 4 .rw .all (.regs [e 0x2C]), oW 11 0xF .rw (.len 16 16) (oRegs (e 0x34) 4),
      oW 12 1 .wo (.list [(1, 1)]), oW 13 0xF .rw (.len 12 12) (oRegs (e 0x48) 3), oW 14 0xF .rw (.len 16 16) (.regs [e 0x58, e 0x5C, e 0x64, e 0x68])]
  else if ix = 0x5400 then some
    [oTop 6, oW 1 2 .rws (.span 0 2 1) (oFld (adcReg 0) 0 2), oW 2 3 .rws (.span 200 65535 1) (oFld (adcReg 8) 0 16),
     oW 3 3 .rws (.span 1 256 1) (oFld (adcReg 8) 16 8 1 1), oW 4 2 .rws (.span 1 255 1) (oFld (adcReg 8) 24 8), oRo 5 4 (.regs [adcReg 4]), oRo 6 0xF]
  else if 0x5410 ≤ ix && ix < 0x5430 then
    let a (o : Nat) : Nat := adcsReg (ix - 0x5410) o
    some [oTop 7, oW 1 4 .rws .all (.regs [a 0]), oW 2 4 .rws .all (.regs [a 4]), oW 3 4 .rws .all (.regs [a 8]), oW 4 5 .rws .all (.regs [a 0xC, a 0x10]),
      oRo 5 4 (.regs [a 0x18]), oW 6 4 .wo .all, oW 7 0xB .rws .all]
  else none

/-- 18 Table JRN-5, 17 Tables DIC-12 and DIC-9: journal, register window, publications, subscriptions. -/
def objHost (ix : Nat) : Option (List (Nat × Obj)) :=
  let jrn (o : Nat) : Nat := primAddr .jrn 0 o
  if ix = 0x5800 then some
    [oTop 14, oRo 1 3 (oFld (jrn 0x18) 0 16), oRo 2 5 (oRegs (jrn 0x10) 2), oRo 3 5 (oRegs (jrn 8) 2), oW 4 5 .rw (.span 1 (2 ^ 48 - 1) 1), oRo 5 0xF, oRo 6 0xF,
     oW 7 4 .rw .all, oRo 8 0xF, oW 9 1 .rwc .all (oFld (jrn 0) 0 1), oW 10 4 .rwc (.span 0 (2 ^ 32 - 1) 65536) (.regs [jrn 0x1C]),
     oW 11 3 .rwc (.list [(0, 0), (2, 1024)]) (oFld (jrn 0x20) 0 11), oW 12 3 .rws (.span 10 60000 10) (oFld (jrn 0) 16 16 10), oRo 13 5 (oRegs (jrn 0x24) 2),
     oRo 14 4 (.regs [jrn 4])]
  else if ix = 0x5F00 then some [oTop 2, oW 1 4 .rw (.span 0 (2 ^ 32 - 1) 4), oW 2 4 .rw .all]
  else if 0x6000 ≤ ix && ix < 0x6040 then some
    [oTop 5, oW 1 1 .rws .all, oW 2 3 .rws (.span 1 65535 1), oW 3 0xF .rws (.len 4 128), oW 4 0xF .rws (.len 0 40), oRo 5 4]
  else if 0x6800 ≤ ix && ix < 0x6840 then some
    [oTop 6, oW 1 4 .rws .all, oW 2 4 .rws .all, oW 3 0xF .rws (.len 4 128), oW 4 0xF .rws (.len 0 256), oW 5 2 .rws (.span 1 255 1), oRo 6 2]
  else none

/-- Table DIC-1: the objects of an index. -/
def objects (ix : Nat) (d : Dev) : Option (List (Nat × Obj)) :=
  (objCom ix d).orElse fun _ => (objDevice ix).orElse fun _ => (objPlant ix d).orElse fun _ => (objNet ix).orElse fun _ => (objMotor ix).orElse fun _ => objHost ix

/-- R486: the object at an index and subindex, or its code. -/
def objAt (ix sub : Nat) (d : Dev) : Except Word Obj :=
  match objects ix d with
  | none => .error 0x06020000
  | some l => match l.find? fun e => e.1 = sub with | some e => .ok e.2 | none => .error 0x06090011

/-- R496: the power domain of an object's store; domain 2 where it lies with the supervisor. -/
def objDomain (ix : Nat) (o : Obj) : Nat :=
  let at_ (a : Nat) : Nat := match decodeAddr a with | some l => regDomain l | none => 2
  match o.acc, o.src with
  | .const, _ => 2
  | _, .fld x _ _ => at_ x.addr
  | _, .regs l => at_ (l.headD 0)
  | _, _ =>
    if 0x4000 ≤ ix && ix < 0x4100 then 4 + ix % 256 / 64
    else if 0x4100 ≤ ix && ix < 0x4200 then if ix % 256 / 16 < 8 then 8 else 9
    else if 0x4800 ≤ ix && ix < 0x4810 then if ix % 16 < 8 then 8 else 9
    else if 0x5000 ≤ ix && ix < 0x5018 then 10
    else 2

end Sys2Proof.Machine
end

