-- ==== Sys2Proof/Machine/Dictionary.lean ====
section
/-! DEFINITION. Reading and writing objects (17): what each object reads as, the checks of Table DIC-4, what a write does, the journal entry
of a write, transactions. -/
namespace Sys2Proof.Machine

/-! ### Reading (R486, R494 to R496) -/

/-- R495: a counter's field since BOOT, with what bus reads cleared. -/
def sinceBoot (x : Fld) (n : Nat) (d : Dev) : Nat := satAdd n (tget (fun _ => 0) d.host.sums (32 * x.addr + x.lo)) (d.f x)
/-- A counter register with its fields since BOOT, each at its own width. -/
def sinceWord (a : Nat) (d : Dev) : Nat :=
  match (decodeAddr a).bind regDefAt with
  | some r => ((r.fields.filter fun x => x.acc = .rc).map fun x => sinceBoot ⟨a, x.lo, x.width⟩ x.width d * 2 ^ x.lo).sum
  | none => 0

/-- Bit `n` of a byte string set for the numbers that satisfy `p`, 32 bytes. -/
def bitMask (p : Nat → Bool) : List Byte := leBytes 32 ((List.range 256).foldl (fun m n => if p n then m + 2 ^ n else m) 0)

def pdoOf (tx : Bool) (n : Nat) (d : Dev) : PdoU := tget (fun _ => {}) (if tx then d.host.tpdos else d.host.rpdos) n
def modPdo (tx : Bool) (n : Nat) (f : PdoU → PdoU) (d : Dev) : Dev :=
  { d with host := if tx then { d.host with tpdos := tmod (fun _ => {}) d.host.tpdos n f } else { d.host with rpdos := tmod (fun _ => {}) d.host.rpdos n f } }
/-- CiA 1301's predefined COB-ID of a PDO: the first four by node-ID, the others not valid. -/
def pdoCob (tx : Bool) (n : Nat) (d : Dev) : Nat :=
  (pdoOf tx n d).cob.getD (if n < 4 then (if tx then 0x180 else 0x200) + 0x100 * n + canNode d else 0x80000000)

def pubOf (n : Nat) (d : Dev) : PubU := tget (fun _ => {}) d.host.pubs n
def modPub (n : Nat) (f : PubU → PubU) (d : Dev) : Dev := { d with host := { d.host with pubs := tmod (fun _ => {}) d.host.pubs n f } }
def subU (n : Nat) (d : Dev) : SubU := tget (fun _ => {}) d.host.subs n
def modSub (n : Nat) (f : SubU → SubU) (d : Dev) : Dev := { d with host := { d.host with subs := tmod (fun _ => {}) d.host.subs n f } }
/-- A publication's fields as bytes, and Table DIC-8's definition check. -/
def fieldBytes (p : PubU) : List Byte := p.fields.flatMap fun f => leBytes 2 f.1 ++ leBytes 1 f.2.1 ++ leBytes 1 f.2.2
def defCheck (p : PubU) : Nat := if p.fields.isEmpty then 0 else crc32c (fieldBytes p)

def nums (n v : Nat) : Word × List Byte := (0, leBytes n v)

/-- Own objects of communication and device (17, 20, 03). -/
def readDevice (ix sub : Nat) (d : Dev) : Word × List Byte :=
  let pdo (tx map : Bool) : Word × List Byte :=
    let u := pdoOf tx (ix % 8) d
    if map then nums 4 (tget (fun _ => 0) u.map sub)
    else match sub with | 1 => nums 4 (pdoCob tx (ix % 8) d) | 2 => nums 1 u.typ | 3 => nums 2 u.inhibit | _ => nums 2 u.event
  if ix = 0x1001 then nums 1 (errorRegister d)
  else if ix = 0x1014 then nums 4 (emcyId d)
  else if ix = 0x1017 then nums 2 d.host.heartbeat
  else if ix = 0x1018 then nums 4 (Config.revision % 2 ^ 16 * 2 ^ 16 + d.f (pwrF 0x14 0 16))
  else if 0x1400 ≤ ix && ix < 0x1800 then pdo false (0x1600 ≤ ix)
  else if 0x1800 ≤ ix && ix < 0x1C00 then pdo true (0x1A00 ≤ ix)
  else if ix = 0x2000 then
    match sub with
    | 2 => nums 1 d.host.lastModeCmd
    | 10 =>
      let k := d.saf.key.getD (keyInForce d)
      (0, if k.all (· = 0) then leBytes 4 0 else (hmac k ([0x48, 0x52, 0x42, 0x4B] : List Byte)).take 4)
    | 0x10 => (0, match d.plan.staged with | some p => Config.planBytes p.gen | none => [])
    | 0x12 => nums 8 ((d.rd (islcReg 0x10)).toNat + 2 ^ 32 * (d.rd (islcReg 0x14)).toNat)
    | _ => nums 4 (d.rd (islcReg 0x1C)).toNat
  else if ix = 0x2200 then
    match sub with
    | 1 => nums 2 (unsigned 16 (d.sf (thmF 0x28 0 12)))
    | 5 => nums 2 (d.f (pwrF 8 0 16))
    | _ => (0, ((List.range 5).flatMap fun j => leBytes 4 (d.rd (primAddr .thm 0 (0x34 + 4 * j))).toNat).take 18)
  else (0, [])

/-- Own objects of strings, modulation, laws, isles, nodes and rings. The mean latency, a register in 2.5 ns, is shown in ns rounded half up
(03 R96; DESIGN CHOICE, log 97). -/
def readPlant (ix sub : Nat) (d : Dev) : Word × List Byte :=
  let used := d.isles.filter fun e => e.2.entry.role != 0
  if 0x3000 ≤ ix && ix < 0x3040 then
    let u := d.str (ix % 64)
    match sub with
    | 2 => nums 1 u.lastCmd
    | 3 => nums 2 (if u.held then u.defn.n else 0)
    | 0xE => (0, (List.range 4).flatMap fun i => leBytes 2 (unsigned 16 (u.vals.getD i 0)))
    | _ => nums 2 0
  else if ix = 0x3100 then
    match sub with
    | 1 => nums 2 (distinct (used.map fun e => (liveBank e.2).modn)).length
    | 7 => nums 1 d.host.ovrIsle
    | 8 => nums 4 (d.rd (islReg d.host.ovrIsle 0x30)).toNat
    | _ => nums 4 (tget (fun _ => 0) d.efTotals (sub - 2))
  else if ix = 0x3200 then
    match sub with
    | 1 => nums 2 (distinct (used.map fun e => (liveBank e.2).law)).length
    | 7 => (0, bitMask fun n => (d.rd (islReg n 0x20) &&& 0x71) != 0)
    | _ => nums 4 (tget (fun _ => 0) d.ctlTotals (sub - 2))
  else if 0x4000 ≤ ix && ix < 0x4100 then
    let e := (d.isle (ix % 256)).entry
    match sub with
    | 2 => nums 2 (if e.role = 3 then e.port * 256 else e.ring * 256 + e.node)
    | 3 => nums 2 (e.string * 256 + e.segPos)
    | _ => nums 4 ((5 * d.f ⟨islReg (ix % 256) 0x18, 16, 16⟩ + 1) / 2)
  else if 0x4100 ≤ ix && ix < 0x4200 then
    let u := rnode (d.ring (ix % 256 / 16)) (ix % 16)
    match sub with
    | 1 => (0, (u.ident ++ List.replicate 29 0).take 29)
    | 2 => nums 8 (leAt u.ident 21 8)
    | 4 => nums 8 u.status
    | 5 => nums 4 (min u.late (2 ^ 32 - 1))
    | 6 => nums 4 (min u.frm (2 ^ 32 - 1))
    | _ => if u.reply.isEmpty then (refusedCode, []) else (0, u.reply.take 128)
  else (0, (List.range 17).flatMap fun h => leBytes 2 (d.f ⟨nrwReg (ix % 16) (0x180 + 4 * h), 0, 16⟩))

/-- Own objects of the fabric, the pair, safety, ports, feedback and ADC. -/
def readNet (ix sub : Nat) (d : Dev) : Word × List Byte :=
  if ix = 0x5000 then
    nums 2 ((List.range 4).map fun p => (d.f ⟨portReg p 0, 0, 1⟩ + 2 * d.f ⟨portReg p 0, 1, 1⟩) * 4 ^ p).sum
  else if ix = 0x5001 then
    if sub = 8 then nums 4 (sinceBoot (stpF 0x230 0 16) 32 d)
    else (0, leBytes 4 (sinceWord (stpReg 0x224) d) ++ leBytes 4 (sinceWord (stpReg 0x228) d))
  else if 0x5010 ≤ ix && ix < 0x5018 then
    let j := ix % 8
    match sub with
    | 1 => nums 1 (d.f (capState j))
    | 5 => (0, (d.cap j).srcs.flatMap fun s => leBytes 1 s.1 ++ leBytes 1 0 ++ leBytes 2 s.2)
    | _ => if d.f (capState j) = 3 then (0, capBytes (d.cap j)) else (refusedCode, [])
  else if ix = 0x5100 then
    if sub = 7 then nums 1 (pairState d) else nums 4 (sinceBoot (redF 0x40 0 8) 32 d)
  else if ix = 0x5200 then
    if sub = 1 then (0, d.saf.staged.getD (if d.saf.spb.isEmpty then List.replicate 192 0 else d.saf.spb))
    else (0, (List.range 4).flatMap fun p => leBytes 2 (d.f ⟨safReg (0x20 + 4 * p), 0, 16⟩))
  else if 0x5300 ≤ ix && ix < 0x5304 then
    if sub = 4 then nums 4 (d.rd (mpoReg (ix % 4) 0)).toNat
    else (0, leBytes 4 (sinceWord (mpoReg (ix % 4) 0x40) d) ++ leBytes 4 (sinceWord (mpoReg (ix % 4) 0x48) d))
  else if ix = 0x5400 then (0, (List.range 32).flatMap fun s => leBytes 2 (d.f (adcVal s)))
  else nums 4 (tget (fun _ => 0x3F800000) d.host.engBase (ix - 0x5410))

/-- Own objects of the journal, the window's address, publications and subscriptions. -/
def readHost (ix sub : Nat) (d : Dev) : Word × List Byte :=
  if ix = 0x5800 then
    match sub with
    | 4 => nums 8 d.jrn.cursor
    | 5 => let r := jRead d.jrn.cursor d; (r.1, match r.2 with | some e => entryBytes e | none => [])
    | 6 => let r := jRead d.jrn.cursor d; (r.1, if r.1 = 0 then jBlock 16 d.jrn.cursor d else [])
    | 7 => nums 4 d.jrn.txQuery
    | _ => jTxRecord d.jrn.txQuery d
  else if ix = 0x5F00 then nums 4 d.host.window
  else if ix < 0x6800 then
    let p := pubOf (ix % 64) d
    match sub with
    | 1 => nums 1 (b2n p.enable)
    | 2 => nums 2 p.period
    | 3 => (0, fieldBytes p)
    | 4 => (0, p.dests.flatMap fun x => leBytes 2 x.1 ++ leBytes 2 0 ++ leBytes 16 x.2)
    | _ => nums 4 (defCheck p)
  else
    let u := subU (ix % 64) d
    match sub with
    | 1 => nums 4 u.source
    | 2 => nums 4 u.check
    | 3 => (0, u.targets.flatMap fun t => leBytes 2 t.1 ++ leBytes 1 t.2 ++ leBytes 1 0)
    | 4 => (0, u.droop)
    | 5 => nums 1 u.ageLimit
    | _ => nums 1 u.state

def readOwn (ix sub : Nat) (d : Dev) : Word × List Byte :=
  if ix < 0x3000 then readDevice ix sub d
  else if ix < 0x5000 then readPlant ix sub d
  else if ix < 0x5800 then readNet ix sub d
  else readHost ix sub d

/-- R519: an access through the register window, as a supervisor core makes it; a domain that is off ends it at once. -/
def windowAccess (w : Bool) (data at_ : Nat) (d : Dev) : Word × Nat × Dev :=
  let x : Access := ⟨0, d.host.window, 4, w, data⟩
  match busOne x at_ d with
  | (.stall, d) => (0x06060000, 0, busError 4 x d)
  | (.done c code v, d) => (if c != 0 then 0x06060000 else if code = 0x06010002 then code else 0, v, d)

/-- R486, R489, R496: a read: its result, the object's type and its value. -/
def readObj (ix sub at_ : Nat) (d : Dev) : Word × Nat × List Byte × Dev :=
  match objAt ix sub d with
  | .error c => (c, 0, [], d)
  | .ok o =>
    if o.acc = .wo then (0x06010001, o.typ, [], d)
    else if !d.domOn (objDomain ix o) then (refusedCode, o.typ, [], d)
    else match o.src with
      | .fixed l => (0, o.typ, l, d)
      | .fld x m a => (0, o.typ, leBytes (typSize o.typ) (fget (readAt x.addr d) x.lo x.width * m + a), d)
      | .regs l =>
        let b := l.flatMap fun a => leBytes 4 (readAt a d).toNat
        (0, o.typ, if typSize o.typ = 0 then b else b.take (typSize o.typ), d)
      | .own =>
        if ix = 0x5F00 && sub = 2 then
          let r := windowAccess false 0 at_ d
          (r.1, 4, if r.1 = 0 then leBytes 4 r.2.1 else [], r.2.2)
        else let r := readOwn ix sub d; (r.1, o.typ, r.2, d)

/-! ### Checks 1 to 5 (Table DIC-4) -/

/-- A value as its type reads it. -/
def objVal (typ : Nat) (l : List Byte) : Int :=
  let v := leNat l
  match typ with | 6 | 9 => signed 16 v | 7 | 0xA => signed 32 v | 8 => signed 64 v | _ => v

/-- Step 3: type, length, encoding. -/
def typeCheck (o : Obj) (typ : Nat) (l : List Byte) : Word :=
  if typ != o.typ then 0x06070010
  else if typSize typ != 0 then
    if l.length != typSize typ then 0x06070010
    else if typ = 1 && 1 < leNat l then 0x06090030
    else if typ = 0xB && leNat l / 2 ^ 23 % 256 = 255 then 0x06090030
    else 0
  else match o.rng with
    | .len lo hi => if hi < l.length then 0x06070012 else if l.length < lo then 0x06070013 else 0
    | _ => if (if typ = 0xE then 255 else 1048576) < l.length then 0x06070012 else 0

/-- Steps 4 and 5: the Range column. -/
def rangeCheck (o : Obj) (l : List Byte) : Word :=
  let v := objVal o.typ l
  match o.rng with
  | .span lo hi step =>
    if decide ((hi : Int) < v) then 0x06090031 else if decide (v < lo) then 0x06090032
    else if (v - lo) % step != 0 then 0x06090030 else 0
  | .list rs => if rs.any fun r => decide ((r.1 : Int) ≤ v) && decide (v ≤ r.2) then 0 else 0x06090030
  | _ => 0

/-- R492: the ranged fields of the registers that objects carry whole: lowest bit, width, lowest and highest value; and those with refused
codes. -/
def wordSpans (b : Blk) (off : Nat) : List (Nat × Nat × Nat × Nat) :=
  match b, off with
  | .mpo, 0x10 => [(0, 12, 20, 4000), (16, 12, 0, 4000)]
  | .mpo, 0x14 => [(0, 8, 1, 255), (8, 10, 40, 800), (18, 10, 0, 1000)]
  | .mpo, 0x18 => [(0, 12, 0, 4000), (16, 12, 0, 4000)]
  | .mpo, 0x1C => [(0, 16, 0, 40000)]
  | .enc, 0x34 => [(0, 10, 1, 1000), (10, 10, 1, 1000)]
  | .enc, 0x38 => [(0, 26, 1000, 50000000)]
  | .enc, 0x40 => [(0, 27, 1, 134217727)]
  | .enc, 0x50 => [(0, 8, 20, 90), (8, 8, 110, 200), (16, 4, 0, 10)]
  | .enc, 0x58 => [(0, 6, 8, 32), (16, 7, 1, 100), (24, 7, 1, 100)]
  | .adcs, 4 => [(0, 12, 60, 4000), (16, 15, 1, 32767)]
  | .stp, 0x210 | .stp, 0x214 | .stp, 0x218 | .stp, 0x21C => [(0, 12, 8, 4095)]
  | _, _ => []
def wordRefused (b : Blk) (off : Nat) (w : Word) : Bool :=
  match b, off with
  | .mpo, 0 => fget w 6 2 = 0
  | .adcs, 0 => 4 < fget w 8 3 || fget w 12 2 = 3 || fget w 14 2 = 3
  | _, _ => false

/-- R492: reserved bits, ranges and refused codes of a register's word. -/
def wordCheck (a : Nat) (w : Word) : Word :=
  match decodeAddr a with
  | none => 0
  | some l =>
    match regDefAt l with
    | none => 0
    | some r =>
      let sp := wordSpans l.blk l.off
      if w &&& ~~~ (rwMask r ||| accMask r .wt) != 0 || wordRefused l.blk l.off w then 0x06090030
      else if sp.any fun x => x.2.2.2 < fget w x.1 x.2.1 then 0x06090031
      else if sp.any fun x => fget w x.1 x.2.1 < x.2.2.1 then 0x06090032 else 0

/-- The first code that is not 0. -/
def firstCode : List Word → Word
  | [] => 0
  | c :: t => if c != 0 then c else firstCode t

/-- The words of a value that whole registers carry. -/
def valueWords (n : Nat) (l : List Byte) : List Word := (List.range n).map fun i => lo32 (leAt l (4 * i) 4)

/-- The objects that a byte string names, 4 bytes each: index, subindex, fourth byte. -/
def named (l : List Byte) : List (Nat × Nat × Nat) := (List.range (l.length / 4)).map fun i => (leAt l (4 * i) 2, leAt l (4 * i + 2) 1, leAt l (4 * i + 3) 1)

/-- R510: a publication's fields: readable objects with their type codes, neither STR nor DOM, 494 bytes of values (R511). -/
def fieldsCheck (l : List Byte) (d : Dev) : Word :=
  let one (x : Nat × Nat × Nat) : Word :=
    match objAt x.1 x.2.1 d with
    | .error c => c
    | .ok o => if o.acc = .wo then 0x06010001 else if o.typ != x.2.2 then 0x06070010 else if typSize o.typ = 0 then 0x06090030 else 0
  if l.length % 4 != 0 then 0x06070010
  else
    let c := firstCode ((named l).map one)
    if c != 0 then c else if 494 < ((named l).map fun x => typSize x.2.2).sum then 0x06040042 else 0

/-- R512: a subscription's targets: objects with access RW. -/
def targetsCheck (l : List Byte) (d : Dev) : Word :=
  let one (x : Nat × Nat × Nat) : Word :=
    match objAt x.1 x.2.1 d with
    | .error c => c
    | .ok o => if o.acc != .rw || typSize o.typ = 0 || x.2.2 != 0 then 0x06090030 else 0
  if l.length % 4 != 0 then 0x06070010 else firstCode ((named l).map one)

/-- R515: a mapping entry: an object of the length named that can be written (RPDO) or read (TPDO), 64 bytes in all; 0 leaves the place free. -/
def mapCheck (ix sub v : Nat) (d : Dev) : Word :=
  let tx := decide (0x1A00 ≤ ix)
  if v = 0 then 0
  else match objAt (v / 2 ^ 16) (v / 256 % 256) d with
    | .error _ => 0x06040041
    | .ok o =>
      let acc := if tx then o.acc != .wo else o.acc = .wo || o.acc = .rw || o.acc = .rwc || o.acc = .rws
      if typSize o.typ = 0 || 8 * typSize o.typ != v % 256 || !acc then 0x06040041
      else
        let used := (((pdoOf tx (ix % 8) d).map.filter fun e => e.1 != sub).map fun e => e.2 % 256).sum
        if 512 < used + v % 256 then 0x06040042 else 0

/-- Step 4 where the object has conditions of its own on the value. -/
def ownCheck (ix sub : Nat) (l : List Byte) (d : Dev) : Word :=
  let v := leNat l
  let bad (b : Bool) : Word := if b then 0x06090030 else 0
  if (0x1600 ≤ ix && ix < 0x1608) || (0x1A00 ≤ ix && ix < 0x1A08) then mapCheck ix sub v d
  else if ix = 0x2200 && sub = 5 then bad (4096 ≤ v)
  else if ix = 0x3100 && sub = 8 then bad (2 ^ 30 ≤ v)
  else if ix = 0x5400 && sub = 2 then if d.tc < v then 0x06090031 else 0
  else if 0x5300 ≤ ix && ix < 0x5304 && sub = 4 then wordCheck (mpoReg (ix % 4) 0) (lo32 v)
  else if 0x5310 ≤ ix && ix < 0x5314 && sub = 8 then if decide (signed 32 (leAt l 4 4) < signed 32 (leAt l 0 4)) then 0x06090036 else 0
  else if 0x5310 ≤ ix && ix < 0x5314 && sub = 11 then if leAt l 4 4 < leAt l 8 4 then 0x06090031 else 0
  else if 0x5410 ≤ ix && ix < 0x5430 && sub = 6 then bad (v % 2 ^ 16 / 8 != 0)
  else if ix = 0x5000 && sub = 13 then bad (256 ≤ v)
  else if 0x5010 ≤ ix && ix < 0x5018 && sub = 5 then
    if l.length % 4 != 0 then 0x06070010 else bad ((List.range (l.length / 4)).any fun i => leAt l (4 * i + 1) 1 != 0)
  else if 0x6000 ≤ ix && ix < 0x6040 && sub = 3 then fieldsCheck l d
  else if 0x6000 ≤ ix && ix < 0x6040 && sub = 4 then if l.length % 20 != 0 then 0x06070010 else 0
  else if 0x6800 ≤ ix && ix < 0x6840 && sub = 3 then targetsCheck l d
  else 0

/-- Checks 1 to 5 (R491): the object, or the code of the first that fails. -/
def checks (ix sub typ : Nat) (l : List Byte) (inTx : Bool) (d : Dev) : Except Word Obj :=
  match objAt ix sub d with
  | .error c => .error c
  | .ok o =>
    if o.acc = .const || o.acc = .ro then .error 0x06010002
    else if o.acc = .rwt && !inTx then .error 0x06010000
    else
      let words := match o.src with
        | .regs as => if o.acc = .ro then 0 else firstCode ((as.zip (valueWords as.length l)).map fun x => wordCheck x.1 x.2)
        | _ => 0
      let c := firstCode [typeCheck o typ l, rangeCheck o l, words, ownCheck ix sub l d]
      if c = 0 then .ok o else .error c

/-! ### What a write does -/

/-- A field of a register is written: the stored word with the field changed goes to the register, which marks a refusal as its chapter says. -/
def fieldWrite (x : Fld) (v at_ : Nat) (d : Dev) : Word × Dev :=
  match decodeAddr x.addr with
  | none => (0, d)
  | some l =>
    match regDefAt l with
    | none => (0, d)
    | some r =>
      regWrite l (fset (d.rd x.addr &&& rwMask r) x.lo x.width v) at_ d

/-- Whole registers are written in order; where one is refused, its code and what the refusal marks in `d0`, the device before the first. -/
def regsWrite (d0 : Dev) : List (Nat × Word) → Nat → Dev → Word × Dev
  | [], _, d => (0, d)
  | (a, w) :: t, at_, d =>
    match decodeAddr a with
    | none => regsWrite d0 t at_ d
    | some l =>
      let y := regWrite l w at_ d
      if y.1 = 0 then regsWrite d0 t at_ y.2
      else let z := regWrite l w at_ d0; (y.1, if z.1 = 0 then d0 else z.2)

/-- The words, all or none, in their order, or in the other where only that is legal. -/
def wordsWrite (ws : List (Nat × Word)) (at_ : Nat) (d : Dev) : Word × Dev :=
  let y := regsWrite d ws at_ d
  if y.1 = 0 then y else let z := regsWrite d ws.reverse at_ d; if z.1 = 0 then z else y

/-- 10 R291: the ports' controls: those that leave the pair first. -/
def portsWrite (v : Nat) (d : Dev) : Word × Dev :=
  let w (p : Nat) : Word := lo32 (v / 4 ^ p % 4)
  let pairs := (List.range 4).filter fun p => (w p).getLsbD 1
  if 1 < pairs.length then (refusedCode, d)
  else (0, forEach (((List.range 4).filter fun p => !(w p).getLsbD 1) ++ pairs) (fun p d => (portCtlWrite p (w p) d).2) d)

/-- Own objects of communication, device and plan. -/
def writeDevice (ix sub : Nat) (l : List Byte) (img : Option PlanImage) (d : Dev) : Word × Dev :=
  let v := leNat l
  let pdo (tx map : Bool) : Word × Dev := (0, modPdo tx (ix % 8) (fun u =>
    if map then { u with map := tput (fun _ => 0) u.map sub v }
    else match sub with | 1 => { u with cob := some v } | 2 => { u with typ := v } | 3 => { u with inhibit := v } | _ => { u with event := v }) d)
  if ix = 0x1014 then (0, { d with host := { d.host with emcyCob := some v } })
  else if ix = 0x1017 then (0, { d with host := { d.host with heartbeat := v } })
  else if 0x1400 ≤ ix && ix < 0x1800 then pdo false (0x1600 ≤ ix)
  else if 0x1800 ≤ ix && ix < 0x1C00 then pdo true (0x1A00 ≤ ix)
  else if ix = 0x2000 then
    match sub with
    | 2 => modeCommand v d
    | 3 => if d.mode < 2 then (refusedCode, d) else (0, { d with pow := { d.pow with after := 1 } })
    | 4 => if (d.mode = 2 || d.mode = 5) && d.allIdle && portsOff d then (0, { d with pow := { d.pow with after := 2 } }) else modeReject d
    | 9 => keyWrite l d
    | 0x10 =>
      if d.plan.state = 3 then (refusedCode, d)
      else match img with | some i => stageImage i d | none => (0x0A300001, d)
    | 0x12 => (0, (d.wr (islcReg 0x10) (lo32 v)).wr (islcReg 0x14) (hi32 v))
    | _ => (0, d.wr (islcReg 0x1C) (lo32 v))
  else if sub = 5 then pwrWrite 8 (lo32 v) d
  else curveWrite (l ++ List.replicate 2 0) d

/-- Own objects of strings, modulation, nodes and rings. -/
def writePlant (ix sub : Nat) (l : List Byte) (at_ : Nat) (d : Dev) : Word × Dev :=
  let v := leNat l
  if ix < 0x3100 then
    let s := ix % 64
    if sub = 9 then bypassRequest s v at_ d else if v = 0 then (0, d) else hostWrite s v (stringHops s d) d
  else if ix = 0x3100 then
    if sub = 7 then (0, { d with host := { d.host with ovrIsle := v } })
    else if !d.domOn (4 + d.host.ovrIsle / 64) then (refusedCode, d)
    else efOverride d.host.ovrIsle (lo32 v) at_ (ovrLock d) d
  else if ix < 0x4200 then svcObject (ix % 256 / 16) (ix % 16) l d
  else (0, forUpTo 17 (fun h d => (fieldWrite ⟨nrwReg (ix % 16) (0x180 + 4 * h), 0, 16⟩ (leAt l (2 * h) 2) at_ d).2) d)

/-- A command bit written beside a register's stored word. -/
def pulse (a : Nat) (bits : Word) (at_ : Nat) (d : Dev) : Word × Dev :=
  match decodeAddr a with
  | none => (0, d)
  | some l => match regDefAt l with | none => (0, d) | some r => regWrite l ((d.rd a &&& rwMask r) ||| bits) at_ d

/-- Own objects of fabric, captures, pair, safety, ports, feedback, ADC. -/
def writeNet (ix sub : Nat) (l : List Byte) (at_ : Nat) (d : Dev) : Word × Dev :=
  let v := leNat l
  if ix = 0x5000 then
    if sub = 12 then (if isRoot d then (0, resign d) else (refusedCode, d)) else portsWrite v d
  else if 0x5010 ≤ ix && ix < 0x5018 then
    let j := ix % 8
    if sub = 1 then
      match v with
      | 1 => let e := capArm j d; (if d.f (capState j) = 0 && e.f (capState j) = 1 then 0 else refusedCode, e)
      | 2 => (0, capTrigger j d.tide.k d)
      | 3 => (0, capRelease j d)
      | _ => (0, d)
    else if d.f (capState j) != 0 then (refusedCode, d)
    else
      let n := l.length / 4
      let d := d.modCap j fun u => { u with srcs := (List.range n).map fun i => (leAt l (4 * i) 1, leAt l (4 * i + 2) 2) }
      (0, d.setF ⟨capReg j 0, 8, 5⟩ (n - 1))
  else if ix = 0x5100 then switchOver d
  else if ix = 0x5200 then
    match sub with
    | 1 => spbWrite l d
    | 3 => confirmStart (lo32 v) d.jrn.seq d
    | 10 => (0, hostReset v d)
    | _ => (0, classBAck v d)
  else if ix < 0x5304 then
    mpoWrite (ix % 4) 0 (fset (lo32 v) 0 1 (d.f (mpoEn (ix % 4)))) d
  else if ix < 0x5314 then
    let a := encReg (ix % 4) 0
    match sub with
    | 5 => pulse a 0x20 at_ (d.wr (encReg (ix % 4) 0x10) (lo32 v))
    | 6 => pulse a 0x10 at_ d
    | _ => pulse a 0x40 at_ d
  else if sub = 6 then
    adcRegWrite (adcsReg (ix - 0x5410) 0x1C) ⟨.adcs, ix - 0x5410, 0x1C⟩ (lo32 v) d
  else (0, { d with host := { d.host with engBase := tput (fun _ => 0x3F800000) d.host.engBase (ix - 0x5410) v } })

/-- Own objects of the journal, the window, publications and subscriptions. -/
def writeHost (ix sub : Nat) (l : List Byte) (at_ : Nat) (d : Dev) : Word × Dev :=
  let v := leNat l
  if ix = 0x5800 then
    (0, { d with jrn := if sub = 4 then { d.jrn with cursor := v } else { d.jrn with txQuery := v } })
  else if ix = 0x5F00 then
    if sub = 1 then (0, { d with host := { d.host with window := v } })
    else if d.mode != 2 then (refusedCode, d)
    else let r := windowAccess true v at_ d; (r.1, r.2.2)
  else if ix < 0x6800 then (0, modPub (ix % 64) (fun u => match sub with
    | 1 => { u with enable := v != 0 }
    | 2 => { u with period := v }
    | 3 => { u with fields := named l }
    | _ => { u with dests := (List.range (l.length / 20)).map fun i => (leAt l (20 * i) 2, leAt l (20 * i + 4) 16) }) d)
  else (0, modSub (ix % 64) (fun u => match sub with
    | 1 => { u with source := v, seq := none, state := 0 }
    | 2 => { u with check := v }
    | 3 => { u with targets := (named l).map fun x => (x.1, x.2.1) }
    | 4 => { u with droop := l }
    | _ => { u with ageLimit := v }) d)

def writeOwn (ix sub : Nat) (l : List Byte) (img : Option PlanImage) (at_ : Nat) (d : Dev) : Word × Dev :=
  if ix < 0x3000 then writeDevice ix sub l img d
  else if ix < 0x5000 then writePlant ix sub l at_ d
  else if ix < 0x5800 then writeNet ix sub l at_ d
  else writeHost ix sub l at_ d

/-- Step 6 (R489, R490, R496, 12 R360): the mode and the domain. Writes of BOOT and of the mirror pass it. -/
def modeCheck (chan ix sub : Nat) (o : Obj) (d : Dev) : Bool :=
  let host := chan = 1 || chan = 2 || chan = 3
  d.domOn (objDomain ix o) &&
    (!host || ((o.acc != .rwc || d.mode = 2) && (o.acc != .rws || d.mode = 2 || d.mode = 3) &&
      !(d.red.paired && d.mode = 3 && ix != 0x5100 && !(ix = 0x2000 && sub = 2))))

/-- R491: a write through the checks of Table DIC-4 to its effect; what fails changes nothing but the flags its chapter names. -/
def applyObj (chan ix sub typ : Nat) (l : List Byte) (img : Option PlanImage) (inTx : Bool) (at_ : Nat) (d : Dev) : Word × Dev :=
  match checks ix sub typ l inTx d with
  | .error c => (c, d)
  | .ok o =>
    if !modeCheck chan ix sub o d then (refusedCode, d)
    else match o.src with
      | .fld x m a => fieldWrite x ((leNat l - a) / m) at_ d
      | .regs as => wordsWrite (as.zip (valueWords as.length l)) at_ d
      | .fixed _ => (0x06010002, d)
      | .own => writeOwn ix sub l img at_ d

/-- 19 R567: has a covered field changed? -/
def coveredDiff (a b : Dev) : Bool :=
  let cov (x : Nat) (w : Word) : Word := match decodeAddr x with
    | some l => if cfcBlock l.blk then (match regDefAt l with | some r => w &&& coverMask r | none => 0) else 0
    | none => 0
  ((a.regs ++ b.regs).map (·.1)).any fun x => cov x (a.rd x) != cov x (b.rd x)
def renewIf (was d : Dev) : Dev := if coveredDiff was d then cfcRenew d else d

/-- What follows the response in progress (Table DIC-12, 20 Table MPT-2). -/
def settle (d : Dev) : Dev :=
  match d.pow.after with
  | 0 => d
  | n => let d := { d with pow := { d.pow with after := 0 } }; if n = 1 then enterBoot 3 (d.count (pwrCnt 2)) else enterDormant 0 d

/-- 18 R524: is the object's write journalled? -/
def journalled (ix sub : Nat) : Bool := !(ix = 0x5800 && (sub = 4 || sub = 7))

/-- The value area's 8 bytes of the object (18 Table JRN-2). -/
def moreOf (ix sub : Nat) (d : Dev) : List Byte :=
  if ix = 0x2000 && sub = 0x10 then leBytes 8 ((d.plan.staged.map (·.gen)).getD 0)
  else if ix = 0x5200 && sub = 3 then leBytes 8 ((freeBank d).getD 0)
  else []

/-- The confirmation, whose result comes with the end of its burn (13 R400). -/
def isConfirm (ix sub : Nat) : Bool := ix = 0x5200 && sub = 3

/-- 18 R527: one write: the checks, its journal entry, its effect, its result; `none` where the result is awaited. -/
def writeOne (o : Origin) (e : Ent) (at_ : Nat) (d : Dev) : Option Word × Dev :=
  let rising := d.pow.rising
  let j := journalled e.index e.sub
  let d := if j then jPending o e.index e.sub e.typ 0 false crc32c e.value (moreOf e.index e.sub d) d else d
  let q := d.jrn.seq
  let r := applyObj o.chan e.index e.sub e.typ e.value e.image false at_ d
  let d := if e.index = 0x5F00 then r.2 else renewIf d r.2
  let d := busSettle rising at_ d
  if isConfirm e.index e.sub && r.1 = 0 then (none, d) else (some r.1, if j then jDone q r.1 d else d)

/-! ### Transactions (R506 to R509, 18 R538, R539) -/

/-- The codes with which staging reports its outcome (03 Table ISL-12). -/
def stageOutcome (e : Ent) (c : Word) : Bool := e.index = 0x2000 && e.sub = 0x10 && 0x0A300001 ≤ c && c ≤ 0x0A300008

/-- R508: every entry checked as if the earlier ones were applied: the number and the code of the first that fails. -/
def txCheck (chan : Nat) (at_ : Nat) : List Ent → Nat → Dev → Option (Nat × Word)
  | [], _, _ => none
  | e :: t, i, d =>
    let r := applyObj chan e.index e.sub e.typ e.value e.image true at_ d
    if r.1 != 0 && !stageOutcome e r.1 then some (i, r.1) else txCheck chan at_ t (i + 1) r.2

/-- R508, 20 R571, 06 R158: what the refusal of an entry marks, though nothing of the commit is applied. -/
def refusedMarks (o : Origin) (e : Ent) (at_ : Nat) (d : Dev) : Dev :=
  let r := applyObj o.chan e.index e.sub e.typ e.value e.image true at_ d
  if r.1 = 0 then d else r.2

/-- R508, 18 R538: the entries applied in order, each with its journal entry, which keeps the outcome of staging. -/
def txApply (o : Origin) (tx at_ : Nat) : List Ent → Dev → Dev
  | [], d => d
  | e :: t, d =>
    let d := jPending o e.index e.sub e.typ tx true crc32c e.value (if isConfirm e.index e.sub then moreOf e.index e.sub d else []) d
    let q := d.jrn.seq
    let r := applyObj o.chan e.index e.sub e.typ e.value e.image true at_ d
    let d := if isConfirm e.index e.sub && r.1 = 0 then r.2 else jDone q r.1 r.2
    let staged := e.index = 0x2000 && e.sub = 0x10 && r.1 = 0
    let d := if staged then jRewrite q (fun y => { y with value := (y.value.take 8 ++ moreOf e.index e.sub d).take 16 }) d else d
    txApply o tx at_ t d

/-- The place of an object among the entries. -/
def placeOf (sub : Nat) (l : List Ent) : Option Nat := l.findIdx? fun e => e.index = 0x2000 && e.sub = sub

/-- The value area of a TX entry. -/
def txArea (n fail kc : Nat) : List Byte := leBytes 2 n ++ leBytes 2 fail ++ leBytes 6 kc ++ leBytes 6 0

/-- R508, 18 R538, R539, 03 R95: a transaction is committed: its result and the failing entry's number. A commit request that R86 refuses
gives the transaction its code. -/
def txCommit (o : Origin) (tx : Nat) (es : List Ent) (at_ : Nat) (d : Dev) : Word × Nat × Dev :=
  let was := d
  let d := jAppend { kind := 2, st := 0, result := 0xFFFFFFFF, chan := o.chan, source := o.source, txId := tx, value := txArea es.length 0xFFFF 0 } d
  let q := d.jrn.seq
  match txCheck o.chan at_ es 0 d with
  | some (i, c) => (c, i, jRewrite q (fun y => { y with result := c, st := 1, value := txArea es.length i 0 }) (refusedMarks o (es.getD i ⟨0, 0, 0, [], none⟩) at_ d))
  | none =>
    let d := busSettle was.pow.rising at_ (renewIf was (txApply o tx at_ es d))
    match placeOf 0x12 es, placeOf 0x17 es with
    | some _, some g =>
      let kc := (d.rd (islcReg 0x10)).toNat + 2 ^ 32 * (d.rd (islcReg 0x14)).toNat
      let r := commitRequest (d.rd (islcReg 0x1C)).toNat kc (some q) false d
      if r.1 = 0 then
        (0, 0xFFFF, jRewrite q (fun z => { z with result := 0, st := 1, maskRef := 0xFFFF, value := txArea es.length 0xFFFF r.2.plan.kc }) r.2)
      else (r.1, g, jRewrite q (fun z => { z with result := r.1, st := 1, value := txArea es.length g 0 }) r.2)
    | _, _ => (0, 0xFFFF, jRewrite q (fun z => { z with result := 0, st := 1 }) d)

/-- 03 R85, 00 R5: an image is written to 0x2000:10, the one entry of a transaction (the object is RWT, 03 Table ISL-19): checked, staged under a
generation or refused, and journalled with its result. -/
def execPlanImageWrite (o : Origin) (bytes : List Byte) (i : PlanImage) (s : State) : Host.Outcome State Fault Refusal :=
  runCore s fun d =>
    (txCommit o d.jrn.nextTx [⟨0x2000, 0x10, 0xF, bytes, some i⟩] 0 { d with jrn := { d.jrn with nextTx := d.jrn.nextTx + 1 } }).2.2

end Sys2Proof.Machine
end

