-- ==== Sys2Proof/Machine/Harbour.lean ====
section
/-! DEFINITION. The hosts' protocols (17): Harbour sessions, requests and transactions, forwarded requests (11 R346, R347), the Ethernet port,
the register window. -/
namespace Sys2Proof.Machine

def hbrF (off lo w : Nat) : Fld := ⟨primAddr .hbr 0 off, lo, w⟩
def hbrStat (i : Nat) : Fld := hbrF 4 i 1
/-- Counters of HBR_CNT: 0 AUTH_FAIL, 1 REPLAY, 2 reassembly errors, 3 sessions expired. -/
def hbrCnt (i : Nat) : Fld := hbrF 0x1C (8 * i) 8

/-- The dictionary is served: PD_2 on, the supervisor running, BOOT over (20 Table MPT-1, 01 R32). -/
def hostUp (d : Dev) : Bool := d.domOn 2 && 2 ≤ d.mode && !d.pow.held && !d.pow.restart
def ethUp (d : Dev) : Bool := hostUp d && d.flag (hbrF 0 0 1)
/-- The count of 2.5 ns now. -/
def now (at_ : Nat) (d : Dev) : Nat := d.tide.abs + at_

/-! ### Authentication (R500, R501) -/

/-- R498: a datagram whose length fits, in this version. -/
def lenOk (m : HbMsg) : Bool := m.version = 1 && m.lenField = m.body.length && m.lenField ≤ 1400 && m.target < 4096

/-- The tag of a message under a key. -/
def tagOk (key : List Byte) (typ : Nat) (m : HbMsg) : Bool :=
  m.tag = hbTag key (hbHeader typ m.session m.seq m.req m.target m.lenField m.tx (b2n m.first + 2 * b2n m.last) ++ m.body)

/-- Failures of an address within the last second. -/
def recentFails (ip at_ : Nat) (d : Dev) : Nat := d.host.ips.countP fun x => x.1 = ip && decide (now at_ d < x.2 + 400000000)
/-- R501: 16 failures within 1 s ban the address. -/
def lockout (ip at_ : Nat) (d : Dev) : Dev :=
  if 16 ≤ recentFails ip at_ d && !d.host.bans.contains ip then { d with host := { d.host with bans := d.host.bans ++ [ip] } } else d
/-- R501: a message fails authentication. -/
def authFail (ip at_ : Nat) (d : Dev) : Dev :=
  let d := (d.raise (hbrStat 2)).count (hbrCnt 0)
  lockout ip at_ { d with host := { d.host with ips := (d.host.ips.filter fun x => decide (now at_ d < x.2 + 400000000)) ++ [(ip, now at_ d)] } }
/-- R501. -/
def execLockout (ip at_ : Nat) (s : State) : Host.Outcome State Fault Refusal := runCore s fun d => if d.domOn 2 then lockout ip at_ d else d
/-- R501: the ban has stood for `elapsed` s. -/
def execLockoutExpiry (ip elapsed : Nat) (s : State) : Host.Outcome State Fault Refusal := runCore s fun d =>
  if elapsed < 10 then d
  else { d with host := { d.host with bans := d.host.bans.filter (· != ip), ips := d.host.ips.filter fun x => x.1 != ip } }

/-! ### Sessions (R500 to R503) -/

/-- A session ID in use by none: the one drawn, or the lowest free. -/
def freshId (c : Nat) (d : Dev) : Nat :=
  let used (n : Nat) : Bool := d.host.sessions.any fun x => x.id = n
  if used c then ((List.range 9).find? fun i => !used (i + 1)).getD 8 + 1 else c

/-- Table DIC-7: the response to SESSION_OPEN, tagged with K_h. -/
def openReply (ip req : Nat) (code : Word) (nonce : List Byte) (sid idle : Nat) (d : Dev) : Dev :=
  d.emit (.harbour ip 47130 (hbMessage (keyInForce d) 1 0 0 req 0 7
    (leBytes 4 code.toNat ++ nonce ++ leBytes 4 sid ++ leBytes 2 idle ++ leBytes 2 0)))

/-- R500, R502, R503: SESSION_OPEN. -/
def sessionOpen (m : HbMsg) (at_ : Nat) (d : Dev) : Dev :=
  let key := keyInForce d
  let zero := key.all (· = 0)
  if !ethUp d || !lenOk m || d.host.bans.contains m.ip then d
  else if m.session != 0 || m.body.length != 20 || !tagOk key 1 m then authFail m.ip at_ d
  else if zero && d.mode != 2 then openReply m.ip m.req 0x0A100001 (List.replicate 16 0) 0 0 d
  else if 8 ≤ d.host.sessions.length then openReply m.ip m.req 0x05040005 (List.replicate 16 0) 0 0 d
  else
    let n := d.draw (2 ^ 128)
    let i := n.2.draw (2 ^ 32 - 1)
    let d := i.2
    let sid := freshId (i.1 + 1) d
    let nonce := leBytes 16 n.1
    let ks := hmac key (([0x48, 0x52, 0x42, 0x31] : List Byte) ++ slice m.body 0 16 ++ nonce ++ leBytes 4 sid)
    let x : Session := { id := sid, client := leAt m.body 16 4, ip := m.ip, key := ks, zero := zero, last := 0 }
    let d := { d with host := { d.host with sessions := d.host.sessions ++ [x] } }
    openReply m.ip m.req 0 nonce sid (d.f (hbrF 0x14 0 10)) d
/-- R500. -/
def execSessionOpen (m : HbMsg) (at_ : Nat) (s : State) : Host.Outcome State Fault Refusal := runCore s (sessionOpen m at_)

/-- R502: a session closes, and its open transaction is aborted. -/
def closeSession (sid : Nat) (d : Dev) : Dev :=
  { d with host := { d.host with sessions := d.host.sessions.filter fun x => x.id != sid
                                 txs := d.host.txs.filter fun t => t.session != sid
                                 tmoTx := d.host.tmoTx.filter fun t => t.2 != sid
                                 remote := d.host.remote.filter fun r => r.session != sid } }
/-- R502: no message accepted for `elapsed` s. -/
def execSessionIdleExpiry (sid elapsed : Nat) (s : State) : Host.Outcome State Fault Refusal := runCore s fun d =>
  if (sessionOf sid d).isSome && d.f (hbrF 0x14 0 10) ≤ elapsed then closeSession sid ((d.raise (hbrStat 5)).count (hbrCnt 3)) else d

/-! ### Executing a request (R498, R505 to R508) -/

/-- R499: the entries of a body, in order; `none` where it does not hold whole entries. `n` bounds their number. -/
def parseEnts : Nat → List Byte → Option (List Ent)
  | _, [] => some []
  | 0, _ => none
  | n + 1, l =>
    let len := leAt l 4 4
    let pad := (len + 3) / 4 * 4
    if l.length < 8 + pad then none
    else (parseEnts n (l.drop (8 + pad))).map fun t => ⟨leAt l 0 2, leAt l 2 1, leAt l 3 1, slice l 8 len, none⟩ :: t
/-- An entry with its value as bytes. -/
def entBytes (ix sub typ : Nat) (v : List Byte) : List Byte :=
  leBytes 2 ix ++ leBytes 1 sub ++ leBytes 1 typ ++ leBytes 4 v.length ++ v ++ List.replicate ((4 - v.length % 4) % 4) 0

/-- READ: the entries' results and values. -/
def readEnts (at_ : Nat) : List Ent → Dev → List Byte × Dev
  | [], d => ([], d)
  | e :: t, d =>
    let r := readObj e.index e.sub at_ d
    let rest := readEnts at_ t r.2.2.2
    (leBytes 4 r.1.toNat ++ entBytes e.index e.sub r.2.1 r.2.2.1 ++ rest.1, rest.2)

def findTx (tx owner : Nat) (d : Dev) : Option TxU := d.host.txs.find? fun t => t.id = tx && t.session = owner
/-- R507: why a transaction is not there. -/
def txGone (tx owner : Nat) (d : Dev) : Word := if d.host.tmoTx.contains (tx, owner) then 0x0A100006 else 0x0A100004
def dropTx (tx : Nat) (d : Dev) : Dev := { d with host := { d.host with txs := d.host.txs.filter fun t => t.id != tx } }
/-- The bytes that the open transactions hold. -/
def txBytes (d : Dev) : Nat := (d.host.txs.flatMap fun t => t.ents.map fun e => e.value.length).sum

/-- R506: TX_OPEN. -/
def txOpen (owner : Nat) (d : Dev) : List Byte × Dev :=
  if d.host.txs.any fun t => t.session = owner then (leBytes 4 0x0A100005 ++ leBytes 4 0, d)
  else if 4 ≤ d.host.txs.length then (leBytes 4 0x05040005 ++ leBytes 4 0, d)
  else
    let n := d.jrn.nextTx
    (leBytes 4 0 ++ leBytes 4 n, { d with jrn := { d.jrn with nextTx := n + 1 }, host := { d.host with txs := d.host.txs ++ [⟨n, owner, []⟩] } })

/-- R506, R507: TX_WRITE of one entry. -/
def txWrite (tx owner : Nat) (e : Ent) (d : Dev) : Word × Dev :=
  match findTx tx owner d with
  | none => (txGone tx owner d, d)
  | some t =>
    match checks e.index e.sub e.typ e.value true d with
    | .error c => (c, d)
    | .ok _ =>
      if 64 ≤ t.ents.length || 1048576 < txBytes d + e.value.length then (0x05040005, d)
      else (0, { d with host := { d.host with txs := d.host.txs.map fun u => if u.id = tx then { u with ents := u.ents ++ [e] } else u } })

/-- A request of Table DIC-7 on the dictionary: the body of its response, `none` where it is awaited. A body that holds no whole entry gets
0x0607_0010 (DESIGN CHOICE: R498 and R499 name no code for it). -/
def perform (o : Origin) (typ tx owner : Nat) (body : List Byte) (image : Option PlanImage) (at_ : Nat) (d : Dev) : Option (List Byte) × Dev :=
  let word (c : Word) : Option (List Byte) := some (leBytes 4 c.toNat)
  match typ with
  | 0x10 =>
    match parseEnts 32 body with
    | some (e :: t) => let r := readEnts at_ (e :: t) d; (some r.1, r.2)
    | _ => (word 0x06070010, d)
  | 0x11 =>
    match parseEnts 1 body with
    | some [e] => let r := writeOne o { e with image := image } at_ d; (r.1.bind word, r.2)
    | _ => (word 0x06070010, d)
  | 0x20 => let r := txOpen owner d; (some r.1, r.2)
  | 0x21 =>
    match parseEnts 1 body with
    | some [e] => let r := txWrite tx owner { e with image := image } d; (word r.1, r.2)
    | _ => (word (if (findTx tx owner d).isNone then txGone tx owner d else 0x06070010), d)
  | 0x22 =>
    match findTx tx owner d with
    | none => (some (leBytes 4 (txGone tx owner d).toNat ++ leBytes 2 0xFFFF ++ leBytes 2 0), d)
    | some t =>
      let r := txCommit o tx t.ents at_ (dropTx tx d)
      (some (leBytes 4 r.1.toNat ++ leBytes 2 r.2.1 ++ leBytes 2 0), r.2.2)
  | _ =>
    match findTx tx owner d with
    | none => (word (txGone tx owner d), d)
    | some _ => (word 0, dropTx tx d)

/-- 11 R346: the request goes to its target in ferries of up to 496 bytes. -/
def forwardRequest (s : Session) (typ req tx target : Nat) (body : List Byte) (d : Dev) : Dev :=
  if d.fab.addr = 0 || unreachable target d then respond s.id typ req tx (leBytes 4 0x0A100007) d
  else
    let id := d.host.nextRemote
    let ps := partsOf 496 body
    let d := { d with host := { d.host with nextRemote := id + 1, remote := d.host.remote ++ [⟨id, s.id, req, typ, tx, target⟩] } }
    forEach ((List.range ps.length).zip ps) (fun x d =>
      d.emit (.send (.addr target) 0x30 (16 + x.2.length) (.dicReq id typ tx x.1 (x.1 = 0) (x.1 + 1 = ps.length) x.2))) d

/-- A whole request of a session: here, or at its target. -/
def serve (s : Session) (typ : Nat) (m : HbMsg) (body : List Byte) (image : Option PlanImage) (at_ : Nat) (d : Dev) : Dev :=
  match typ with
  | 2 => closeSession s.id (respond s.id 2 m.req m.tx (leBytes 4 0) d)
  | 3 => respond s.id 3 m.req m.tx (leBytes 4 0 ++ leBytes 8 d.tide.time) d
  | _ =>
    if m.target != 0 && m.target != d.fab.addr then forwardRequest s typ m.req m.tx m.target body d
    else
      let r := perform ⟨1, s.client⟩ typ m.tx s.id body image at_ d
      match r.1 with
      | some b => settle (respond s.id typ m.req m.tx b r.2)
      | none => { r.2 with host := { r.2.host with asker := some (.harbour m.req s.id typ) } }

/-- R499: the partial value of a session is discarded. -/
def partFail (s : Session) (p : PartIn) (d : Dev) : Dev :=
  respond s.id p.typ p.req p.tx (leBytes 4 0x08000020) (modSession s.id (fun x => { x with part := none }) (d.count (hbrCnt 2)))

/-- R499: a message with a whole body, or a part of one. -/
def assemble (s : Session) (typ : Nat) (m : HbMsg) (image : Option PlanImage) (at_ : Nat) (d : Dev) : Dev :=
  if m.first then
    let d := match s.part with | some p => partFail s p d | none => d
    if m.last then serve s typ m m.body image at_ d
    else modSession s.id (fun x => { x with part := some ⟨m.req, typ, m.body, m.seq, m.tx⟩ }) d
  else
    match s.part with
    | none => respond s.id typ m.req m.tx (leBytes 4 0x08000020) (d.count (hbrCnt 2))
    | some p =>
      if p.req != m.req || p.typ != typ || m.seq != p.seq + 1 || 1048600 < p.body.length + m.body.length then partFail s p d
      else if m.last then serve s typ m (p.body ++ m.body) image at_ (modSession s.id (fun x => { x with part := none }) d)
      else modSession s.id (fun x => { x with part := some { p with body := p.body ++ m.body, seq := m.seq } }) d

/-- A request that this session has under way. -/
def underWay (s : Session) (req : Nat) (d : Dev) : Bool :=
  (d.host.remote.any fun r => r.session = s.id && r.req = req) ||
    (match d.host.asker with | some (.harbour r i _) => r = req && i = s.id | _ => false)

/-- R501, R505: a session message: authenticated, accepted, answered from what is kept, or executed. -/
def request (typ : Nat) (m : HbMsg) (image : Option PlanImage) (at_ : Nat) (d : Dev) : Dev :=
  let d := d.atInstant at_
  if !ethUp d || !lenOk m then d
  else match sessionOf m.session d with
    | none => authFail m.ip at_ d
    | some s =>
      if !tagOk s.key typ m then authFail m.ip at_ d
      else if m.seq ≤ s.last then (d.raise (hbrStat 3)).count (hbrCnt 1)
      else
        let d := modSession s.id (fun x => { x with last := m.seq }) d
        match s.kept.find? fun k => k.req = m.req && decide (now at_ d < k.at_ + 4000000000) with
        | some k => sendResponse s.id k.typ m.req m.tx k.body d
        | none => if underWay s m.req d then d else assemble s typ m image at_ d

/-- R502. -/
def execSessionClose (m : HbMsg) (at_ : Nat) (s : State) : Host.Outcome State Fault Refusal := runCore s (request 2 m none at_)
/-- R498. -/
def execKeepalive (m : HbMsg) (at_ : Nat) (s : State) : Host.Outcome State Fault Refusal := runCore s (request 3 m none at_)
/-- R498. -/
def execRead (m : HbMsg) (at_ : Nat) (s : State) : Host.Outcome State Fault Refusal := runCore s (request 0x10 m none at_)
/-- R491. -/
def execWrite (m : HbMsg) (at_ : Nat) (s : State) : Host.Outcome State Fault Refusal := runCore s (request 0x11 m none at_)
/-- R506. -/
def execTxOpen (m : HbMsg) (at_ : Nat) (s : State) : Host.Outcome State Fault Refusal := runCore s (request 0x20 m none at_)
/-- R507; `image`: what the value of 0x2000:10 spells. -/
def execTxWrite (m : HbMsg) (image : Option PlanImage) (at_ : Nat) (s : State) : Host.Outcome State Fault Refusal := runCore s (request 0x21 m image at_)
/-- R508. -/
def execTxCommit (m : HbMsg) (at_ : Nat) (s : State) : Host.Outcome State Fault Refusal := runCore s (request 0x22 m none at_)
/-- R508. -/
def execTxAbort (m : HbMsg) (at_ : Nat) (s : State) : Host.Outcome State Fault Refusal := runCore s (request 0x23 m none at_)

/-- R507: no message for the open transaction for `elapsed` s. -/
def execTransactionTimeout (tx elapsed : Nat) (s : State) : Host.Outcome State Fault Refusal := runCore s fun d =>
  match d.host.txs.find? fun t => t.id = tx with
  | none => d
  | some t =>
    if elapsed < d.f (hbrF 0x14 16 6) then d
    else
      let d := (dropTx tx d).raise (hbrStat 6)
      { d with host := { d.host with tmoTx := d.host.tmoTx ++ [(tx, t.session)] } }

/-- R499: `elapsed` ms since the last part of a session's value. -/
def execHarbourPartTimeout (sid elapsed : Nat) (s : State) : Host.Outcome State Fault Refusal := runCore s fun d =>
  match sessionOf sid d with
  | some x => (match x.part with | some p => if 100 < elapsed then partFail x p d else d | none => d)
  | none => d

/-! ### Forwarded requests (R505, 11 R346, R347) -/

/-- A gateway's answer to the host whose request it forwarded. -/
def remoteAnswer (r : RemoteU) (body : List Byte) (d : Dev) : Dev :=
  respond r.session r.typ r.req r.tx body { d with host := { d.host with remote := d.host.remote.filter fun x => x.id != r.id } }
/-- R505: `elapsed` ms since the request was forwarded. -/
def execRemoteTimeout (id elapsed : Nat) (s : State) : Host.Outcome State Fault Refusal := runCore s fun d =>
  match d.host.remote.find? fun r => r.id = id with
  | some r => if 1000 ≤ elapsed then remoteAnswer r (leBytes 4 0x0A100008) d else d
  | none => d

def dropPart (src : Nat) (reply : Bool) (d : Dev) : Dev :=
  { d with fab := { d.fab with parts := d.fab.parts.filter fun p => !(p.src = src && (p.typ = 0) = reply) } }
def partOf (src : Nat) (reply : Bool) (d : Dev) : Option Partial := d.fab.parts.find? fun p => p.src = src && (p.typ = 0) = reply

/-- R346: a partial message is discarded; its sender, or the host, learns of it. -/
def reasmFail (p : Partial) (d : Dev) : Dev :=
  let d := dropPart p.src (p.typ = 0) (d.raise (stpTStat 7))
  if p.typ = 0 then (match d.host.remote.find? fun r => r.id = p.id && r.target = p.src with
    | some r => remoteAnswer r (leBytes 4 0x08000020) d
    | none => d)
  else replyTo p.src p.id (leBytes 4 0x08000020) d

/-- R346: a part joins the message of its source: the whole body once the last has come. -/
def joinPart (p : Partial) (first last : Bool) (d : Dev) : Option (List Byte) × Dev :=
  let reply := decide (p.typ = 0)
  let put (x : Partial) (d : Dev) : Option (List Byte) × Dev :=
    if last then (some x.body, dropPart x.src reply d) else (none, { dropPart x.src reply d with fab := { (dropPart x.src reply d).fab with parts := (dropPart x.src reply d).fab.parts ++ [x] } })
  if first then
    let d := match partOf p.src reply d with | some q => reasmFail q d | none => d
    put { p with next := 1 } d
  else match partOf p.src reply d with
    | none => (none, reasmFail p d)
    | some q =>
      if q.id != p.id || q.next != p.next || 1048576 < q.body.length + p.body.length then (none, reasmFail q d)
      else put { q with body := q.body ++ p.body, next := q.next + 1 } d

/-- R347: a whole request from a gateway: answered from store, under way, or executed. -/
def remoteRequest (src id typ tx : Nat) (body : List Byte) (image : Option PlanImage) (at_ : Nat) (d : Dev) : Dev :=
  let d := d.atInstant at_
  let known := typ = 0x10 || typ = 0x11 || (0x20 ≤ typ && typ ≤ 0x23)
  match d.fab.replies.find? fun r => r.addr = src && r.id = id && decide (now at_ d < r.at_ + 4000000000) with
  | some r => sendReply src id r.body d
  | none =>
    if !known || d.host.asker = some (.gateway src id) then d
    else
      let r := perform ⟨3, src⟩ typ tx (2 ^ 32 + src) body image at_ d
      match r.1 with
      | some b => settle (replyTo src id b r.2)
      | none => { r.2 with host := { r.2.host with asker := some (.gateway src id) } }

/-- R346, R347: a DIC_REQ ferry from gateway `src`. -/
def execDicReqRx (src : BitVec 12) (id typ tx seq : Nat) (first last : Bool) (body : List Byte) (image : Option PlanImage) (crcOk : Bool) (at_ : Nat)
    (s : State) : Host.Outcome State Fault Refusal := runCore s fun d =>
  let d := consume 0x30 d
  if !crcOk || !hostUp d || typ = 0 then d
  else
    let r := joinPart ⟨src.toNat, id, typ, tx, body, seq⟩ first last d
    match r.1 with
    | some b => remoteRequest src.toNat id typ tx b image at_ r.2
    | none => r.2

/-- R346: a DIC_RSP ferry from target `src`. -/
def execDicRspRx (src : BitVec 12) (id seq : Nat) (first last : Bool) (body : List Byte) (crcOk : Bool) (s : State) :
    Host.Outcome State Fault Refusal := runCore s fun d =>
  let d := consume 0x31 d
  match d.host.remote.find? fun r => r.id = id && r.target = src.toNat with
  | none => d
  | some q =>
    if !crcOk || !hostUp d then d
    else
      let r := joinPart ⟨src.toNat, id, 0, 0, body, seq⟩ first last d
      match r.1 with
      | some b => remoteAnswer q b r.2
      | none => r.2

/-- R346: `elapsed` ms since the last ferry of a message from `src`. -/
def execReassemblyTimeout (src : BitVec 12) (reply : Bool) (elapsed : Nat) (s : State) : Host.Outcome State Fault Refusal := runCore s fun d =>
  match partOf src.toNat reply d with
  | some p => if 100 < elapsed then reasmFail p d else d
  | none => d

/-! ### Ethernet (R497) -/

/-- R497: the Ethernet link. -/
def execEthernetLinkChange (up : Bool) (s : State) : Host.Outcome State Fault Refusal := runCore s fun d =>
  if d.domOn 2 then d.setF (hbrStat 0) (b2n up) else d

/-- R497: the MAC address: 0x02, then UID[39:0], most significant byte first. -/
def macBytes : List Byte := (0x02 : Byte) :: (leBytes 5 (ownUid % 2 ^ 40)).reverse

/-- R497: the IPv6 link-local address of the MAC address, as RFC 4291 forms it (PRESUMED: the rule does not say how). -/
def linkLocalBytes : List Byte :=
  ([0xFE, 0x80] : List Byte) ++ List.replicate 6 0 ++ [0x00] ++ (macBytes.drop 1).take 2 ++ [0xFF, 0xFE] ++ macBytes.drop 3

/-- R497, R518: the addresses in force: the IPv4 address; the link-local and the global IPv6 address. -/
def isOwn4 (a : BitVec 32) (d : Dev) : Bool := a = d.host.netEth.headD 0
def isOwn6 (a : BitVec 128) (d : Dev) : Bool :=
  a.toNat = leNat linkLocalBytes || a.toNat = leNat ((d.host.netEth.drop 3).flatMap fun w => leBytes 4 w.toNat)

/-- R497: a frame with no Harbour message: answered, left alone, or discarded and counted. -/
def execEthernetFrameRx (f : EthFrame) (s : State) : Host.Outcome State Fault Refusal := runCore s fun d =>
  let v6 := d.flag (hbrF 0 3 1)
  let ok := match f with | .arp _ => true | .icmp _ => true | .icmp6 _ => v6 | .ndp _ => v6 | .other => false
  let own := match f with | .arp a => isOwn4 a d | .icmp a => isOwn4 a d | .icmp6 a => isOwn6 a d | .ndp a => isOwn6 a d | .other => false
  if !ethUp d then d
  else if !ok then d.count (hbrF 0x20 0 16)
  else if own then d.emit (.eth f macBytes) else d

/-! ### The register window (R519) -/

/-- R519. -/
def execRegisterWindowRead (at_ : Nat) (s : State) : Host.Outcome State Fault Refusal := runCore s fun d =>
  if hostUp d then
    let r := readObj 0x5F00 2 at_ d
    r.2.2.2.emit (.window r.1 r.2.2.1)
  else d
/-- R519: the outcome goes back to the host on its channel. -/
def execRegisterWindowWrite (o : Origin) (v : Word) (at_ : Nat) (s : State) : Host.Outcome State Fault Refusal := runCore s fun d =>
  if hostUp d then
    let d := d.atInstant at_
    let r := writeOne o ⟨0x5F00, 2, 4, leBytes 4 v.toNat, none⟩ at_ d
    r.2.emit (.result o.chan (r.1.getD 0))
  else d

end Sys2Proof.Machine
end

