-- ==== Sys2Proof/Machine/Publish.lean ====
section
/-! DEFINITION. Publications and subscriptions (17 R510 to R513, 10 R309), and the CANopen FD port (17 R514 to R517). -/
namespace Sys2Proof.Machine

/-! ### Publications (R510, R511) -/

/-- The values of objects at their type sizes; one that cannot be read is open. -/
def objValues (at_ : Nat) : List (Nat × Nat × Nat) → Dev → List Byte × Dev
  | [], d => ([], d)
  | (ix, sub, n) :: t, d =>
    let r := readObj ix sub at_ d
    let x := if r.1 = 0 then (r.2.2.1, r.2.2.2) else let w := r.2.2.2.draw (256 ^ n); (leBytes n w.1, w.2)
    let rest := objValues at_ t x.2
    (x.1 ++ rest.1, rest.2)

/-- Table DIC-8. -/
def pubBody (p : Nat) (u : PubU) (x : PubSample) : List Byte :=
  leBytes 2 p ++ leBytes 4 (defCheck u) ++ leBytes 6 x.k ++ leBytes 2 x.epoch ++ leBytes 4 u.seq ++ x.values

/-- R511: the key of publications. -/
def pubKey (d : Dev) : List Byte := hmac (keyInForce d) (([0x48, 0x52, 0x42, 0x50] : List Byte) ++ leBytes 8 ownUid)

/-- R510: one destination: a fabric address, an IP address. -/
def pubSend (u : PubU) (body : List Byte) (x : Nat × Nat) (d : Dev) : Dev :=
  let d := if x.1 = 0 then d else d.emit (.send (if x.1 = 0xFFF then .all else .addr x.1) 0x32 body.length (.pub body))
  if x.2 = 0 || !ethUp d then d else d.emit (.harbour x.2 47131 (hbMessage (pubKey d) 0x40 0 u.seq 0 0 3 body))

/-- R510: publication `p` is sampled at the edge of every tick that its period divides. -/
def pubSample (p : Nat) (d : Dev) : Dev :=
  let u := pubOf p d
  if !hostUp d || !u.enable || u.fields.isEmpty || d.tide.k % u.period != 0 then d
  else
    let v := objValues 0 (u.fields.map fun x => (x.1, x.2.1, typSize x.2.2)) d
    modPub p (fun u => { u with sample := some ⟨d.tide.k, d.tide.epoch, v.1⟩ }) v.2

/-- R510: publication `p` goes out with the values sampled. -/
def publish (p : Nat) (d : Dev) : Dev :=
  let u := pubOf p d
  match u.sample with
  | none => d
  | some x =>
    if !hostUp d || !u.enable then d
    else
      let d := forEach u.dests (pubSend u (pubBody p u x)) d
      modPub p (fun u => { u with seq := (u.seq + 1) % 2 ^ 32, sample := none }) d
/-- R510. -/
def execPublicationTx (p : Fin 64) (s : State) : Host.Outcome State Fault Refusal := runCore s (publish p.val)

/-! ### Subscriptions (R512, R513, 10 R309) -/

/-- The type of a target. -/
def typeOf (t : Nat × Nat) (d : Dev) : Nat := match objAt t.1 t.2 d with | .ok o => o.typ | .error _ => 0

/-- R512: values to the targets of subscription `q`, in order; one that fails is counted. -/
def subWrite (q at_ : Nat) : List (Nat × Nat) → List Byte → Dev → Dev
  | [], _, d => d
  | t :: ts, l, d =>
    let n := typSize (typeOf t d)
    let r := applyObj 0 t.1 t.2 (typeOf t d) (l.take n) none false at_ d
    let d := if r.1 = 0 then renewIf d r.2 else modSub q (fun u => { u with fails := u.fails + 1 }) r.2
    subWrite q at_ ts (l.drop n) d

/-- 10 Table FTP-9: DROOP_ACT while a subscription has its droop values. -/
def showDroop (d : Dev) : Dev := d.setF (stpStat 9) (b2n (d.host.subs.any fun e => e.2.state = 3))

/-- R512: a PUB ferry at subscription `q`. -/
def pubAccept (q at_ : Nat) (body : List Byte) (d : Dev) : Dev :=
  let u := subU q d
  let seq := leAt body 14 4
  if leAt body 2 4 != u.check then d.raise (hbrStat 9)
  else if u.seq.any fun x => !newerSeq seq x then d
  else
    let rising := d.pow.rising
    let d := subWrite q at_ u.targets (body.drop 18) d
    busSettle rising at_ (showDroop (modSub q (fun u => { u with state := 1, seq := some seq }) d))
/-- R512. -/
def execPubRx (src : BitVec 12) (body : List Byte) (crcOk : Bool) (at_ : Nat) (s : State) : Host.Outcome State Fault Refusal := runCore s fun d =>
  let d := consume 0x32 d
  if !crcOk || !hostUp d || body.length < 18 then d
  else
    let qs := (d.host.subs.map fun e => (e.1, e.2.source)).filter fun x => x.2 % 4096 = src.toNat && x.2 / 2 ^ 16 % 64 = leAt body 0 2
    forEach (qs.map (·.1)) (fun q d => pubAccept q at_ body d) d

/-- R513: `periods` publication periods since the last accepted ferry. -/
def execSubscriptionStale (q : Fin 64) (periods : Nat) (s : State) : Host.Outcome State Fault Refusal := runCore s fun d =>
  let u := subU q.val d
  if hostUp d && (u.ageLimit ≤ periods || unreachable (u.source % 4096) d) then subStale q.val d else d

/-- R309, R513: the droop values are written. -/
def droop (at_ q : Nat) (d : Dev) : Dev :=
  let u := subU q d
  if u.state != 2 then d
  else
    let rising := d.pow.rising
    let d := busSettle rising at_ (subWrite q at_ u.targets u.droop d)
    showDroop (jEvent 0xC [BitVec.ofNat 8 q, 3] (0x6800 + q) (modSub q (fun u => { u with state := 3 }) d))
/-- The partition hold in s. -/
def partHold (d : Dev) : Nat := d.f (stpF 0x18 0 10)
/-- R513: subscription `q` has been stale for `elapsed` s. -/
def execSubscriptionHoldEnd (q : Fin 64) (elapsed at_ : Nat) (s : State) : Host.Outcome State Fault Refusal := runCore s fun d =>
  if hostUp d && partHold d ≤ elapsed then droop at_ q.val d else d
/-- R309: a source has been unreachable for `elapsed` s. -/
def execPartitionHoldExpiry (src : BitVec 12) (elapsed at_ : Nat) (s : State) : Host.Outcome State Fault Refusal := runCore s fun d =>
  if !hostUp d || elapsed < partHold d || !unreachable src.toNat d then d
  else forEach (d.host.subs.filterMap fun e => if e.2.source % 4096 = src.toNat then some e.1 else none) (droop at_) d

/-! ### CANopen FD (R514 to R517) -/

def canBusOff : Fld := hbrStat 1
def canWrEn : Fld := hbrF 0 2 1
def canUp (d : Dev) : Bool := hostUp d && d.flag (hbrF 0 1 1) && !d.flag canBusOff

/-- R515: a USDO request to node `node` from the client that uses COB-ID `cob`. -/
def execUsdoRequest (node cob : Nat) (write : Bool) (ix sub typ : Nat) (value : List Byte) (image : Option PlanImage) (at_ : Nat) (s : State) :
    Host.Outcome State Fault Refusal := runCore s fun d =>
  if !canUp d || node != canNode d || (d.host.nmt != 1 && d.host.nmt != 2) then d
  else if write then
    if !d.flag canWrEn then d.emit (.usdo 0x08000021 [])
    else
      let d := d.atInstant at_
      let r := writeOne ⟨2, cob⟩ ⟨ix, sub, typ, value, image⟩ at_ d
      match r.1 with
      | some c => settle (r.2.emit (.usdo c []))
      | none => { r.2 with host := { r.2.host with asker := some .can } }
  else
    let r := readObj ix sub at_ d
    r.2.2.2.emit (.usdo r.1 r.2.2.1)

/-- The mapping of a PDO: index, subindex, bytes, in the order of its places. -/
def pdoMap (tx : Bool) (n : Nat) (d : Dev) : List (Nat × Nat × Nat) :=
  (pdoOf tx n d).map.filterMap fun e => if e.2 = 0 then none else some (e.2 / 2 ^ 16, e.2 / 256 % 256, e.2 % 256 / 8)
/-- CiA 1301: a COB-ID is valid while its bit 31 is 0. -/
def pdoValid (tx : Bool) (n : Nat) (d : Dev) : Bool := pdoCob tx n d < 2 ^ 31

/-- R516: mapped objects take their bytes; journalled where the content is new. -/
def rpdoWrite (cob at_ : Nat) (new : Bool) : List (Nat × Nat × Nat) → List Byte → Dev → Dev
  | [], _, d => d
  | (ix, sub, n) :: t, l, d =>
    let e : Ent := { index := ix, sub := sub, typ := typeOf (ix, sub) d, value := l.take n }
    let d := if new then (writeOne ⟨2, cob⟩ e at_ d).2
      else
        let rising := d.pow.rising
        busSettle rising at_ (renewIf d (applyObj 2 ix sub e.typ e.value none false at_ d).2)
    rpdoWrite cob at_ new t (l.drop n) d

/-- R516: RPDO `n` arrives. -/
def rpdoTake (n cob at_ : Nat) (data : List Byte) (d : Dev) : Dev :=
  let m := pdoMap false n d
  let len := (m.map fun x => x.2.2).sum
  if data.length < len then d
  else
    let l := data.take len
    let d := rpdoWrite cob at_ ((pdoOf false n d).last != some l) m l d
    modPdo false n (fun u => { u with last := some l, tmo := false }) d
/-- R516. -/
def execRpdoRx (cob : Nat) (data : List Byte) (at_ : Nat) (s : State) : Host.Outcome State Fault Refusal := runCore s fun d =>
  let ns := (List.range 8).filter fun n => pdoValid false n d && pdoCob false n d % 2 ^ 29 = cob
  if !canUp d || d.host.nmt != 2 || ns.isEmpty then d
  else if !d.flag canWrEn then { d with host := { d.host with rpdoLost := d.host.rpdoLost + 1 } }
  else settle (forEach ns (fun n d => rpdoTake n cob at_ data d) (d.atInstant at_))

/-- R517: no RPDO `n` for `elapsed` ms. -/
def execRpdoTmo (n : Fin 8) (elapsed : Nat) (s : State) : Host.Outcome State Fault Refusal := runCore s fun d =>
  let u := pdoOf false n.val d
  if !canUp d || d.host.nmt != 2 || !pdoValid false n.val d || u.event = 0 || elapsed < u.event || u.tmo then d
  else modPdo false n.val (fun u => { u with tmo := true }) (emcy (d.raise (hbrStat 7)))

/-- R514: an NMT command to all nodes or to this one: 1 start, 2 stop, 0x80 enter Pre-operational, 0x81 and 0x82 reset. -/
def execNmtCommand (cmd node : Nat) (s : State) : Host.Outcome State Fault Refusal := runCore s fun d =>
  let nmt (n : Nat) : Dev := { d with host := { d.host with nmt := n } }
  if !canUp d || d.host.nmt = 0 || (node != 0 && node != canNode d) then d
  else match cmd with
    | 1 => nmt 2
    | 2 => nmt 3
    | 0x80 => nmt 1
    | 0x81 | 0x82 => (nmt 1).emit (.can (0x700 + canNode d) [0])
    | _ => d

/-- R514: TPDO `n` is sent. -/
def tpdoSend (n at_ : Nat) (d : Dev) : Dev :=
  let v := objValues at_ (pdoMap true n d) d
  modPdo true n (fun u => { u with last := some v.1, syncs := 0 }) (v.2.emit (.can (pdoCob true n d % 2 ^ 29) v.1))
/-- May TPDO `n` be sent? -/
def tpdoOn (n : Nat) (d : Dev) : Bool := canUp d && d.host.nmt = 2 && pdoValid true n d && !(pdoMap true n d).isEmpty

/-- R514: a SYNC: transmission types 1 to 240 send at every such SYNC. -/
def execSyncRx (at_ : Nat) (s : State) : Host.Outcome State Fault Refusal := runCore s fun d =>
  forUpTo 8 (fun n d =>
    let u := pdoOf true n d
    if !tpdoOn n d || u.typ = 0 || 240 < u.typ then d
    else if u.syncs + 1 < u.typ then modPdo true n (fun u => { u with syncs := u.syncs + 1 }) d
    else tpdoSend n at_ d) d

/-- R514: `elapsed` units of 0.1 ms since TPDO `n` was sent: type 0xFE, on its event timer, or on a change after the inhibit time. -/
def execTpdoEventTimer (n : Fin 8) (elapsed at_ : Nat) (s : State) : Host.Outcome State Fault Refusal := runCore s fun d =>
  let u := pdoOf true n.val d
  if !tpdoOn n.val d || u.typ != 0xFE then d
  else
    let due := u.event != 0 && 10 * u.event ≤ elapsed
    let changed := u.inhibit ≤ elapsed && u.last != some (objValues at_ (pdoMap true n.val d) d).1
    if due || changed then tpdoSend n.val at_ d else d

/-- R514: `elapsed` ms since the last heartbeat. -/
def execHeartbeatTx (elapsed : Nat) (s : State) : Host.Outcome State Fault Refusal := runCore s fun d =>
  let st : Byte := match d.host.nmt with | 2 => 5 | 3 => 4 | _ => 0x7F
  if !canUp d || d.host.nmt = 0 || d.host.heartbeat = 0 || elapsed < d.host.heartbeat then d
  else d.emit (.can (0x700 + canNode d) [st])

/-- R514. -/
def execCanBusOff (s : State) : Host.Outcome State Fault Refusal := runCore s fun d =>
  if hostUp d && d.flag (hbrF 0 1 1) && !d.flag canBusOff then (d.raise canBusOff).count (hbrF 0x20 24 8) else d
/-- R514: ISO 11898-1: 128 occurrences of 11 recessive bits. -/
def execBusOffRecovery (occurrences : Nat) (s : State) : Host.Outcome State Fault Refusal := runCore s fun d =>
  if 128 ≤ occurrences then d.lower canBusOff else d

end Sys2Proof.Machine
end

