-- ==== Sys2Proof/Machine/Mirror.lean ====
section
/-! DEFINITION. What the standby of a pair applies of its partner's journal, images and commit requests (12 R359, R360, Table RED-2). -/
namespace Sys2Proof.Machine

/-- Table RED-2: objects that are not mirrored, or that reach the standby by another path: device commands, string state, pair, safety, motor
ports, feedback, station ADC, journal cursors, window, communication. -/
def notMirrored (ix sub : Nat) : Bool :=
  (0x1000 ≤ ix && ix < 0x2000) || (ix = 0x2000 && (sub = 2 || sub = 3 || sub = 4 || sub = 9 || sub = 0x10 || sub = 0x12 || sub = 0x17)) ||
    (0x3000 ≤ ix && ix < 0x3040 && (sub = 2 || sub = 9)) || (ix = 0x5000 && sub = 3) || ix = 0x5100 || ix = 0x5200 ||
    (0x5300 ≤ ix && ix < 0x5500) || (ix = 0x5800 && (sub = 4 || sub = 7)) || ix = 0x5F00

/-- The value of a WRITE entry: what the batch carried whole, or what the entry holds. -/
def mirValue (e : JEntry) (seen : List (Nat × List Byte)) (d : Dev) : List Byte :=
  match seen.find? fun x => x.1 = e.seq with
  | some x => x.2
  | none => if e.valueRef then e.value else e.value.take (typSize ((match objAt e.index e.sub d with | .ok o => o.typ | .error _ => 0)))

/-- R359: a command that the active device accepted is applied as its own (17 Table DIC-12: channel 4). -/
def mirApply (e : JEntry) (seen : List (Nat × List Byte)) (at_ : Nat) (d : Dev) : Dev :=
  if e.kind != 1 || e.st != 1 || e.result != 0 || notMirrored e.index e.sub then d
  else
    let rising := d.pow.rising
    let r := applyObj 4 e.index e.sub e.typ (mirValue e seen d) none true at_ d
    busSettle rising at_ (renewIf d r.2)

/-- The state of the copy held of an entry, 1 where there is none. -/
def copyState (e : JEntry) (d : Dev) : Nat :=
  match d.jrn.slots.find? fun x => x.2.mirrored && x.2.origSeq = e.seq && x.2.origEpoch = e.epoch with
  | some x => x.2.st
  | none => 1

/-- R359: the items of a ferry, in order. -/
def mirItems (at_ : Nat) : List MirItem → List (Nat × List Byte) → Dev → Dev
  | [], _, d => d
  | .entry e v :: t, seen, d =>
    let was := copyState e d
    let r := mirEntry e d
    let d := if r.2 || was = 0 then mirApply e seen at_ r.1 else r.1
    mirItems at_ t (if seen.any fun x => x.1 = e.seq then seen else (e.seq, v) :: seen) d
  | .image g i :: t, seen, d => mirItems at_ t seen (stageAs g i d).2
  | .commit g kc :: t, seen, d => mirItems at_ t seen (commitRequest g kc none true d).2

/-- R359, R361, R369. -/
def execMirCfgRx (items : List MirItem) (crcOk : Bool) (at_ : Nat) (s : State) : Host.Outcome State Fault Refusal := runCore s fun d =>
  let d := consume 0x22 d
  if !crcOk || !d.red.paired || d.mode != 3 || d.pow.restart then d
  else showRed at_ (mirItems at_ items [] { d with red := { d.red with mirAt := some (now at_ d) } })

end Sys2Proof.Machine
end

