-- ==== Sys2Proof/Machine/Boot.lean ====
section
/-! DEFINITION. The stages of BOOT (20 Table MPT-3), in their order: each event ends the stage in progress and is ignored in another. -/
namespace Sys2Proof.Machine

/-- The next stage begins. -/
def nextStage (d : Dev) : Dev := { d with pow := { d.pow with stage := d.pow.stage + 1 } }
/-- R576: a stage fails: BOOT stops with its code (1 FUSE, 2 BIST, 3 FW). -/
def bootFail (code : Nat) (d : Dev) : Dev :=
  { (d.setF (pwrF 4 20 2) code).count (pwrCnt 3) with pow := { d.pow with stage := 0 } }

/-! ### Fuses (R577 to R579) -/

/-- R577: bank `b` as it loads: a word with an uncorrectable error reads as ones. -/
def loadBank (bad : List (Nat × Nat)) (b : Nat) (l : List Byte) : List Byte := l.mapIdx fun i x => if bad.contains (b, i / 4) then 0xFF else x
/-- R579: word `w` agrees among at least two copies that read without an uncorrectable error. -/
def factoryWord (bad : List (Nat × Nat)) (banks : List (List Byte)) (w : Nat) : Bool :=
  match (List.range 4).filter fun b => !bad.contains (b, w) with
  | a :: b :: t => (b :: t).all fun c => slice (banks.getD c []) (4 * w) 4 = slice (banks.getD a []) (4 * w) 4
  | _ => false
/-- R579: the factory words hold, with a variant of Table MPT-5. -/
def factoryOk (bad : List (Nat × Nat)) (banks : List (List Byte)) : Bool :=
  (List.range 6).all (fun i => factoryWord bad banks (58 + i)) &&
    banks.any (fun b => b.getD 255 0 = 0x56 || b.getD 255 0 = 0x28)
/-- 13 R397, R578: a bank counts as used where a bit of its bytes 0 to 231 is burned. -/
def bankUsed (l : List Byte) : Bool := (l.take 232).any (· != 0)

/-- R577, R579: the fuse load. -/
def bootFuses (corrected : Nat) (bad : List (Nat × Nat)) (fuses : List (List Byte)) (d : Dev) : Dev :=
  let banks := fuses.mapIdx (loadBank bad)
  let bits (p : Nat → List Byte → Bool) : Nat := ((List.range 4).map fun b => b2n (p b (banks.getD b [])) * 2 ^ b).sum
  let ok := factoryOk bad banks
  let d := { d with banks := banks }
  let d := d.wr (primAddr .fuse 0 0x800) (lo32 (bits (fun _ => bankUsed) + 16 * bits bankMarked + 256 * b2n ok))
  let d := d.wr (primAddr .fuse 0 0x80C) (lo32 (min corrected 65535 + 2 ^ 16 * min bad.length 255))
  if ok then nextStage d else bootFail 1 d

/-! ### The set-up check (13 R397) -/

/-- The bank in force: the highest-numbered with a complete marker. -/
def bankInForce (d : Dev) : Option Nat := ((List.range 4).filter fun b => bankMarked b (d.banks.getD b [])).getLast?

/-- R397: both channels check the bank in force. -/
def setupCheck (d : Dev) : Dev :=
  let used := ((List.range 4).map fun b => b2n (bankUsed (d.banks.getD b [])) * 2 ^ b).sum
  let d := d.setF ⟨safReg 0, 8, 4⟩ used
  match bankInForce d with
  | none => safetyUpdate ((d.setF ⟨safReg 0, 0, 4⟩ 0xF).setF ⟨safReg 0, 4, 1⟩ 0)
  | some b =>
    let l := d.banks.getD b []
    let ok := bankChecks l
    let d := ((d.setF ⟨safReg 0, 0, 4⟩ b).setF ⟨safReg 0, 4, 1⟩ (b2n ok)).wr (safReg 8) (lo32 (leAt l 192 4))
    if ok then safetyUpdate { d with saf := { d.saf with spb := l.take 192 } } else classA 5 d

/-! ### The supervisor's stages -/

/-- R579: the firmware key hash: the copies that agree, of the banks that were read. -/
def firmwareHash (d : Dev) : List Byte :=
  let l := d.banks.map fun b => slice b 240 15
  (l.find? fun x => 2 ≤ l.countP fun y => y = x).getD []

/-- R580: the slot that runs: of those that verify the higher version, slot A on equal ones. -/
def bootFirmware (slotA slotB : List Byte) (d : Dev) : Dev :=
  let a := slotVersion (firmwareHash d) slotA
  let b := slotVersion (firmwareHash d) slotB
  let pick : Option (Bool × Nat) := match a, b with
    | none, none => none
    | some x, none => some (false, x)
    | none, some y => some (true, y)
    | some x, some y => if x < y then some (true, y) else some (false, x)
  match pick with
  | none => bootFail 3 d
  | some (slot, v) =>
    let d := d.setF (pwrF 4 19 1) (b2n slot)
    let d := if a.isNone || b.isNone then d.raise (pwrStat 18) else d
    nextStage (d.wr (primAddr .pwr 0 0x14) (lo32 v))

/-- R576: the cause in the journal's event of BOOT. -/
def bootCause (n : Nat) : Nat := match n with | 3 => 0 | 4 => 1 | 5 => 2 | _ => 3

/-- R581: the domains that the cell map needs; those that the variant never powers stay off. -/
def imageDomains (i : PlanImage) (d : Dev) : Nat :=
  let need (n : Nat) : Bool := i.isles.any fun x => x.entry.role != 0 && x.num < 256 &&
    (n = 4 + x.num / 64 || (x.entry.role != 3 && (n = 8 || (n = 9 && 8 ≤ x.entry.ring))))
  ((List.range 8).map fun j => b2n (need (4 + j) && !(isHalf d && (j = 2 || j = 3))) * 2 ^ (4 + j)).sum

/-- R585: every domain requested comes up within the stage. -/
def bootPower (i : PlanImage) (d : Dev) : Dev :=
  let want := imageDomains i d ||| (d.rd (primAddr .pwr 0 8)).toNat
  let d := (domainRequest (lo32 want) d).2
  forEach d.pow.rising (fun n d => domainUp n 0 d) d

/-- R581: staging in BOOT, journalled with channel 0; of the image's bytes the entry holds length and CRC, which nothing here gives. -/
def bootStage (i : PlanImage) (d : Dev) : Word × Dev :=
  let r := stageImage i d
  let w := r.2.draw (2 ^ 64)
  let gen := if r.1 = 0 then (r.2.plan.staged.map (·.gen)).getD 0 else 0
  (r.1, jAppend { kind := 1, st := 1, result := r.1, valueRef := true, index := 0x2000, sub := 0x10, typ := 0xF,
                  value := leBytes 8 w.1 ++ leBytes 8 gen } w.2)

/-- R581: the configuration image: its writes in list order, its domains, its cell map, which is loaded and committed at the earliest tick. -/
def bootConfig (c : ConfigImage) (d : Dev) : Dev :=
  let d := forEach c.writes (fun e d => (writeOne ⟨0, 0⟩ e 0 d).2) d
  let d := forEach d.pow.rising (fun n d => domainUp n 0 d) d
  match c.plan with
  | none => nextStage d
  | some i =>
    let r := bootStage i (bootPower i d)
    if r.1 != 0 then nextStage r.2
    else
      let d := forEach (r.2.isles.map (·.1)) (fun n d => loadDone n true d) r.2
      let d := nextStage d
      (commitRequest ((d.plan.staged.map (·.gen)).getD 0) 0 none false d).2

/-- 12 R354: RED_PREF, from the fuse field and the strap. -/
def bootPref (strap : Bool) (d : Dev) : Dev :=
  let p := leAt d.saf.spb 2 1 % 4
  d.wr (primAddr .red 0 0x1C) (lo32 (p + 4 * b2n strap + 8 * b2n (p = 1 || (p = 0 && strap))))

/-- 19 R566: the reference is committed and HOLD cleared. -/
def bootReference (d : Dev) : Dev :=
  let c := sweepCrc d
  let d := cfcRefWrite c (d.wr (primAddr .cfc 0 0xC) c)
  releaseHold { d.lower (cfcStat 5) with bus := { d.bus with commit := false, renew := false } }

/-- Table MPT-2: the end of BOOT; the tick line starts at 0 (02 R38, R47). -/
def bootEnd (d : Dev) : Dev :=
  let ok := d.flag ⟨safReg 0, 4, 1⟩ && !d.plan.held.isEmpty
  let d := bootReference d
  let d := { d with tide := { d.tide with k := 0, time := 0, epoch := 0, k0 := 0 }
                    pow := { d.pow with stage := 0, autoRun := ok && d.flag (pwrF 0 0 1) && !d.flag pairEn } }
  showRed 0 (setMode (if ok then 3 else 2) 3 false d)

/-- R575 to R581: an event of BOOT. -/
def bootStep (e : BootEvent) (fuses : List (List Byte)) (d : Dev) : Dev :=
  if d.mode != 1 || d.pow.held || d.pow.trip then d
  else match e, d.pow.stage with
    | .fuses c bad, 1 => bootFuses c bad fuses d
    | .clock, 2 => nextStage d
    | .power, 3 => nextStage ((d.raise (domStat 3)).raise (domStat 2))
    | .bist ok, 4 => if ok then nextStage (setupCheck d) else bootFail 2 d
    | .sweep one two l, 5 => nextStage (forEach l (fun w d => uncorrectable 4 0 w .free 0 d) (correctedCount 4 two true (correctedCount 4 one false d)))
    | .firmware a b, 6 => bootFirmware a b d
    | .supervisor, 7 =>
      nextStage (jEvent 1 [BitVec.ofNat 8 (d.f (pwrF 4 8 4)), 1, BitVec.ofNat 8 (bootCause (d.f (pwrF 4 24 4)))] 0x2000 (jrnBoot d))
    | .config (some c), 8 => bootConfig c d
    | .config none, 8 => { d with pow := { d.pow with stage := 10 } }
    | .commit, 9 => if d.plan.state = 3 then d else nextStage d
    | .done strap, 10 => bootEnd (bootPref strap d)
    | _, _ => d
/-- R575. -/
def execBootStageDone (e : BootEvent) (s : State) : Host.Outcome State Fault Refusal := runLoad s (bootStep e)

end Sys2Proof.Machine
end

