-- ==== Sys2Proof/Machine/TickEdge.lean ====
section
/-! DEFINITION. The tick edge (21 R604): what closes the tick that ends, the label of the new one, the order of Table COI-2, what goes out, and
what opens the new tick. -/
namespace Sys2Proof.Machine

/-! ### The tick that ends -/

/-- 08 R240: a record that has not come by the last cycle of the tick is missing; a ring in DOWN misses those of all its nodes. -/
def missingRecords (d : Dev) : Dev :=
  forEach (ringsHeld d) (fun r d => forUpTo (nodesOf r d) (fun i d => recordMissing r i (d.tc - 1) d) d) d

/-- 06 R166, 02 R55, 11 R340: what the end of the tick ends, where it has not been reported; the lanes have sent what the tick gave them (07). -/
def endTick (d : Dev) : Dev :=
  hiBerEdge (lanesEdge d.tc (freeSent (d.tide.abs + d.tc) (missingRecords (causewayDeadline (guardExpiry (forEach d.heldStrings (fun s d => barrierDue s d.tc d) d))))))

/-- 08 Table NRW-5: the ENUM request of a tick, and a new tick for records, service frames and the sample train; 09 R281: driver writes due
go once the node is DISABLED. -/
def ringTick (r : Nat) (d : Dev) : Dev :=
  let d := d.modRing r fun u =>
    { u with svcSent := false, trainSent := false, nodes := forUpTo 16 (fun i t => tmod (fun _ => {}) t i fun v => { v with seen := false }) u.nodes }
  let d := if d.f (nrwState r) != 1 then d else
    d.modRing r fun u => { u with
      enumTicks := min (u.enumTicks + 1) 16
      out := u.out.filter (·.purpose ≠ 2)
      jobs := u.jobs.filter (·.purpose ≠ 2) ++ [{ req := ⟨1, 0, true, 128, List.replicate 12 0, 0⟩, purpose := 2 }] }
  if d.f (nrwState r) != 3 then d
  else forUpTo (nodesOf r d) (fun i d =>
    if (rnode (d.ring r) i).drvDue && d.f (nrwNode r i 20 3) = 1 then driverJobs r i d else d) d

/-- 11 R342: the record of the tick that ends: tick, whether a source's isle was not refreshed, one value per source. -/
def capRecord (j : Nat) (d : Dev) : Dev :=
  let st := d.f (capState j)
  if st != 1 && st != 2 then d
  else d.modCap j fun u =>
    let n := d.f ⟨capReg j 0, 8, 5⟩ + 1
    let srcs := (List.range n).map fun i => u.srcs.getD i (0, 0)
    let rec_ : CapRec := { tick := d.tide.k, stale := srcs.any fun x => (d.isle x.1).istate != 4,
                           vals := srcs.map fun x => source d (d.isle x.1) x.2 }
    let room := capBuf j d / capRecLen j d
    { u with recs := (u.recs ++ [rec_]).drop (u.recs.length + 1 - room) }

/-! ### The pair's heartbeat and the order of Table COI-2 -/

/-- 10 R299: edges as own candidate. -/
def candidateCount (d : Dev) : Dev :=
  candidateEdge { d with fab := { d.fab with cand := if ownCandidate d then min (d.fab.cand + 1) 8 else 0 } }

/-- 12 R362 to R366, R358: what the edge decides on the window that ends. -/
def pairEdge (d : Dev) : Dev := digestRound crc32c (holdCheck (revertFail (partnerLoss (closeWindow d))))

/-- Table COI-2 step 1: automatic mode changes, then the command due (20 Table MPT-2). `rival`: the partner received a RUN command for the
same edge. -/
def modeStep (rival : Bool) (d : Dev) : Dev := modeDue rival (bothRun (autoRun d))

/-- Table COI-2 step 2. -/
def controlStep (d : Dev) : Dev :=
  let d := handBack (takeover (takeoverDone d))
  if d.red.paired && d.mode = 3 then standbyApply d else d

/-- Table COI-2 step 3: the queues of every string; a paired standby only records (12 R360). -/
def evalStep (d : Dev) : Dev := if d.red.paired && d.mode = 3 then d else forEach d.heldStrings evalQueue d

/-- 06 R159: another tick at or above V_pre. -/
def preCount (s : Nat) (d : Dev) : Dev :=
  let v : Int := d.f (srtVpre s)
  d.modStr s fun u => if u.sstate = 1 && u.preTick < d.tide.abs then
    { u with preRun := if v ≤ u.vals.getD 2 0 then min (u.preRun + 1) 16 else 0 } else u

/-- 06 R161: SAFE announced by another segment. -/
def announcedSafe (s : Nat) (d : Dev) : Dev :=
  match (d.str s).annSafe with
  | none => d
  | some c =>
    let d := d.modStr s fun u => { u with annSafe := none }
    if (d.str s).sstate = 1 || (d.str s).sstate = 2 then stringSafe s c d else d

/-- 06 R161: the head's state, on a segment device, from the edge it names; the device enters PRECHARGE or RUN in LOCKED alone (02 R46). -/
def headStateDue (s : Nat) (d : Dev) : Dev :=
  match (d.str s).headState with
  | none => d
  | some (x, k) =>
    if d.tide.k < k then d
    else
      let d := d.modStr s fun u => { u with headState := none }
      let st := (d.str s).sstate
      let live := st = 1 || st = 2
      if x = st then d
      else if x = 0 then d.modStr s fun u => { u with sstate := 0 }
      else if x = 3 then (if live then stringSafe s 0x18 d else d)
      else if st = 3 || d.mode != 4 || d.tide.tstate != 2 then d
      else
        let d := if st = 0 then enterPrecharge s d else d
        d.modStr s fun u => { u with sstate := x }

/-- 13 R391: a SAFE command in place of the host. -/
def safeRequestDue (s : Nat) (d : Dev) : Dev :=
  if !(d.str s).safeReq then d
  else
    let d := d.modStr s fun u => { u with safeReq := false }
    if (d.str s).sstate = 1 || (d.str s).sstate = 2 then announceSafe s 0x18 (stringSafe s 0x18 d) else d

/-- Table COI-2 step 4 for one string. -/
def autoString (s : Nat) (d : Dev) : Dev :=
  headStateDue s (safeRequestDue s (announcedSafe s (preTmo s d.tide.abs (preDone s (preCount s d)))))
def autoStep (d : Dev) : Dev := forEach d.heldStrings autoString (stringSafePairs d)

/-- Table COI-2 step 5: the host's string commands. -/
def hostStep (d : Dev) : Dev := forEach d.heldStrings stringCommandDue d

/-- 09 R281: the nodes whose driver writes differ between two states of the plan store. -/
def driversChanged (old d : Dev) : Dev :=
  forEach (ringsOn d) (fun r d => forUpTo (nodesOf r d) (fun i d =>
    if drvConf r i old = drvConf r i d then d else d.modRnode r i fun u => { u with drvDue := (drvConf r i d).isSome }) d) d

/-- Table COI-2 step 6: a commit whose flips are done completes, and one due flips. `react`: the strings whose evaluation reacted. -/
def commitStep (react : List Nat) (d : Dev) : Dev := driversChanged d (commitFlips react (commitComplete d))

/-! ### Step 7: what goes out -/

/-- 08 R228, 12 R363, R366: MASTER. -/
def masterBit (d : Dev) : Bool :=
  !d.red.paired || (d.mode = 4 && !(match d.red.kh with | some (k, gives) => gives && decide (k ≤ d.tide.k) | none => false))

/-- 08 R225 rule 1: the ring's block grid at an edge: its first boundary after it is free within a block time. -/
def gridAt (r : Nat) (d : Dev) : Dev :=
  let x := d.draw (blockPs (d.lane r).rate)
  x.2.modLane r fun u => { u with free := x.1 }
/-- 08 R225 rule 1: LAUNCH of a frame that starts `ps` after the edge, 1/16 ns, rounded half up. -/
def launchOf (ps : Nat) : Nat := (4 * ps + 125) / 250

/-- 08 R225 rule 1, R226, R234, R254, 12 R360: the tide frame of a ring whose lane takes data; its START block leaves at the first boundary. -/
def tideFrame (r : Nat) (d : Dev) : Dev :=
  let d := autoWake r d
  if !takesData r d then d
  else
  let d := gridAt r d
  let start := startAt r 0 d
  let halts := (d.ring r).halts % 65536 ||| standbyHalts r d
  let n := nodesOf r d
  let ready := d.f (nrwState r) = 3
  let en := match shadows d with
    | some h => if ready then (h.rings.getD r (0, 0, 0)).1 % 65536 else 0
    | none => bitsOf n fun i => enableBit r i d
  let byp := match shadows d with
    | some h => if ready then (h.rings.getD r (0, 0, 0)).2.1 % 65536 else 0
    | none => bitsOf n fun i => bypassBit r i d
  let woke := d.isles.filterMap fun e => if e.2.entry.role = 2 && e.2.entry.ring = r && en.testBit e.2.entry.node &&
    !d.flag (nrwHdrEn r e.2.entry.node) then some e.1 else none
  let d := d.wr (nrwReg r 0x0C) (BitVec.ofNat 32 (en + 65536 * byp))
  let d := forEach woke clearOverride (d.wr (nrwReg r 0x10) (BitVec.ofNat 32 halts))
  let h : TideHdr := ⟨r, d.tide.time, d.tide.k, d.tide.epoch, d.tc, launchOf start, masterBit d, d.red.paired, d.tide.tstate = 0, en, byp, halts⟩
  laneFlow r (start + 1) (sendFrame r 0 1 0 true 32 (crcAfter (tideBody h)) (d.emit (.tideFrame r h)))

/-- Table COI-2 step 7: headers and PAIR_HB from the result; the mirror; the alive wire. -/
def outStep (d : Dev) : Dev := showRed 0 (aliveOut (sendMirror (sendHb (forEach (ringsOn d) tideFrame d))))

/-! ### The new tick -/

/-- 03 R68, R71: VALID of slot k mod 2 is cleared and every active isle enters WAIT. -/
def openIsle (n : Nat) (d : Dev) : Dev :=
  d.modIsle n fun u =>
    let u := if d.tide.k % 2 = 0 then { u with slot0 := { u.slot0 with valid := false } } else { u with slot1 := { u.slot1 with valid := false } }
    { u with istate := if u.istate = 0 then 0 else 1, gone := false, posted := false }

/-- 06 R166, R168: a new tick of the sorter. -/
def openString (s : Nat) (d : Dev) : Dev :=
  d.modStr s fun u => { u with
    list := none, delivered := false, cwPast := false
    segs := forEach (otherSegs u) (fun i t => tmod (fun _ => {}) t i fun g => { g with now := none, prev := g.now, parts := [] }) u.segs }

/-- 05 R150: the override words of a string that has left OFF. -/
def leftOff (s : Nat) (d : Dev) : Dev := forEach (d.cells s) clearOverride d

/-- 13 R393: the halt-matrix injections of the tick that ends: the powered rings in `fails` did not show the decision of their policy. -/
def haltInjection (fails : Nat) (d : Dev) : Dev :=
  let now := bitsOf 16 fun r => fails.testBit r && d.domOn (if r < 8 then 8 else 9)
  let twice := now &&& d.saf.hmFails != 0
  let d := { d with saf := { d.saf with hmFails := now } }
  let d := forUpTo 16 (fun r d => if now.testBit r then classB 1 none d else d) d
  whenDo twice safeAll d

/-- 10 R308: PARTITION for a device of a split string that is unreachable and whose list was missing in the 2 ticks that end. -/
def partitionCheck (s : Nat) (d : Dev) : Dev :=
  let u := d.str s
  if split u && (otherSegs u).any (fun i => 2 ≤ (segOf u i).missing && unreachable (u.defn.devices.getD i 0) d) then fqEnter s 0x13 0x1FF 0 d else d

/-- 13 R392: a trip output goes high with any request of an assigned string and low when all of them are OFF. -/
def tripOutput (d : Dev) : Dev :=
  let d := forEach d.heldStrings (fun s d => d.modStr s fun u => if u.sstate = 0 then { u with trip := false } else u) d
  let level (o : Nat) : Bool :=
    let l := d.heldStrings.filter fun s => tripOf d s = o
    (l.any fun s => (d.str s).trip) || (d.flag ⟨safReg 0x1C, o, 1⟩ && l.any fun s => (d.str s).sstate != 0)
  d.wr (safReg 0x1C) (BitVec.ofNat 32 (b2n (level 0) + 2 * b2n (level 1)))

/-- 15 R453, 16 R471, 20 R593: feedback and results are latched; the battery gate reads its slot. -/
def latchEdge (d : Dev) : Dev := batteryGate (adcPublish (forUpTo 4 encLatch d))

/-! ### The edge -/

/-- 03 R88: the evaluation at edge `k` reacts to an entry of the string made since the edge before, here or announced (06 R176). -/
def reactsAt (k : Nat) (u : StringU) : Bool :=
  reacts u || ((u.sstate = 1 || u.sstate = 2) && u.anns.any fun a => a.ka ≤ k && k ≤ a.tick + 1 && !u.excl.contains a.pos)

/-- The strings, commands and commits of Table COI-2. -/
def settleEdge (rival : Bool) (d : Dev) : Dev :=
  let off := d.heldStrings.filter fun s => (d.str s).sstate = 0
  let d := controlStep (modeStep rival d)
  let held := d.heldStrings
  let react := held.filter fun s => reactsAt d.tide.k (d.str s)
  let d := hostStep (autoStep (evalStep d))
  let d := forEach (off.filter fun s => (d.str s).sstate != 0) leftOff d
  outStep (commitStep react d)

/-- 08 R264: the declared loads after a change of the plan or of T. -/
def loadsShown (was d : Dev) : Dev :=
  if d.tc != was.tc || d.plan.flips != was.plan.flips then forEach (ringsOn d) showLoad d else d

/-- R604: `rival`: the pair partner received a RUN command for this edge (12 R355); `hm`: the rings whose halt-matrix injection of the
ending tick was judged wrongly. -/
def tickEdge (rival : Bool) (hm : Nat) (d : Dev) : Dev :=
  if !d.domOn 2 || d.pow.held || d.mode = 0 then d
  else
    let was := d
    let d := { d with jrn := { d.jrn with at_ := 0 } }
    let d := forUpTo 8 capRecord (endTick d)
    let d := syncTx (candidateCount (tideAdvance d))
    let d := haltInjection hm (forEach d.heldStrings respreadEnd d)
    let d := forEach (ringsOn d) ringTick d
    let d := pairEdge (forEach d.heldStrings partitionCheck (disabledEntries d))
    let d := loadsShown was (tripOutput (settleEdge rival d))
    let d := forEach d.heldStrings openString (forEach (d.isles.map (·.1)) openIsle d)
    forEach (d.host.pubs.map (·.1)) pubSample (safetyUpdate (latchEdge d))
/-- R604. -/
def execTickEdge (rival : Bool) (hm : BitVec 16) (s : State) : Host.Outcome State Fault Refusal := runCore s (tickEdge rival hm.toNat)

end Sys2Proof.Machine
end

