-- ==== Sys2Proof/Machine/Dispatch.lean ====
section
/-! DEFINITION. The command dispatch: one arm per constructor, each a direct call of its meaning. -/
namespace Sys2Proof.Machine

def exec (i : Instr) (s : State) : Host.Outcome State Fault Refusal :=
  match i with
  | .mainClockFault m elapsed => Sys2Proof.Machine.execMainClockFault m elapsed s
  | .mainClockRelease elapsed => Sys2Proof.Machine.execMainClockRelease elapsed s
  | .classAClockFault scc sk elapsed => Sys2Proof.Machine.execClassAClockFault scc sk elapsed s
  | .referenceLossOfLock ref => Sys2Proof.Machine.execReferenceLossOfLock ref s
  | .scrubAccess mem bank c bits use at_ => Sys2Proof.Machine.execScrubAccess mem bank c bits use at_ s
  | .eccWriteBack mem bank word => Sys2Proof.Machine.execEccWriteBack mem bank word s
  | .supervisorRestartDone => Sys2Proof.Machine.execSupervisorRestartDone s
  | .supervisorWatchdog => Sys2Proof.Machine.execSupervisorWatchdog s
  | .tickEdge rival hm => Sys2Proof.Machine.execTickEdge rival hm s
  | .tidePeriodWrite t => Sys2Proof.Machine.execTidePeriodWrite t s
  | .tideGuardWrite g => Sys2Proof.Machine.execTideGuardWrite g s
  | .stepReq => Sys2Proof.Machine.execStepReq s
  | .syncFerryRx p m rx crcOk => Sys2Proof.Machine.execSyncFerryRx p m rx crcOk s
  | .acquireTimeout => Sys2Proof.Machine.execAcquireTimeout s
  | .lockedSyncTimeout => Sys2Proof.Machine.execLockedSyncTimeout s
  | .holdoverExp => Sys2Proof.Machine.execHoldoverExp s
  | .delayRequestTimer p => Sys2Proof.Machine.execDelayRequestTimer p s
  | .delayReqRx p t2 => Sys2Proof.Machine.execDelayReqRx p t2 s
  | .delayRespRx p t2 t3 t4 => Sys2Proof.Machine.execDelayRespRx p t2 t3 t4 s
  | .tickGuardExpiry => Sys2Proof.Machine.execTickGuardExpiry s
  | .isleStall n at_ => Sys2Proof.Machine.execIsleStall n at_ s
  | .sampleContainerRx r i_ filled crcOk parity rec at_ ue => Sys2Proof.Machine.execSampleContainerRx r i_ filled crcOk parity rec at_ ue s
  | .nodeSilent r i_ at_ => Sys2Proof.Machine.execNodeSilent r i_ at_ s
  | .isleWake n at_ injFail => Sys2Proof.Machine.execIsleWake n at_ injFail s
  | .chRange n c at_ => Sys2Proof.Machine.execChRange n c at_ s
  | .chStale n c at_ => Sys2Proof.Machine.execChStale n c at_ s
  | .oscWindowEnd n j at_ => Sys2Proof.Machine.execOscWindowEnd n j at_ s
  | .swStale n j at_ => Sys2Proof.Machine.execSwStale n j at_ s
  | .latRst n => Sys2Proof.Machine.execLatRst n s
  | .planImageWrite o bytes i_ => Sys2Proof.Machine.execPlanImageWrite o bytes i_ s
  | .isleLoadDone n ok => Sys2Proof.Machine.execIsleLoadDone n ok s
  | .abort => Sys2Proof.Machine.execAbort s
  | .commit => Sys2Proof.Machine.execCommit s
  | .efOverrideWrite n w f => Sys2Proof.Machine.execEfOverrideWrite n w f s
  | .stringCmdOff x => Sys2Proof.Machine.execStringCmdOff x s
  | .stringCmdPrecharge x hops others => Sys2Proof.Machine.execStringCmdPrecharge x hops others s
  | .stringCmdRun x others => Sys2Proof.Machine.execStringCmdRun x others s
  | .stringCmdSafe x => Sys2Proof.Machine.execStringCmdSafe x s
  | .bypassRequest x pos at_ => Sys2Proof.Machine.execBypassRequest x pos at_ s
  | .barrierDeadline x at_ => Sys2Proof.Machine.execBarrierDeadline x at_ s
  | .rankingDelivered x at_ => Sys2Proof.Machine.execRankingDelivered x at_ s
  | .respreadComplete x => Sys2Proof.Machine.execRespreadComplete x s
  | .preDone x => Sys2Proof.Machine.execPreDone x s
  | .preTmo x at_ => Sys2Proof.Machine.execPreTmo x at_ s
  | .segLost x at_ => Sys2Proof.Machine.execSegLost x at_ s
  | .cwListRx h part parts tot cells at_ => Sys2Proof.Machine.execCwListRx h part parts tot cells at_ s
  | .cwWordRx h sstate fields integ => Sys2Proof.Machine.execCwWordRx h sstate fields integ s
  | .cwFaultRx h safe cause pos stamp at_ => Sys2Proof.Machine.execCwFaultRx h safe cause pos stamp at_ s
  | .causewayDeadline => Sys2Proof.Machine.execCausewayDeadline s
  | .blockRx n hdr x slip at_ => Sys2Proof.Machine.execBlockRx n hdr x slip at_ s
  | .losAssert n pin => Sys2Proof.Machine.execLosAssert n pin s
  | .losClear n pin => Sys2Proof.Machine.execLosClear n pin s
  | .lol n => Sys2Proof.Machine.execLol n s
  | .cdrLock n => Sys2Proof.Machine.execCdrLock n s
  | .blockLock n => Sys2Proof.Machine.execBlockLock n s
  | .blockLockLoss n => Sys2Proof.Machine.execBlockLockLoss n s
  | .polarityDetect n inverted => Sys2Proof.Machine.execPolarityDetect n inverted s
  | .handshakeComplete p id0 id1 => Sys2Proof.Machine.execHandshakeComplete p id0 id1 s
  | .ringTrainingComplete r => Sys2Proof.Machine.execRingTrainingComplete r s
  | .trainTmo n elapsed => Sys2Proof.Machine.execTrainTmo n elapsed s
  | .markerLock n => Sys2Proof.Machine.execMarkerLock n s
  | .markerLockLoss n => Sys2Proof.Machine.execMarkerLockLoss n s
  | .deskewComplete p skew later => Sys2Proof.Machine.execDeskewComplete p skew later s
  | .laneRateWrite n v => Sys2Proof.Machine.execLaneRateWrite n v s
  | .lpmRequest n v => Sys2Proof.Machine.execLpmRequest n v s
  | .eidleRx n deep => Sys2Proof.Machine.execEidleRx n deep s
  | .electricalIdleExit n host burst => Sys2Proof.Machine.execElectricalIdleExit n host burst s
  | .deepIdleExit n => Sys2Proof.Machine.execDeepIdleExit n s
  | .prbsGenEn n on => Sys2Proof.Machine.execPrbsGenEn n on s
  | .chkLock n locked errors => Sys2Proof.Machine.execChkLock n locked errors s
  | .injOne n => Sys2Proof.Machine.execInjOne n s
  | .injRateFlip n => Sys2Proof.Machine.execInjRateFlip n s
  | .injPayload n => Sys2Proof.Machine.execInjPayload n s
  | .injSyncHeader n => Sys2Proof.Machine.execInjSyncHeader n s
  | .mod2wStart n => Sys2Proof.Machine.execMod2wStart n s
  | .mod2wDone n nack data => Sys2Proof.Machine.execMod2wDone n nack data s
  | .modabsChange n absent => Sys2Proof.Machine.execModabsChange n absent s
  | .laneEqWrite n v => Sys2Proof.Machine.execLaneEqWrite n v s
  | .sampleTrainTx r => Sys2Proof.Machine.execSampleTrainTx r s
  | .edgeFrameTx r at_ => Sys2Proof.Machine.execEdgeFrameTx r at_ s
  | .serviceFrameTx r at_ => Sys2Proof.Machine.execServiceFrameTx r at_ s
  | .tideEchoRx r delay ok => Sys2Proof.Machine.execTideEchoRx r delay ok s
  | .edgeEchoRx r crcOk f => Sys2Proof.Machine.execEdgeEchoRx r crcOk f s
  | .enumReplyRx r filled => Sys2Proof.Machine.execEnumReplyRx r filled s
  | .enumErr r => Sys2Proof.Machine.execEnumErr r s
  | .ringReady r => Sys2Proof.Machine.execRingReady r s
  | .serviceRequest r obj => Sys2Proof.Machine.execServiceRequest r obj s
  | .serviceReplyRx r i_ crcOk l at_ => Sys2Proof.Machine.execServiceReplyRx r i_ crcOk l at_ s
  | .svcTmo r i_ at_ => Sys2Proof.Machine.execSvcTmo r i_ at_ s
  | .enum r i_ b hd q free => Sys2Proof.Machine.execEnum r i_ b hd q free s
  | .ident r i_ b hd q => Sys2Proof.Machine.execIdent r i_ b hd q s
  | .offset r i_ b hd q v => Sys2Proof.Machine.execOffset r i_ b hd q v s
  | .nodeCfg r i_ b hd q args => Sys2Proof.Machine.execNodeCfg r i_ b hd q args s
  | .drvWr r i_ b hd q g a v => Sys2Proof.Machine.execDrvWr r i_ b hd q g a v s
  | .drvRd r i_ b hd q g a => Sys2Proof.Machine.execDrvRd r i_ b hd q g a s
  | .selftest r i_ b hd q mask alertTest passed => Sys2Proof.Machine.execSelftest r i_ b hd q mask alertTest passed s
  | .stat r i_ b hd q code => Sys2Proof.Machine.execStat r i_ b hd q code s
  | .alertRx r node cause gates crcOk at_ => Sys2Proof.Machine.execAlertRx r node cause gates crcOk at_ s
  | .haltEchoRx r node loop => Sys2Proof.Machine.execHaltEchoRx r node loop s
  | .haltEchoTimeout r node => Sys2Proof.Machine.execHaltEchoTimeout r node s
  | .haltRelease r mask at_ => Sys2Proof.Machine.execHaltRelease r mask at_ s
  | .haltPolicyWrite r i_ v => Sys2Proof.Machine.execHaltPolicyWrite r i_ v s
  | .drvCheckPeriod r => Sys2Proof.Machine.execDrvCheckPeriod r s
  | .nodeTickEdge r i_ lostA lostB => Sys2Proof.Machine.execNodeTickEdge r i_ lostA lostB s
  | .nodeTideHeaderRx r i_ b hd h arr => Sys2Proof.Machine.execNodeTideHeaderRx r i_ b hd h arr s
  | .nodeEdgeFrameRx r i_ b hd f at_ => Sys2Proof.Machine.execNodeEdgeFrameRx r i_ b hd f at_ s
  | .nodeHaltRx r i_ b target byp par crc at_ => Sys2Proof.Machine.execNodeHaltRx r i_ b target byp par crc at_ s
  | .nodeDriverReport r i_ causes gates stands => Sys2Proof.Machine.execNodeDriverReport r i_ causes gates stands s
  | .nodeSilence r i_ => Sys2Proof.Machine.execNodeSilence r i_ s
  | .nodeOrphan r i_ => Sys2Proof.Machine.execNodeOrphan r i_ s
  | .nodeBootstrapRefresh r i_ at_ => Sys2Proof.Machine.execNodeBootstrapRefresh r i_ at_ s
  | .helloTimer p => Sys2Proof.Machine.execHelloTimer p s
  | .helloRx p h crcOk => Sys2Proof.Machine.execHelloRx p h crcOk s
  | .neighbourTimeout p elapsed => Sys2Proof.Machine.execNeighbourTimeout p elapsed s
  | .portAdminWrite p v => Sys2Proof.Machine.execPortAdminWrite p v s
  | .lsaRx p l crcOk => Sys2Proof.Machine.execLsaRx p l crcOk s
  | .lsaRefresh second => Sys2Proof.Machine.execLsaRefresh second s
  | .lsaWithdraw u => Sys2Proof.Machine.execLsaWithdraw u s
  | .routeRecomputeDone => Sys2Proof.Machine.execRouteRecomputeDone s
  | .leaseReq => Sys2Proof.Machine.execLeaseReq s
  | .leaseGrant u => Sys2Proof.Machine.execLeaseGrant u s
  | .leaseRx p u a time fromRoot crcOk => Sys2Proof.Machine.execLeaseRx p u a time fromRoot crcOk s
  | .leaseRenewal => Sys2Proof.Machine.execLeaseRenewal s
  | .leaseLost => Sys2Proof.Machine.execLeaseLost s
  | .becomeRoot => Sys2Proof.Machine.execBecomeRoot s
  | .resign => Sys2Proof.Machine.execResign s
  | .epochRx p m crcOk => Sys2Proof.Machine.execEpochRx p m crcOk s
  | .partitionHoldExpiry src elapsed at_ => Sys2Proof.Machine.execPartitionHoldExpiry src elapsed at_ s
  | .mergeRx p m src crcOk => Sys2Proof.Machine.execMergeRx p m src crcOk s
  | .mergeCompletion epoch k0 period near => Sys2Proof.Machine.execMergeCompletion epoch k0 period near s
  | .ferryRx p f hdrOk lenOk trailerOk stomp at_ => Sys2Proof.Machine.execFerryRx p f hdrOk lenOk trailerOk stomp at_ s
  | .ferryTxStart p at_ => Sys2Proof.Machine.execFerryTxStart p at_ s
  | .creditRx p c limit crcOk => Sys2Proof.Machine.execCreditRx p c limit crcOk s
  | .csyncRx p c consumed crcOk => Sys2Proof.Machine.execCsyncRx p c consumed crcOk s
  | .creditSend p c at_ => Sys2Proof.Machine.execCreditSend p c at_ s
  | .csyncTimer p at_ => Sys2Proof.Machine.execCsyncTimer p at_ s
  | .creditTimeout p c elapsed at_ => Sys2Proof.Machine.execCreditTimeout p c elapsed at_ s
  | .residenceExpiry at_ => Sys2Proof.Machine.execResidenceExpiry at_ s
  | .capArm j => Sys2Proof.Machine.execCapArm j s
  | .capTrigNow j => Sys2Proof.Machine.execCapTrigNow j s
  | .capRelease j => Sys2Proof.Machine.execCapRelease j s
  | .capTrigRx kt epoch => Sys2Proof.Machine.execCapTrigRx kt epoch s
  | .captureHeld j => Sys2Proof.Machine.execCaptureHeld j s
  | .capDataTx j at_ => Sys2Proof.Machine.execCapDataTx j at_ s
  | .capAckRx j bytes => Sys2Proof.Machine.execCapAckRx j bytes s
  | .capResend j => Sys2Proof.Machine.execCapResend j s
  | .dicReqRx src id typ tx seq first last body image crcOk at_ => Sys2Proof.Machine.execDicReqRx src id typ tx seq first last body image crcOk at_ s
  | .dicRspRx src id seq first last body crcOk => Sys2Proof.Machine.execDicRspRx src id seq first last body crcOk s
  | .reassemblyTimeout src reply elapsed => Sys2Proof.Machine.execReassemblyTimeout src reply elapsed s
  | .pairHbRx h crcOk => Sys2Proof.Machine.execPairHbRx h crcOk s
  | .pairDigRx tick first digests crcOk => Sys2Proof.Machine.execPairDigRx tick first digests crcOk s
  | .pairAliveInTransition => Sys2Proof.Machine.execPairAliveInTransition s
  | .partnerLost => Sys2Proof.Machine.execPartnerLost s
  | .mirCfgRx items crcOk at_ => Sys2Proof.Machine.execMirCfgRx items crcOk at_ s
  | .mirCfgIdleTimer at_ => Sys2Proof.Machine.execMirCfgIdleTimer at_ s
  | .mirrorAgeExpiry at_ => Sys2Proof.Machine.execMirrorAgeExpiry at_ s
  | .revertHoldoffExpiry => Sys2Proof.Machine.execRevertHoldoffExpiry s
  | .revertReqRx kh crcOk => Sys2Proof.Machine.execRevertReqRx kh crcOk s
  | .revertAckRx kh crcOk => Sys2Proof.Machine.execRevertAckRx kh crcOk s
  | .revertFail => Sys2Proof.Machine.execRevertFail s
  | .switch => Sys2Proof.Machine.execSwitch s
  | .sfiAccept ch i_ b lvl => Sys2Proof.Machine.execSfiAccept ch i_ b lvl s
  | .discrepancyFault ch i_ elapsed => Sys2Proof.Machine.execDiscrepancyFault ch i_ elapsed s
  | .stoTestPulse ch p stuck => Sys2Proof.Machine.execStoTestPulse ch p stuck s
  | .readbackMismatch elapsed => Sys2Proof.Machine.execReadbackMismatch elapsed s
  | .ss1TimerExpiry ch p elapsed => Sys2Proof.Machine.execSs1TimerExpiry ch p elapsed s
  | .safetySpeedCheck p elapsed => Sys2Proof.Machine.execSafetySpeedCheck p elapsed s
  | .skerrySlsWindow p edges => Sys2Proof.Machine.execSkerrySlsWindow p edges s
  | .xchk elapsed => Sys2Proof.Machine.execXchk elapsed s
  | .wdg elapsed => Sys2Proof.Machine.execWdg elapsed s
  | .skerrySelfCheck failed => Sys2Proof.Machine.execSkerrySelfCheck failed s
  | .lockstepMismatch => Sys2Proof.Machine.execLockstepMismatch s
  | .hostReset mask => Sys2Proof.Machine.execHostReset mask s
  | .spbWrite l => Sys2Proof.Machine.execSpbWrite l s
  | .confirm o v => Sys2Proof.Machine.execConfirm o v s
  | .fuseBurnDone taken => Sys2Proof.Machine.execFuseBurnDone taken s
  | .classBAck mask => Sys2Proof.Machine.execClassBAck mask s
  | .mvLoss elapsed => Sys2Proof.Machine.execMvLoss elapsed s
  | .enReqWrite p en => Sys2Proof.Machine.execEnReqWrite p en s
  | .portSettingWrite p off v => Sys2Proof.Machine.execPortSettingWrite p off v s
  | .portWake p => Sys2Proof.Machine.execPortWake p s
  | .latchEvent p at_ => Sys2Proof.Machine.execLatchEvent p at_ s
  | .reloadPoint p at_ => Sys2Proof.Machine.execReloadPoint p at_ s
  | .tBscExpiry p elapsed => Sys2Proof.Machine.execTBscExpiry p elapsed s
  | .tripAccept p i_ lvl => Sys2Proof.Machine.execTripAccept p i_ lvl s
  | .faultInputAccept p lvl at_ => Sys2Proof.Machine.execFaultInputAccept p lvl at_ s
  | .readyTimeout p elapsed => Sys2Proof.Machine.execReadyTimeout p elapsed s
  | .toggleComplete p elapsed => Sys2Proof.Machine.execToggleComplete p elapsed s
  | .bootstrapRefresh p x at_ => Sys2Proof.Machine.execBootstrapRefresh p x at_ s
  | .delayLineCalibration p span => Sys2Proof.Machine.execDelayLineCalibration p span s
  | .quadEdge f a b at_ => Sys2Proof.Machine.execQuadEdge f a b at_ s
  | .sincosSample f sn cs at_ => Sys2Proof.Machine.execSincosSample f sn cs at_ s
  | .ampErr f => Sys2Proof.Machine.execAmpErr f s
  | .ampErrClear f => Sys2Proof.Machine.execAmpErrClear f s
  | .cableFlt f elapsed => Sys2Proof.Machine.execCableFlt f elapsed s
  | .ssiFrameStart f at_ => Sys2Proof.Machine.execSsiFrameStart f at_ s
  | .ssiFrameEnd f before low data errBit parBit high => Sys2Proof.Machine.execSsiFrameEnd f before low data errBit parBit high s
  | .ssiFlt f => Sys2Proof.Machine.execSsiFlt f s
  | .indexEvent f z => Sys2Proof.Machine.execIndexEvent f z s
  | .refArm f => Sys2Proof.Machine.execRefArm f s
  | .set f => Sys2Proof.Machine.execSet f s
  | .encFltClr f cablePresent => Sys2Proof.Machine.execEncFltClr f cablePresent s
  | .encModeWrite f m => Sys2Proof.Machine.execEncModeWrite f m s
  | .standstill f at_ => Sys2Proof.Machine.execStandstill f at_ s
  | .sequenceStart at_ => Sys2Proof.Machine.execSequenceStart at_ s
  | .conversionEnd n code => Sys2Proof.Machine.execConversionEnd n code s
  | .conversionTimeout n at_ => Sys2Proof.Machine.execConversionTimeout n at_ s
  | .adcStale n => Sys2Proof.Machine.execAdcStale n s
  | .calZero n => Sys2Proof.Machine.execCalZero n s
  | .calFs n vfs => Sys2Proof.Machine.execCalFs n vfs s
  | .calAbort n => Sys2Proof.Machine.execCalAbort n s
  | .calDone n => Sys2Proof.Machine.execCalDone n s
  | .calTimeout n => Sys2Proof.Machine.execCalTimeout n s
  | .adcFltClr c0 c1 => Sys2Proof.Machine.execAdcFltClr c0 c1 s
  | .refSelWrite v => Sys2Proof.Machine.execRefSelWrite v s
  | .refSettled elapsed => Sys2Proof.Machine.execRefSettled elapsed s
  | .refErr => Sys2Proof.Machine.execRefErr s
  | .sessionOpen m at_ => Sys2Proof.Machine.execSessionOpen m at_ s
  | .sessionClose m at_ => Sys2Proof.Machine.execSessionClose m at_ s
  | .keepalive m at_ => Sys2Proof.Machine.execKeepalive m at_ s
  | .read m at_ => Sys2Proof.Machine.execRead m at_ s
  | .write m at_ => Sys2Proof.Machine.execWrite m at_ s
  | .txOpen m at_ => Sys2Proof.Machine.execTxOpen m at_ s
  | .txWrite m image at_ => Sys2Proof.Machine.execTxWrite m image at_ s
  | .txCommit m at_ => Sys2Proof.Machine.execTxCommit m at_ s
  | .txAbort m at_ => Sys2Proof.Machine.execTxAbort m at_ s
  | .sessionIdleExpiry sid elapsed => Sys2Proof.Machine.execSessionIdleExpiry sid elapsed s
  | .transactionTimeout tx elapsed => Sys2Proof.Machine.execTransactionTimeout tx elapsed s
  | .lockout ip at_ => Sys2Proof.Machine.execLockout ip at_ s
  | .lockoutExpiry ip elapsed => Sys2Proof.Machine.execLockoutExpiry ip elapsed s
  | .harbourPartTimeout sid elapsed => Sys2Proof.Machine.execHarbourPartTimeout sid elapsed s
  | .remoteTimeout id elapsed => Sys2Proof.Machine.execRemoteTimeout id elapsed s
  | .publicationTx p => Sys2Proof.Machine.execPublicationTx p s
  | .pubRx src body crcOk at_ => Sys2Proof.Machine.execPubRx src body crcOk at_ s
  | .subscriptionStale q periods => Sys2Proof.Machine.execSubscriptionStale q periods s
  | .subscriptionHoldEnd q elapsed at_ => Sys2Proof.Machine.execSubscriptionHoldEnd q elapsed at_ s
  | .ethernetFrameRx f => Sys2Proof.Machine.execEthernetFrameRx f s
  | .usdoRequest node cob write ix sub typ value image at_ => Sys2Proof.Machine.execUsdoRequest node cob write ix sub typ value image at_ s
  | .rpdoRx cob data at_ => Sys2Proof.Machine.execRpdoRx cob data at_ s
  | .rpdoTmo n elapsed => Sys2Proof.Machine.execRpdoTmo n elapsed s
  | .nmtCommand cmd node => Sys2Proof.Machine.execNmtCommand cmd node s
  | .syncRx at_ => Sys2Proof.Machine.execSyncRx at_ s
  | .tpdoEventTimer n elapsed at_ => Sys2Proof.Machine.execTpdoEventTimer n elapsed at_ s
  | .heartbeatTx elapsed => Sys2Proof.Machine.execHeartbeatTx elapsed s
  | .busOffRecovery occurrences => Sys2Proof.Machine.execBusOffRecovery occurrences s
  | .deviceReset v => Sys2Proof.Machine.execDeviceReset v s
  | .modeCommand v => Sys2Proof.Machine.execModeCommand v s
  | .dormantReq => Sys2Proof.Machine.execDormantReq s
  | .registerWindowRead at_ => Sys2Proof.Machine.execRegisterWindowRead at_ s
  | .registerWindowWrite o v at_ => Sys2Proof.Machine.execRegisterWindowWrite o v at_ s
  | .flushTimer elapsed => Sys2Proof.Machine.execFlushTimer elapsed s
  | .flushNow => Sys2Proof.Machine.execFlushNow s
  | .flushPageDone ok => Sys2Proof.Machine.execFlushPageDone ok s
  | .registerWrite x at_ => Sys2Proof.Machine.execRegisterWrite x at_ s
  | .rcRead x at_ => Sys2Proof.Machine.execRcRead x at_ s
  | .pairLowRead x at_ => Sys2Proof.Machine.execPairLowRead x at_ s
  | .domainStallTimeout elapsed at_ => Sys2Proof.Machine.execDomainStallTimeout elapsed at_ s
  | .cfcSweepStart => Sys2Proof.Machine.execCfcSweepStart s
  | .cfcSweepDone time => Sys2Proof.Machine.execCfcSweepDone time s
  | .cfcCommit => Sys2Proof.Machine.execCfcCommit s
  | .cfcRefWrite v => Sys2Proof.Machine.execCfcRefWrite v s
  | .holdTmo elapsed => Sys2Proof.Machine.execHoldTmo elapsed s
  | .vddAonUp => Sys2Proof.Machine.execVddAonUp s
  | .powerGood elapsed => Sys2Proof.Machine.execPowerGood elapsed s
  | .bootStageDone e => Sys2Proof.Machine.execBootStageDone e s
  | .bootRetry elapsed => Sys2Proof.Machine.execBootRetry elapsed s
  | .brownout elapsed => Sys2Proof.Machine.execBrownout elapsed s
  | .resetNEdge low => Sys2Proof.Machine.execResetNEdge low s
  | .wakeTimer elapsed => Sys2Proof.Machine.execWakeTimer elapsed s
  | .domainRequest v at_ => Sys2Proof.Machine.execDomainRequest v at_ s
  | .domainReleased at_ => Sys2Proof.Machine.execDomainReleased at_ s
  | .housekeepingRound v vpp => Sys2Proof.Machine.execHousekeepingRound v vpp s
  | .thermalWarning => Sys2Proof.Machine.execThermalWarning s
  | .thermalWarningClear => Sys2Proof.Machine.execThermalWarningClear s
  | .thermalShutdown elapsed => Sys2Proof.Machine.execThermalShutdown elapsed s
  | .thermalLaneStop => Sys2Proof.Machine.execThermalLaneStop s
  | .thermalDomainRemove => Sys2Proof.Machine.execThermalDomainRemove s
  | .thermalRelease elapsed => Sys2Proof.Machine.execThermalRelease elapsed s
  | .harbourKeyWrite k => Sys2Proof.Machine.execHarbourKeyWrite k s
  | .nodeSampleTrainRx r i_ b hd avg inst temp ready => Sys2Proof.Machine.execNodeSampleTrainRx r i_ b hd avg inst temp ready s
  | .vddAonLoss => Sys2Proof.Machine.execVddAonLoss s
  | .ethernetLinkChange up => Sys2Proof.Machine.execEthernetLinkChange up s
  | .canBusOff => Sys2Proof.Machine.execCanBusOff s
  | .jtagInstructionLoad ins => Sys2Proof.Machine.execJtagInstructionLoad ins s
  | .reservedAddressRelease a => Sys2Proof.Machine.execReservedAddressRelease a s

end Sys2Proof.Machine
end

