-- ==== Sys2Proof/Safety.lean ====
section
/-! DEFINITION. The terms in which statements about runs are made: what a step may leave changed, and the invariant that every step
keeps. -/
namespace Sys2Proof.Machine

/-- From `d` to `e` nothing changed but the registers at the addresses `as`, and what the step sends out. -/
def OnlyRegs (as : List Nat) (d e : Dev) : Prop :=
  (∀ a, a ∉ as → e.rd a = d.rd a) ∧ { e with regs := d.regs, out := d.out } = d

/-- No register outside `as` changed. -/
def RegsKept (as : List Nat) (d e : Dev) : Prop := ∀ a, a ∉ as → e.rd a = d.rd a

/-- Nothing changed but string `x`. -/
def OnlyStr (x : Nat) (d e : Dev) : Prop :=
  (∀ y, y ≠ x → e.str y = d.str y) ∧ { e with strings := d.strings, out := d.out } = d

/-- Nothing at all changed; nothing goes out. -/
def Unmoved (d e : Dev) : Prop := e = { d with out := [] }

/-- The four fuse banks have their 256 bytes (13 R396, 20 R578). -/
def FuseBanks (s : State) : Prop := s.fuses.map List.length = [256, 256, 256, 256]

/-- Is bit `k` of byte `i` of fuse bank `b` burned? -/
def burnedBit (s : State) (b i k : Nat) : Bool := ((s.fuses.getD b []).getD i 0).getLsbD k

end Sys2Proof.Machine
end

