-- ==== Sys2Proof/Certificates/Slice0/Obligations.lean ====
section
/-! DEFINITION. The statements for the provers. A clause says: from every state that meets its hypotheses, the command answers a next
state, and what that state holds. -/
open Sys2Proof Sys2Proof.Machine

/-- A step takes the command at the front of the queue and runs it with the rest; every command answers a next state and leaves the queue; an
empty queue idles.
The queue of commands and the idle step are the model's own (log entries 1 and 2); R604 gives the order of events at one edge.
Rules: R604. -/
def Obligations.StepRunsTheCommandAtTheFront : Prop :=
  (∀ (s : State) (c : Instr) (rest : List Instr), s.pending = c :: rest → step s = exec c { s with pending := rest }) ∧
  (∀ s : State, s.pending = [] → step s = .next s) ∧
  (∀ (c : Instr) (s : State), ∃ t, exec c s = .next t ∧ t.pending = s.pending)

/-- After reset the device is in DORMANT, its registers hold the reset values of their tables, nothing runs, and the fuse banks are whole.
PWR_STAT 0, PWR_DOM_STAT 3, THM_CTL 0x73, THM_STAT 8, THM_BAT_CFG 0x2D0000, JRN_CTL 0x640000; no command waits; the invariant of the fuse
banks holds (the unburned banks of the reset state are the model's choice, log entry 3).
Rules: R543, R596, R597. -/
def Obligations.ResetLeavesWhatTheTablesGive : Prop :=
  (State.reset.dev.mode = 0 ∧ State.reset.dev.rd 0x40010004 = 0 ∧ State.reset.dev.rd 0x4001000C = 3 ∧ State.reset.dev.rd 0x40020000 = 0x73 ∧ State.reset.dev.rd 0x40020004 = 8 ∧
    State.reset.dev.rd 0x40020030 = 0x2D0000 ∧ State.reset.dev.rd 0x45000000 = 0x640000 ∧ State.reset.dev.rd 0x4500001C = 0) ∧
  (State.reset.pending = [] ∧ State.reset.dev.strings = [] ∧ State.reset.dev.isles = [] ∧ State.reset.dev.out = []) ∧
  (FuseBanks State.reset)

/-- Every step keeps the four fuse banks whole, and no step clears a burned bit.
For every state and every command at the front of its queue: if the four banks have their 256 bytes before the step they have them after it,
and every bit that is burned before is burned after, whatever ends or cuts a burn.
Rules: R396, R400, R578, R582. -/
def Obligations.FusesOnlyBurn : Prop :=
  (∀ s t : State, step s = .next t → FuseBanks s → FuseBanks t) ∧
  (∀ (s t : State) (b i k : Nat), step s = .next t → burnedBit s b i k = true → burnedBit t b i k = true)

/-- A main clock fault found by its monitor holds the device in reset; 1 ms of good clock releases it into BOOT; a class A clock fault stops
every port; the loss of a reference silences the eight lanes it feeds.
REF_CLK outside 20 to 30 MHz or a core clock more than 1 % off for 10 µs, or the PLL unlocked for 2 µs, outside DORMANT holds the device in
reset with every STO output inactive and nothing left of lanes, rings, isles and strings; 1 ms of good clock releases it into BOOT with that
cause, and a shorter time does nothing. a class A clock fault latches CLK_A in SAF_A_FAULT, takes every STO output inactive and leaves the
strings alone; the loss of a reference latches LOL on the lanes it feeds that are not OFF, stops their transmitters and leaves every other
lane as it is.
Rules: R19, R20, R21. -/
def Obligations.ClockFaultsStopWhatTheyFeed : Prop :=
  (∀ (s : State) (m : ClockMon) (elapsed : Nat),
      s.dev.mode ≠ 0 → s.dev.pow.held = false → mainFault m elapsed = true →
    ∃ t, exec (.mainClockFault m elapsed) s = .next t ∧
      t.dev.pow.held = true ∧ t.dev.saf.a.out = 0 ∧ t.dev.saf.b.out = 0 ∧ t.dev.lanes = [] ∧ t.dev.rings = [] ∧ t.dev.isles = [] ∧
      t.dev.strings = [] ∧ t.dev.jrn.slots = s.dev.jrn.slots) ∧
  (∀ (s : State) (m : ClockMon) (elapsed : Nat),
      mainFault m elapsed = false →
    ∃ t, exec (.mainClockFault m elapsed) s = .next t ∧
      Unmoved s.dev t.dev) ∧
  (∀ (s : State) (elapsed : Nat),
      s.dev.pow.held = true → s.dev.pow.trip = false → 1000 ≤ elapsed →
    ∃ t, exec (.mainClockRelease elapsed) s = .next t ∧
      t.dev.pow.held = false ∧ t.dev.mode = 1 ∧ t.dev.pow.stage = 1 ∧ t.dev.f ⟨0x40010004, 24, 4⟩ = 4) ∧
  (∀ (s : State) (elapsed : Nat),
      s.dev.pow.held = true → elapsed < 1000 →
    ∃ t, exec (.mainClockRelease elapsed) s = .next t ∧
      Unmoved s.dev t.dev) ∧
  (∀ (s : State) (scc sk elapsed : Nat),
      s.dev.coreOn = true → s.dev.domOn 3 = true → 10 * scc < 9 * (25 * sk) → 20000 ≤ elapsed →
    ∃ t, exec (.classAClockFault scc sk elapsed) s = .next t ∧
      t.dev.f ⟨0x4400000C, 0, 1⟩ = 1 ∧ t.dev.saf.a.out = 0 ∧ t.dev.saf.b.out = 0 ∧ t.dev.strings = s.dev.strings) ∧
  (∀ (s : State) (scc sk elapsed : Nat),
      s.dev.coreOn = true →
      (elapsed < 20000 ∨ (9 * (25 * sk) ≤ 10 * scc ∧ 10 * scc ≤ 11 * (25 * sk) ∧ 9 * scc ≤ 10 * (25 * sk) ∧ 10 * (25 * sk) ≤ 11 * scc)) →
    ∃ t, exec (.classAClockFault scc sk elapsed) s = .next t ∧
      Unmoved s.dev t.dev) ∧
  (∀ (s : State) (ref : Fin 3),
      s.dev.coreOn = true →
    ∃ t, exec (.referenceLossOfLock ref) s = .next t ∧
      (∀ n : Fin 24, n.val / 8 = ref.val → s.dev.laneOn n.val = true → t.dev.f ⟨0x42200004 + 0x400 * n.val, 8, 2⟩ = 0 ∧ (s.dev.f ⟨0x42200004 + 0x400 * n.val, 0, 4⟩ ≠ 0 → t.dev.f ⟨0x42200004 + 0x400 * n.val, 17, 1⟩ = 1)) ∧
      (∀ n : Fin 24, n.val / 8 ≠ ref.val → t.dev.lane n.val = s.dev.lane n.val))

/-- Corrected errors count and are written back; uncorrectable errors are located, counted and reacted to; the supervisor watchdog restarts the
supervisor under HOLD; the end of the restart clears both.
a scrubber slot goes on to the bank's next word, but not where a functional access takes the very word it would read; a word corrected is
counted by one or two bits and waits to be written back; an uncorrectable one shows its memory and place; that of an isle stops the isle, a
free Shoal word has no other reaction, the supervisor restarts under HOLD, a journal entry is marked damaged. the watchdog starts a restart
under HOLD while isles, strings and mode stand; the end of the restart journals it, cuts what was pending and clears HOLD.
Rules: R28, R30, R31, R32, R33, R34, R393, R566. -/
def Obligations.MemoryErrorsCountAndReact : Prop :=
  (∀ (s : State) (mem : Fin 5) (bank : Nat) (use : ShoalUse) (at_ : Nat),
      s.dev.coreOn = true → bank < bankCount mem.val → memOn mem.val bank s.dev = true →
    ∃ t, exec (.scrubAccess mem bank .scrub 0 use at_) s = .next t ∧
      t.dev = { s.dev with bus := { s.dev.bus with scrub := tput (fun _ => 0) s.dev.bus.scrub (256 * mem.val + bank) ((scrubAt mem.val bank s.dev + 1) % bankWords mem.val) }, out := [] }) ∧
  (∀ (s : State) (mem : Fin 5) (bank : Nat) (write : Bool) (use : ShoalUse) (at_ : Nat),
      s.dev.coreOn = true → bank < bankCount mem.val → memOn mem.val bank s.dev = true →
    ∃ t, exec (.scrubAccess mem bank (.both (scrubAt mem.val bank s.dev) write) 0 use at_) s = .next t ∧
      t.dev.bus.scrub = s.dev.bus.scrub ∧ OnlyRegs [] s.dev { t.dev with bus := s.dev.bus }) ∧
  (∀ (s : State) (mem : Fin 5) (bank : Nat) (use : ShoalUse) (at_ : Nat),
      s.dev.coreOn = true → bank < bankCount mem.val → memOn mem.val bank s.dev = true →
    ∃ t, exec (.scrubAccess mem bank .scrub 1 use at_) s = .next t ∧
      t.dev.f ⟨0x40000150 + 4 * mem.val, 0, 16⟩ = min (s.dev.f ⟨0x40000150 + 4 * mem.val, 0, 16⟩ + 1) 65535 ∧ t.dev.f ⟨0x40000140, mem.val, 1⟩ = 1 ∧
      t.dev.bus.writeBack = s.dev.bus.writeBack ++ [(mem.val, bank, scrubAt mem.val bank s.dev)] ∧
      RegsKept [0x40000140, 0x40000150 + 4 * mem.val] s.dev t.dev) ∧
  (∀ (s : State) (mem : Fin 5) (bank : Nat) (use : ShoalUse) (at_ : Nat),
      s.dev.coreOn = true → bank < bankCount mem.val → memOn mem.val bank s.dev = true →
    ∃ t, exec (.scrubAccess mem bank .scrub 2 use at_) s = .next t ∧
      t.dev.f ⟨0x40000150 + 4 * mem.val, 16, 8⟩ = min (s.dev.f ⟨0x40000150 + 4 * mem.val, 16, 8⟩ + 1) 255 ∧
      t.dev.bus.writeBack = s.dev.bus.writeBack ++ [(mem.val, bank, scrubAt mem.val bank s.dev)]) ∧
  (∀ (s : State) (bank word at_ : Nat),
      s.dev.coreOn = true → bank < 32 → word < 16384 →
    ∃ t, exec (.scrubAccess 1 bank (.access word false) 3 .free at_) s = .next t ∧
      t.dev.rd 0x40000148 = BitVec.ofNat 32 (bank * 2 ^ 24 + word) ∧ t.dev.f ⟨0x40000140, 16, 3⟩ = 1 ∧
      t.dev.f ⟨0x40000154, 24, 8⟩ = min (s.dev.f ⟨0x40000154, 24, 8⟩ + 1) 255 ∧ OnlyRegs [0x40000140, 0x40000148, 0x40000154] s.dev t.dev) ∧
  (∀ (s : State) (n : Fin 256) (word : Nat) (use : ShoalUse) (at_ : Nat),
      s.dev.coreOn = true → memOn 0 n.val s.dev = true →
    ∃ t, exec (.scrubAccess 0 n.val (.access word false) 3 use at_) s = .next t ∧
      (t.dev.isle n.val).ueStop = true ∧ (t.dev.isle n.val).istate = 0) ∧
  (∀ (s : State) (bank word : Nat) (use : ShoalUse) (at_ : Nat),
      s.dev.coreOn = true → bank < 4 →
    ∃ t, exec (.scrubAccess 2 bank (.access word false) 3 use at_) s = .next t ∧
      t.dev.pow.restart = true ∧ t.dev.f ⟨0x40040000, 0, 1⟩ = 1 ∧ t.dev.isles = s.dev.isles ∧ t.dev.strings = s.dev.strings ∧ t.dev.mode = s.dev.mode) ∧
  (∀ (s : State) (bank word : Nat) (use : ShoalUse) (at_ : Nat),
      s.dev.coreOn = true → bank = 0 → (s.dev.jslot (word / 4)).seq ≠ 0 →
    ∃ t, exec (.scrubAccess 4 bank (.access word false) 3 use at_) s = .next t ∧
      (t.dev.jslot (word / 4)).damaged = true ∧ t.dev.f ⟨0x45000004, 3, 1⟩ = 1) ∧
  (∀ (s : State) (mem : Fin 5) (bank word : Nat),
      s.dev.coreOn = true →
    ∃ t, exec (.eccWriteBack mem bank word) s = .next t ∧
      OnlyRegs [] s.dev { t.dev with bus := s.dev.bus } ∧ t.dev.bus.writeBack = s.dev.bus.writeBack.erase (mem.val, bank, word)) ∧
  (∀ (s : State),
      s.dev.coreOn = true → 2 ≤ s.dev.mode →
    ∃ t, exec .supervisorWatchdog s = .next t ∧
      t.dev.pow.restart = true ∧ t.dev.f ⟨0x40040000, 0, 1⟩ = 1 ∧ OnlyRegs [0x40040000] s.dev { t.dev with pow := s.dev.pow, bus := s.dev.bus }) ∧
  (∀ (s : State),
      s.dev.coreOn = true → s.dev.pow.restart = true →
    ∃ t, exec .supervisorRestartDone s = .next t ∧
      t.dev.pow.restart = false ∧ t.dev.f ⟨0x40040000, 0, 1⟩ = 0 ∧ s.dev.jrn.seq < t.dev.jrn.seq)

/-- TIDE_PERIOD is taken for the second edge or refused with PER_REJ; TIDE_GUARD is taken for the next edge.
on a device that is not the root of a fabric a legal T shows in TIDE_PERIOD at once and is due at the second edge; with a string in
PRECHARGE or RUN, or an enabled motor port, it is refused with PER_REJ and nothing else changes; a guard within its range is due at the next
edge, and one outside changes nothing.
Rules: R36, R37, R54. -/
def Obligations.TidePeriodAndGuardWrites : Prop :=
  (∀ (s : State) (v : BitVec 15),
      s.dev.coreOn = true → within 2000 v.toNat 20000 = true → periodOk v.toNat s.dev = true → isRoot s.dev = false →
    ∃ t, exec (.tidePeriodWrite v) s = .next t ∧
      t.dev.f ⟨0x40100004, 0, 15⟩ = v.toNat ∧ t.dev.tide = { s.dev.tide with pendT := some (v.toNat, 2) } ∧
      OnlyRegs [0x40100004] s.dev { t.dev with tide := s.dev.tide }) ∧
  (∀ (s : State) (v : BitVec 15) (e : Nat × StringU),
      s.dev.coreOn = true → e ∈ s.dev.strings → (e.2.sstate = 1 ∨ e.2.sstate = 2) →
    ∃ t, exec (.tidePeriodWrite v) s = .next t ∧
      t.dev.f ⟨0x4010000C, 8, 1⟩ = 1 ∧ OnlyRegs [0x4010000C] s.dev t.dev) ∧
  (∀ (s : State) (v : BitVec 15) (p : Fin 4),
      s.dev.coreOn = true → s.dev.flag (mpoEn p.val) = true →
    ∃ t, exec (.tidePeriodWrite v) s = .next t ∧
      t.dev.f ⟨0x4010000C, 8, 1⟩ = 1 ∧ OnlyRegs [0x4010000C] s.dev t.dev) ∧
  (∀ (s : State) (g : BitVec 11),
      s.dev.coreOn = true → 200 ≤ g.toNat → g.toNat ≤ 2000 →
    ∃ t, exec (.tideGuardWrite g) s = .next t ∧
      t.dev.f ⟨0x40100008, 0, 11⟩ = g.toNat ∧ t.dev.tide = { s.dev.tide with pendGuard := some g.toNat } ∧
      OnlyRegs [0x40100008] s.dev { t.dev with tide := s.dev.tide }) ∧
  (∀ (s : State) (g : BitVec 11),
      s.dev.coreOn = true → (g.toNat < 200 ∨ 2000 < g.toNat) →
    ∃ t, exec (.tideGuardWrite g) s = .next t ∧
      Unmoved s.dev t.dev)

/-- The tide unit leaves a state when its time without a valid sync has run, and enters ACQUIRE on a first valid sync; delay requests, their
answers, and the mean of the last 16 accepted measurements.
ACQUIRE falls to FREE after 16 silent ticks, LOCKED to HOLDOVER after 4 (not on the root), HOLDOVER to FREE with HOLDOVER_EXP after 64;
STEP_REQ is noted while no string is in RUN and ignored otherwise; a valid sync of the parent takes FREE to ACQUIRE and its epoch is
adopted; a sync that fails its CRC leaves the tide unit alone. a request is given to its port, where the instant of its departure is noted;
a request received is answered with the instant it came and the one the answer leaves with; and a response is averaged into d_link or, 16
being held and more than 10 ns away, discarded and counted.
Rules: R44, R45, R48, R49. -/
def Obligations.TideStatesMoveAndLinksAreMeasured : Prop :=
  (∀ (s : State),
      s.dev.coreOn = true → s.dev.tide.tstate = 1 → 16 ≤ s.dev.tide.silent →
    ∃ t, exec .acquireTimeout s = .next t ∧
      t.dev.tide.tstate = 0) ∧
  (∀ (s : State),
      s.dev.coreOn = true → (s.dev.tide.tstate ≠ 1 ∨ s.dev.tide.silent < 16) →
    ∃ t, exec .acquireTimeout s = .next t ∧
      Unmoved s.dev t.dev) ∧
  (∀ (s : State),
      s.dev.coreOn = true → s.dev.tide.tstate = 2 → 4 ≤ s.dev.tide.silent → isRoot s.dev = false →
    ∃ t, exec .lockedSyncTimeout s = .next t ∧
      t.dev = { s.dev with tide := { s.dev.tide with tstate := 3 }, out := [] }) ∧
  (∀ (s : State),
      s.dev.coreOn = true → s.dev.tide.tstate = 3 → 64 ≤ s.dev.tide.silent →
    ∃ t, exec .holdoverExp s = .next t ∧
      t.dev.tide.tstate = 0 ∧ t.dev.f ⟨0x4010000C, 9, 1⟩ = 1) ∧
  (∀ (s : State),
      s.dev.coreOn = true → s.dev.anyRun = false →
    ∃ t, exec .stepReq s = .next t ∧
      t.dev = { s.dev with tide := { s.dev.tide with stepReq := true }, out := [] }) ∧
  (∀ (s : State),
      s.dev.coreOn = true → s.dev.anyRun = true →
    ∃ t, exec .stepReq s = .next t ∧
      Unmoved s.dev t.dev) ∧
  (∀ (s : State) (p : Fin 4) (m : SyncMsg) (rx : Nat),
      s.dev.coreOn = true → s.dev.fab.queue = [] → 2 ≤ s.dev.f (portState p.val) → s.dev.fab.merge = none → s.dev.flag localOnly = false →
      m.rootUid = rootUid s.dev → isRoot s.dev = false → syncPort s.dev = some p.val → s.dev.tide.tstate = 0 → s.dev.tide.next = none →
      m.period = 5 * s.dev.tide.period →
    ∃ t, exec (.syncFerryRx p m rx true) s = .next t ∧
      t.dev.tide.tstate = 1 ∧ t.dev.tide.silent = 0 ∧ t.dev.tide.line.map (fun x => x.2.2.1) = some m.epoch ∧ t.dev.strings = s.dev.strings) ∧
  (∀ (s : State) (p : Fin 4) (m : SyncMsg) (rx : Nat),
      s.dev.coreOn = true →
    ∃ t, exec (.syncFerryRx p m rx false) s = .next t ∧
      t.dev.tide = s.dev.tide ∧ t.dev.strings = s.dev.strings) ∧
  (∀ (s : State) (p : Fin 4),
      s.dev.coreOn = true → mayPass p.val 2 s.dev = true →
    ∃ t, exec (.delayRequestTimer p) s = .next t ∧
      (t.dev.delayU p.val).t1 = none ∧ Out.send (.port p.val) 2 0 (.delayReq 0) ∈ t.dev.out) ∧
  (∀ (s : State) (p : Fin 4) (t2 : Nat),
      s.dev.coreOn = true → s.dev.fab.queue = [] → mayPass p.val 3 s.dev = true →
    ∃ t, exec (.delayReqRx p t2) s = .next t ∧
      Out.send (.port p.val) 3 16 (.delayResp t2 0) ∈ t.dev.out ∧ t.dev.tide = s.dev.tide) ∧
  (∀ (s : State) (p : Fin 4) (t1 t2 t3 t4 : Nat),
      s.dev.coreOn = true → s.dev.fab.queue = [] → (s.dev.f (portState p.val) = 2 ∨ s.dev.f (portState p.val) = 4) →
      (s.dev.delayU p.val).t1 = some t1 → (s.dev.delayU p.val).meas.length < 16 →
    ∃ t, exec (.delayRespRx p t2 t3 t4) s = .next t ∧
      (t.dev.delayU p.val).t1 = none ∧
      (t.dev.delayU p.val).meas = (((t4 : Int) - t1 - ((t3 : Int) - t2) + 1) / 2 + (2 * 16 * s.dev.sf ⟨0x40100030 + 4 * p.val, 0, 16⟩ + 1000) / 2000) :: (s.dev.delayU p.val).meas) ∧
  (∀ (s : State) (p : Fin 4) (t1 t2 t3 t4 : Nat),
      s.dev.coreOn = true → s.dev.fab.queue = [] → (s.dev.f (portState p.val) = 2 ∨ s.dev.f (portState p.val) = 4) →
      (s.dev.delayU p.val).t1 = some t1 → 16 ≤ (s.dev.delayU p.val).meas.length →
      160 < (((t4 : Int) - t1 - ((t3 : Int) - t2) + 1) / 2 + (2 * 16 * s.dev.sf ⟨0x40100030 + 4 * p.val, 0, 16⟩ + 1000) / 2000 - s.dev.f ⟨0x40100040 + 4 * p.val, 0, 32⟩).natAbs →
    ∃ t, exec (.delayRespRx p t2 t3 t4) s = .next t ∧
      (t.dev.delayU p.val).discards = (s.dev.delayU p.val).discards + 1 ∧ t.dev.regs = s.dev.regs)

/-- At the tick guard an isle not done is abandoned; one that has overrun STALL_LIMIT times stops STALLED; an isle leaves WAIT only while its
current slot holds a record, and a failed injection stops it.
at T − guard every isle in WAIT, RUN or BARRIER is abandoned and one STOPPED or DONE is left as it is; an isle whose consecutive overruns
reach STALL_LIMIT stops with STALLED and below the limit nothing happens; LAT_RST clears the running mean alone. an isle in WAIT whose
current slot is VALID leaves WAIT; without VALID, or in another state, nothing happens; a wrong answer to the injected values stops the isle
with UE_STOP.
Rules: R55, R73, R74, R94, R16, R71, R393. -/
def Obligations.IslesWakeAreAbandonedAndStall : Prop :=
  (∀ (s : State) (n : Nat),
      s.dev.coreOn = true → (s.dev.isle n).istate ≠ 0 → (s.dev.isle n).istate ≠ 4 →
    ∃ t, exec .tickGuardExpiry s = .next t ∧
      (t.dev.isle n).gone = true) ∧
  (∀ (s : State) (n : Nat),
      s.dev.coreOn = true → ((s.dev.isle n).istate = 0 ∨ (s.dev.isle n).istate = 4) →
    ∃ t, exec .tickGuardExpiry s = .next t ∧
      t.dev.isle n = s.dev.isle n) ∧
  (∀ (s : State) (n : Fin 256) (at_ : Nat),
      s.dev.coreOn = true → (s.dev.isle n.val).istate ≠ 0 → s.dev.f ⟨0x41100000, 16, 4⟩ + 1 ≤ (s.dev.isle n.val).consec →
    ∃ t, exec (.isleStall n at_) s = .next t ∧
      (t.dev.isle n.val).istate = 0 ∧ (t.dev.isle n.val).stalled = true ∧ (∀ m, m ≠ n.val → t.dev.isle m = s.dev.isle m)) ∧
  (∀ (s : State) (n : Fin 256) (at_ : Nat),
      s.dev.coreOn = true → (s.dev.isle n.val).consec < s.dev.f ⟨0x41100000, 16, 4⟩ + 1 →
    ∃ t, exec (.isleStall n at_) s = .next t ∧
      Unmoved s.dev t.dev) ∧
  (∀ (s : State) (n : Fin 256),
      s.dev.coreOn = true →
    ∃ t, exec (.latRst n) s = .next t ∧
      t.dev.f ⟨0x41000018 + 0x1000 * n.val, 16, 16⟩ = 0 ∧ t.dev.isle n.val = { s.dev.isle n.val with latLoaded := false } ∧
      OnlyRegs [0x41000018 + 0x1000 * n.val] s.dev { t.dev with isles := s.dev.isles }) ∧
  (∀ (s : State) (n : Fin 256) (at_ : Nat) (injFail : Bool),
      s.dev.coreOn = true → ((s.dev.isle n.val).istate ≠ 1 ∨ (curSlot s.dev (s.dev.isle n.val)).valid = false) →
    ∃ t, exec (.isleWake n at_ injFail) s = .next t ∧
      Unmoved s.dev t.dev) ∧
  (∀ (s : State) (n : Fin 256) (at_ : Nat),
      s.dev.coreOn = true → (s.dev.isle n.val).istate = 1 → (s.dev.isle n.val).gone = false → (curSlot s.dev (s.dev.isle n.val)).valid = true →
    ∃ t, exec (.isleWake n at_ false) s = .next t ∧
      (t.dev.isle n.val).istate ≠ 1 ∧ (t.dev.isle n.val).snapWords = (s.dev.isle n.val).words) ∧
  (∀ (s : State) (n : Fin 256) (at_ : Nat),
      s.dev.coreOn = true → (s.dev.isle n.val).istate = 1 → (s.dev.isle n.val).gone = false → (curSlot s.dev (s.dev.isle n.val)).valid = true →
    ∃ t, exec (.isleWake n at_ true) s = .next t ∧
      (t.dev.isle n.val).istate = 0 ∧ (t.dev.isle n.val).ueStop = true ∧ t.dev.f ⟨0x44000010, 0, 1⟩ = 1)

/-- An image is staged under the next generation or refused; loads end verified or failed; ABORT discards; a commit request is refused with the
code of its first failing check, or fixes k_c.
an image that passes every check becomes the staged one under the next G; one that fails a check, or comes during COMMITTING, changes
nothing of the plan store, and its journal entry bears the code of the check; a load ends with its bank verified or not; ABORT discards the
staged image except during COMMITTING. COMMIT with the plan state LOADING or COMMITTING shows 0x08000022 and CMT_REJ, one of a generation
not held 0x0A30000A; neither starts a commit; a request that passes every check takes the plan state to COMMITTING with k_c as named, or k +
2 for 0.
Rules: R5, R83, R84, R85, R86, R95. -/
def Obligations.PlansAreStagedLoadedAndCommitted : Prop :=
  (∀ (s : State) (o : Origin) (bytes : List Byte) (i : PlanImage),
      s.dev.coreOn = true → 2 ≤ s.dev.mode → s.dev.mode ≤ 5 → (s.dev.red.paired && s.dev.mode = 3) = false → s.dev.plan.state ≠ 3 →
      stageCode s.dev i = 0 →
    ∃ t, exec (.planImageWrite o bytes i) s = .next t ∧
      s.dev.jrn.seq < t.dev.jrn.seq ∧ t.dev.plan.staged = some (planOf (s.dev.plan.gLast + 1) i) ∧ t.dev.plan.gLast = s.dev.plan.gLast + 1 ∧
      (t.dev.plan.state = 1 ∨ t.dev.plan.state = 2) ∧ t.dev.plan.held = s.dev.plan.held) ∧
  (∀ (s : State) (o : Origin) (bytes : List Byte) (i : PlanImage),
      s.dev.coreOn = true → 2 ≤ s.dev.mode → s.dev.mode ≤ 5 → (s.dev.red.paired && s.dev.mode = 3) = false → s.dev.plan.state ≠ 3 →
      stageCode s.dev i ≠ 0 →
    ∃ t, exec (.planImageWrite o bytes i) s = .next t ∧
      t.dev.plan = s.dev.plan ∧ t.dev.isles = s.dev.isles ∧ (t.dev.regs = s.dev.regs ∨ s.dev.jrn.flushed < (s.dev.jslot (s.dev.jrn.seq + 1)).seq) ∧
      t.dev.jrn.seq = s.dev.jrn.seq + 2 ∧ (t.dev.jslot (s.dev.jrn.seq + 2)).result = stageCode s.dev i ∧ (t.dev.jslot (s.dev.jrn.seq + 2)).st = 1) ∧
  (∀ (s : State) (o : Origin) (bytes : List Byte) (i : PlanImage),
      s.dev.coreOn = true → 2 ≤ s.dev.mode → s.dev.mode ≤ 5 → s.dev.plan.state = 3 →
    ∃ t, exec (.planImageWrite o bytes i) s = .next t ∧
      t.dev.plan = s.dev.plan ∧ t.dev.isles = s.dev.isles ∧ (t.dev.jslot (s.dev.jrn.seq + 1)).result = 0x08000022) ∧
  (∀ (s : State) (n : Fin 256) (ok : Bool) (p : Plan),
      s.dev.coreOn = true → s.dev.plan.staged = some p → (s.dev.isle n.val).loading = true →
    ∃ t, exec (.isleLoadDone n ok) s = .next t ∧
      (t.dev.isle n.val).loading = false ∧ (t.dev.isle n.val).verified = ok ∧ liveBank (t.dev.isle n.val) = liveBank (s.dev.isle n.val) ∧
      (∀ m, m ≠ n.val → t.dev.isle m = s.dev.isle m)) ∧
  (∀ (s : State),
      s.dev.coreOn = true → (s.dev.plan.state = 1 ∨ s.dev.plan.state = 2) →
    ∃ t, exec .abort s = .next t ∧
      t.dev.plan = { s.dev.plan with staged := none, state := 0 } ∧ t.dev.regs = s.dev.regs) ∧
  (∀ (s : State),
      s.dev.coreOn = true → (s.dev.plan.state = 0 ∨ s.dev.plan.state = 3) →
    ∃ t, exec .abort s = .next t ∧
      Unmoved s.dev t.dev) ∧
  (∀ (s : State),
      s.dev.coreOn = true → 2 ≤ s.dev.mode → s.dev.mode ≤ 5 → (s.dev.plan.state = 1 ∨ s.dev.plan.state = 3) →
    ∃ t, exec .commit s = .next t ∧
      t.dev.rd 0x41100018 = 0x08000022 ∧ t.dev.f ⟨0x41100004, 2, 1⟩ = 1 ∧ t.dev.plan = s.dev.plan ∧ OnlyRegs [0x41100004, 0x41100018] s.dev t.dev) ∧
  (∀ (s : State),
      s.dev.coreOn = true → 2 ≤ s.dev.mode → s.dev.mode ≤ 5 → (s.dev.plan.state = 0 ∨ s.dev.plan.state = 2) →
      heldPlan (s.dev.f ⟨0x4110001C, 0, 32⟩) s.dev = none →
    ∃ t, exec .commit s = .next t ∧
      t.dev.rd 0x41100018 = 0x0A30000A ∧ t.dev.f ⟨0x41100004, 2, 1⟩ = 1 ∧ t.dev.plan = s.dev.plan) ∧
  (∀ (s : State) (kc : Nat),
      s.dev.coreOn = true → kc = s.dev.f ⟨0x41100010, 0, 32⟩ + 2 ^ 32 * s.dev.f ⟨0x41100014, 0, 16⟩ →
      (commitRefusal (s.dev.f ⟨0x4110001C, 0, 32⟩) kc s.dev).1 = 0 →
    ∃ t, exec .commit s = .next t ∧
      t.dev.plan.state = 3 ∧ t.dev.plan.kc = (if kc = 0 then s.dev.tide.k + 2 else kc) ∧ t.dev.plan.staged = s.dev.plan.staged ∧
      t.dev.isles = s.dev.isles ∧ t.dev.regs = s.dev.regs)

/-- A violation that has stood p ticks, or a freeze of F ticks, is declared and counted; below that nothing happens.
with action COUNT or HOLD the declaration of a channel that had none sets its bit, counts once and touches nothing else but the channel;
while the violation or the freeze has not stood long enough nothing happens.
Rules: R112, R113. -/
def Obligations.ChannelChecksDeclare : Prop :=
  (∀ (s : State) (n : Fin 256) (c : Fin 8) (at_ : Nat),
      s.dev.coreOn = true → ((liveBank (s.dev.isle n.val)).chans.getD c.val {}).act ≠ 2 →
      ((liveBank (s.dev.isle n.val)).chans.getD c.val {}).persist ≤ (tget (fun _ => ({} : ChanU)) (s.dev.isle n.val).chans c.val).viol →
      0 < (tget (fun _ => ({} : ChanU)) (s.dev.isle n.val).chans c.val).viol →
      (tget (fun _ => ({} : ChanU)) (s.dev.isle n.val).chans c.val).range = false →
    ∃ t, exec (.chRange n c at_) s = .next t ∧
      t.dev.f ⟨0x41000020 + 0x1000 * n.val, 12 + c.val, 1⟩ = 1 ∧
      t.dev.f ⟨0x4100002C + 0x1000 * n.val, 0, 16⟩ = min (s.dev.f ⟨0x4100002C + 0x1000 * n.val, 0, 16⟩ + 1) 65535 ∧
      (tget (fun _ => ({} : ChanU)) (t.dev.isle n.val).chans c.val).range = true ∧
      OnlyRegs [0x41000020 + 0x1000 * n.val, 0x4100002C + 0x1000 * n.val] s.dev { t.dev with isles := s.dev.isles, ctlTotals := s.dev.ctlTotals }) ∧
  (∀ (s : State) (n : Fin 256) (c : Fin 8) (at_ : Nat),
      s.dev.coreOn = true → ((liveBank (s.dev.isle n.val)).chans.getD c.val {}).act ≠ 2 →
      (tget (fun _ => ({} : ChanU)) (s.dev.isle n.val).chans c.val).viol < ((liveBank (s.dev.isle n.val)).chans.getD c.val {}).persist →
    ∃ t, exec (.chRange n c at_) s = .next t ∧
      Unmoved s.dev t.dev) ∧
  (∀ (s : State) (n : Fin 256) (c : Fin 8) (at_ : Nat),
      s.dev.coreOn = true → ((liveBank (s.dev.isle n.val)).chans.getD c.val {}).fact ≠ 2 →
      ((liveBank (s.dev.isle n.val)).chans.getD c.val {}).freeze ≠ 0 →
      ((liveBank (s.dev.isle n.val)).chans.getD c.val {}).freeze ≤ (tget (fun _ => ({} : ChanU)) (s.dev.isle n.val).chans c.val).same →
      (tget (fun _ => ({} : ChanU)) (s.dev.isle n.val).chans c.val).stale = false →
    ∃ t, exec (.chStale n c at_) s = .next t ∧
      t.dev.f ⟨0x41000020 + 0x1000 * n.val, 20 + c.val, 1⟩ = 1 ∧
      t.dev.f ⟨0x4100002C + 0x1000 * n.val, 16, 16⟩ = min (s.dev.f ⟨0x4100002C + 0x1000 * n.val, 16, 16⟩ + 1) 65535 ∧
      (tget (fun _ => ({} : ChanU)) (t.dev.isle n.val).chans c.val).stale = true ∧
      OnlyRegs [0x41000020 + 0x1000 * n.val, 0x4100002C + 0x1000 * n.val] s.dev { t.dev with isles := s.dev.isles, ctlTotals := s.dev.ctlTotals }) ∧
  (∀ (s : State) (n : Fin 256) (c : Fin 8) (at_ : Nat),
      s.dev.coreOn = true →
      (((liveBank (s.dev.isle n.val)).chans.getD c.val {}).freeze = 0 ∨ (tget (fun _ => ({} : ChanU)) (s.dev.isle n.val).chans c.val).same < ((liveBank (s.dev.isle n.val)).chans.getD c.val {}).freeze) →
    ∃ t, exec (.chStale n c at_) s = .next t ∧
      Unmoved s.dev t.dev)

/-- An OSC window ends after W runs and its count restarts; a string word older than its age limit sets SW_STALE.
the end of an OSC window with W runs in it restarts the count and the run of the window, and a window not full stays; an STRR node whose
word has aged past its limit is marked stale with the SW_STALE bit, once.
Rules: R123, R127. -/
def Obligations.NodeDeclarationsAct : Prop :=
  (∀ (s : State) (n : Fin 256) (j : Fin 16) (at_ : Nat),
      s.dev.coreOn = true → ((liveBank (s.dev.isle n.val)).nodes.getD j.val {}).typ = 10 →
      paramAt s.dev (s.dev.isle n.val) (((liveBank (s.dev.isle n.val)).nodes.getD j.val {}).par + 2) ≠ 0 →
      paramAt s.dev (s.dev.isle n.val) (((liveBank (s.dev.isle n.val)).nodes.getD j.val {}).par + 2) ≤ lineN (tget (fun _ => 0) (s.dev.isle n.val).words (((liveBank (s.dev.isle n.val)).nodes.getD j.val {}).st + 1)) 16 16 →
    ∃ t, exec (.oscWindowEnd n j at_) s = .next t ∧
      lineN (tget (fun _ => 0) (t.dev.isle n.val).words (((liveBank (s.dev.isle n.val)).nodes.getD j.val {}).st + 1)) 0 16 = 0 ∧
      lineN (tget (fun _ => 0) (t.dev.isle n.val).words (((liveBank (s.dev.isle n.val)).nodes.getD j.val {}).st + 1)) 16 16 = 0) ∧
  (∀ (s : State) (n : Fin 256) (j : Fin 16) (at_ : Nat),
      s.dev.coreOn = true →
      (((liveBank (s.dev.isle n.val)).nodes.getD j.val {}).typ ≠ 10 ∨ lineN (tget (fun _ => 0) (s.dev.isle n.val).words (((liveBank (s.dev.isle n.val)).nodes.getD j.val {}).st + 1)) 16 16 < paramAt s.dev (s.dev.isle n.val) (((liveBank (s.dev.isle n.val)).nodes.getD j.val {}).par + 2)) →
    ∃ t, exec (.oscWindowEnd n j at_) s = .next t ∧
      Unmoved s.dev t.dev) ∧
  (∀ (s : State) (n : Fin 256) (j : Fin 16) (at_ : Nat),
      s.dev.coreOn = true → ((liveBank (s.dev.isle n.val)).nodes.getD j.val {}).typ = 12 →
      (tget (fun _ => ({} : NodeU)) (s.dev.isle n.val).nodes j.val).stale = false →
      (runStrr s.dev (s.dev.isle n.val) ((liveBank (s.dev.isle n.val)).nodes.getD j.val {}) (tget (fun _ => ({} : NodeU)) (s.dev.isle n.val).nodes j.val)).flag = true →
    ∃ t, exec (.swStale n j at_) s = .next t ∧
      (tget (fun _ => ({} : NodeU)) (t.dev.isle n.val).nodes j.val).stale = true ∧ t.dev.f ⟨0x41000020 + 0x1000 * n.val, 6, 1⟩ = 1) ∧
  (∀ (s : State) (n : Fin 256) (j : Fin 16) (at_ : Nat),
      s.dev.coreOn = true →
      (((liveBank (s.dev.isle n.val)).nodes.getD j.val {}).typ ≠ 12 ∨ (tget (fun _ => ({} : NodeU)) (s.dev.isle n.val).nodes j.val).stale = true) →
    ∃ t, exec (.swStale n j at_) s = .next t ∧
      Unmoved s.dev t.dev)

/-- A store to Q15 rounds half up and saturates; a down-scaled product is rounded half up; an integrator saturates at 32 bits.
a store gives the nearest Q15 word, half up, or the nearer limit with OUT_SAT; a product scaled down lies within half a step; an integrator
stays within 32 bits and is exact inside them.
Rules: R98, R99, R101. -/
def Obligations.EngineArithmeticRounds : Prop :=
  (∀ (a : Int) (q : Sat), (-32768 ≤ (store15 a q).1 ∧ (store15 a q).1 ≤ 32767) ∧
    ((store15 a q).2 = q → 2 ^ 15 * (store15 a q).1 - 2 ^ 14 ≤ a ∧ a < 2 ^ 15 * (store15 a q).1 + 2 ^ 14) ∧
    ((store15 a q).2 ≠ q → (store15 a q).1 = if a < 0 then -32768 else 32767)) ∧
  (∀ (c x : Int) (n : Nat), 1 ≤ n → n ≤ 8 → c * x - 2 ^ (n - 1) < 2 ^ n * mac c (-(n : Int)) x ∧ 2 ^ n * mac c (-(n : Int)) x ≤ c * x + 2 ^ (n - 1)) ∧
  (∀ i a : Int, -(2 ^ 31) ≤ intAdd i a ∧ intAdd i a < 2 ^ 31 ∧ (-(2 ^ 31) ≤ i + 2 * a → i + 2 * a < 2 ^ 31 → intAdd i a = i + 2 * a))

/-- A write of an isle override word is taken under the conditions of R150 and refused otherwise; from any pattern in which not both gates are
on, the interlock never leaves both gates of a pair on, and every turn-on it records finds the other gate off.
with OVR_LOCK clear in COMMISSION, or for a cell isle whose string is OFF, the word is stored and handed to the edge former with its cycle;
with OVR_LOCK set, or for a cell isle whose string is not OFF outside COMMISSION, OVR_REJ is set, the refusal counted, and nothing else
changes. for every sequence of boundaries and transitions, and every state of the pair with at most one gate on, at most one is on at its
end.
Rules: R140, R150, R149. -/
def Obligations.EdgeFormersNeverOverlap : Prop :=
  (∀ (s : State) (n : Fin 256) (w : Word) (f : Nat),
      s.dev.coreOn = true → ovrLock s.dev = false →
      (s.dev.mode = 2 ∨ ((s.dev.isle n.val).entry.role = 1 ∧ (s.dev.str (s.dev.isle n.val).entry.string).sstate = 0)) →
    ∃ t, exec (.efOverrideWrite n w f) s = .next t ∧
      t.dev.rd (0x41000030 + 0x1000 * n.val) = BitVec.ofNat 32 (w.toNat % 2 ^ 30) ∧
      (t.dev.isle n.val).ef.ovrs.head? = some ((s.dev.tide.k * s.dev.tc + f : Int), w.toNat % 2 ^ 30) ∧
      OnlyRegs [0x41000030 + 0x1000 * n.val] s.dev { t.dev with isles := s.dev.isles }) ∧
  (∀ (s : State) (n : Fin 256) (w : Word) (f : Nat),
      s.dev.coreOn = true →
      (ovrLock s.dev = true ∨ (s.dev.mode ≠ 2 ∧ (s.dev.isle n.val).entry.role = 1 ∧ (s.dev.str (s.dev.isle n.val).entry.string).sstate ≠ 0)) →
    ∃ t, exec (.efOverrideWrite n w f) s = .next t ∧
      t.dev.f ⟨0x41000034 + 0x1000 * n.val, 20, 1⟩ = 1 ∧
      t.dev.f ⟨0x41000060 + 0x1000 * n.val, 16, 16⟩ = min (s.dev.f ⟨0x41000060 + 0x1000 * n.val, 16, 16⟩ + 1) 65535 ∧
      OnlyRegs [0x41000034 + 0x1000 * n.val, 0x41000060 + 0x1000 * n.val] s.dev t.dev) ∧
  (∀ (tail items : List EfItem) (uid : Nat) (u : PairU) (rs : List EfRec), ¬ (u.up = true ∧ u.lo = true) →
    ¬ ((physical tail items uid u rs).1.up = true ∧ (physical tail items uid u rs).1.lo = true)) ∧
  (∀ (t td : Int) (uid : Nat) (u : PairU), u.up = true → u.lo = false → ((driveTo t td uid u).1.lo = true → False))

/-- Over any 16 consecutive carrier periods the dithered whole counts sum to the value in 1/16 counts.
whatever the value and the first period, the sixteen whole values add to it; with dither clear every period takes the same value, rounded
half up.
Rules: R146. -/
def Obligations.DitherHasExactMean : Prop :=
  (∀ (u : Nat) (n : Int), ((List.range 16).map fun i : Nat => whole true u (n + (i : Int))).sum = u) ∧
  (∀ (u : Nat) (n : Int), whole false u n = (u + 8) / 16)

/-- A host command of a string is noted where Table BAL-2 allows it, for the next edge to carry out, and refused with CMD_REJ otherwise.
OFF is taken in SAFE, PRECHARGE in OFF with the device in RUN and no cell node halted, RUN in PRECHARGE with PRE_DONE, SAFE in PRECHARGE and
RUN, on the head only for a split string; a command taken is noted, nothing else changes, and what the next edge does with the string's
commands (stringCommandDue) takes it to OFF, to PRECHARGE with the cells of UE_STOP excluded, to RUN, or to SAFE with its cause and the trip
request; one refused sets CMD_REJ and nothing else; beyond three hops PRECHARGE of a split string also sets CW_HOPS.
Rules: R158, R161. -/
def Obligations.StringCommandsFollowTableBal2 : Prop :=
  (∀ (s : State) (x : Fin 64),
      s.dev.coreOn = true → (s.dev.str x.val).held = true → (s.dev.str x.val).cmds = [] →
      (split (s.dev.str x.val) = false ∨ isHead (s.dev.str x.val) = true) → (s.dev.str x.val).sstate = 3 →
    ∃ t, exec (.stringCmdOff x) s = .next t ∧
      (t.dev.str x.val) = { (s.dev.str x.val) with cmds := [1], lastCmd := 1 } ∧ OnlyStr x.val s.dev t.dev ∧
      ((stringCommandDue x.val t.dev).str x.val).sstate = 0 ∧ ((stringCommandDue x.val t.dev).str x.val).cmds = []) ∧
  (∀ (s : State) (x : Fin 64) (hops : Nat) (others : Bool),
      s.dev.coreOn = true → (s.dev.str x.val).held = true → (s.dev.str x.val).cmds = [] → split (s.dev.str x.val) = false →
      (s.dev.str x.val).sstate = 0 → s.dev.mode = 4 →
      (∀ n ∈ s.dev.cells x.val, haltStands (s.dev.isle n).entry.ring (s.dev.isle n).entry.node s.dev = false) →
      (keptExcl x.val s.dev).length < (s.dev.str x.val).defn.variants.length →
    ∃ t, exec (.stringCmdPrecharge x hops others) s = .next t ∧
      (t.dev.str x.val) = { (s.dev.str x.val) with cmds := [2], lastCmd := 2 } ∧ OnlyStr x.val s.dev t.dev ∧
      ((stringCommandDue x.val t.dev).str x.val).sstate = 1 ∧ ((stringCommandDue x.val t.dev).str x.val).excl = keptExcl x.val s.dev ∧
      ((stringCommandDue x.val t.dev).str x.val).variant = (keptExcl x.val s.dev).length ∧
      ((stringCommandDue x.val t.dev).str x.val).preDone = false ∧ ((stringCommandDue x.val t.dev).str x.val).preTick = s.dev.tide.abs) ∧
  (∀ (s : State) (x : Fin 64) (others : Bool),
      s.dev.coreOn = true → (s.dev.str x.val).held = true → (s.dev.str x.val).cmds = [] → split (s.dev.str x.val) = false →
      (s.dev.str x.val).sstate = 1 → (s.dev.str x.val).preDone = true →
    ∃ t, exec (.stringCmdRun x others) s = .next t ∧
      (t.dev.str x.val) = { (s.dev.str x.val) with cmds := [3], lastCmd := 3 } ∧ OnlyStr x.val s.dev t.dev ∧
      ((stringCommandDue x.val t.dev).str x.val).sstate = 2 ∧ ((stringCommandDue x.val t.dev).str x.val).variant = (s.dev.str x.val).variant) ∧
  (∀ (s : State) (x : Fin 64),
      s.dev.coreOn = true → (s.dev.str x.val).held = true → (s.dev.str x.val).cmds = [] →
      (split (s.dev.str x.val) = false ∨ isHead (s.dev.str x.val) = true) → ((s.dev.str x.val).sstate = 1 ∨ (s.dev.str x.val).sstate = 2) →
    ∃ t, exec (.stringCmdSafe x) s = .next t ∧
      (t.dev.str x.val) = { (s.dev.str x.val) with cmds := [4], lastCmd := 4 } ∧ OnlyStr x.val s.dev t.dev ∧
      ((stringCommandDue x.val t.dev).str x.val).sstate = 3 ∧ ((stringCommandDue x.val t.dev).str x.val).trip = true ∧
      (stringCommandDue x.val t.dev).f ⟨0x42301010 + 0x40 * x.val, 0, 8⟩ = 0x18) ∧
  (∀ (s : State) (x : Fin 64),
      s.dev.coreOn = true → cmdAllowed x.val 1 true s.dev = false →
    ∃ t, exec (.stringCmdOff x) s = .next t ∧
      t.dev.f ⟨0x42301004 + 0x40 * x.val, 6, 1⟩ = 1 ∧ OnlyRegs [0x42301004 + 0x40 * x.val] s.dev t.dev) ∧
  (∀ (s : State) (x : Fin 64) (hops : Nat) (others : Bool),
      s.dev.coreOn = true → cmdAllowed x.val 2 others s.dev = false → hops ≤ 3 →
    ∃ t, exec (.stringCmdPrecharge x hops others) s = .next t ∧
      t.dev.f ⟨0x42301004 + 0x40 * x.val, 6, 1⟩ = 1 ∧ OnlyRegs [0x42301004 + 0x40 * x.val] s.dev t.dev) ∧
  (∀ (s : State) (x : Fin 64) (others : Bool),
      s.dev.coreOn = true → cmdAllowed x.val 3 others s.dev = false →
    ∃ t, exec (.stringCmdRun x others) s = .next t ∧
      t.dev.f ⟨0x42301004 + 0x40 * x.val, 6, 1⟩ = 1 ∧ OnlyRegs [0x42301004 + 0x40 * x.val] s.dev t.dev) ∧
  (∀ (s : State) (x : Fin 64),
      s.dev.coreOn = true → cmdAllowed x.val 4 true s.dev = false →
    ∃ t, exec (.stringCmdSafe x) s = .next t ∧
      t.dev.f ⟨0x42301004 + 0x40 * x.val, 6, 1⟩ = 1 ∧ OnlyRegs [0x42301004 + 0x40 * x.val] s.dev t.dev) ∧
  (∀ (s : State) (x : Fin 64) (hops : Nat) (others : Bool),
      s.dev.coreOn = true → split (s.dev.str x.val) = true → 3 < hops →
    ∃ t, exec (.stringCmdPrecharge x hops others) s = .next t ∧
      t.dev.f ⟨0x42301004 + 0x40 * x.val, 6, 1⟩ = 1 ∧ t.dev.f (cwStat 6) = 1 ∧ t.dev.strings = s.dev.strings)

/-- The evaluation takes a string to SAFE with the lowest pending SAFE code, applies the variant as many steps down as cells are newly named,
or, none being held, goes to SAFE with NO_PLAN; a bypass request enters HOST_BYP once; a full queue keeps one FQ_OVF beside its 16 entries.
over all pending entries of a live single-device string: the lowest SAFE code wins; without one, n distinct new positions move the variant n
steps down and are excluded together, or the cause is NO_PLAN; outside PRECHARGE and RUN the state stands; the queue is empty after. on a
single-device string a request naming a cell joins the queue with its cause, position, tick and stamp; one pending already is not added
again; with all 16 entries in use one FQ_OVF stands for it; a position that names no cell is refused with CMD_REJ and changes nothing else.
Rules: R173, R172, R181. -/
def Obligations.FaultsAreQueuedAndReactMostSeverely : Prop :=
  (∀ (x : Nat) (d : Dev) (c : Nat), split (d.str x) = false → (d.str x).sstate = 1 ∨ (d.str x).sstate = 2 →
    ((((d.str x).fq ++ (d.str x).fqOvf.toList).filter fun e => !isBypass e.cause).map (·.cause)).min? = some c → c < 256 →
    ((evalQueue x d).str x).sstate = 3 ∧ ((evalQueue x d).str x).trip = true ∧ ((evalQueue x d).str x).fq = [] ∧ (evalQueue x d).f (srtSafe x) = c) ∧
  (∀ (x : Nat) (d : Dev) (new : List Nat), split (d.str x) = false → (d.str x).sstate = 1 ∨ (d.str x).sstate = 2 → (d.str x).fqOvf = none →
    (∀ e ∈ (d.str x).fq, isBypass e.cause = true) → new = distinct (((d.str x).fq.map (·.pos)).filter fun p => !(d.str x).excl.contains p) → new ≠ [] →
    ((d.str x).variant + new.length < (d.str x).defn.variants.length →
      ((evalQueue x d).str x).sstate = (d.str x).sstate ∧ ((evalQueue x d).str x).variant = (d.str x).variant + new.length ∧
      ((evalQueue x d).str x).excl = (d.str x).excl ++ new ∧ ((evalQueue x d).str x).fq = []) ∧
    ((d.str x).defn.variants.length ≤ (d.str x).variant + new.length →
      ((evalQueue x d).str x).sstate = 3 ∧ (evalQueue x d).f (srtSafe x) = 0x14 ∧ ((evalQueue x d).str x).fq = [])) ∧
  (∀ (x : Nat) (d : Dev), (d.str x).sstate = 0 ∨ (d.str x).sstate = 3 →
    (evalQueue x d).str x = { d.str x with fq := [], fqOvf := none, anns := [] } ∧ (evalQueue x d).regs = d.regs ∧ (evalQueue x d).isles = d.isles) ∧
  (∀ (s : State) (x : Fin 64) (pos : BitVec 9) (at_ : Nat),
      s.dev.coreOn = true → (s.dev.str x.val).held = true → split (s.dev.str x.val) = false → pos.toNat < (s.dev.str x.val).defn.order.length →
      ((s.dev.str x.val).fq.any fun e => e.cause = 8 && e.pos = pos.toNat) = false → (s.dev.str x.val).fq.length < 16 →
    ∃ t, exec (.bypassRequest x pos at_) s = .next t ∧
      (t.dev.str x.val) = { (s.dev.str x.val) with fq := (s.dev.str x.val).fq ++ [⟨8, pos.toNat, s.dev.tide.k, at_⟩], lastCause := 8, lastPos := pos.toNat } ∧
      (∀ y, y ≠ x.val → t.dev.str y = s.dev.str y) ∧ t.dev.isles = s.dev.isles) ∧
  (∀ (s : State) (x : Fin 64) (pos : BitVec 9) (at_ : Nat),
      s.dev.coreOn = true → (s.dev.str x.val).held = true → pos.toNat < (s.dev.str x.val).defn.order.length →
      ((s.dev.str x.val).fq.any fun e => e.cause = 8 && e.pos = pos.toNat) = true →
    ∃ t, exec (.bypassRequest x pos at_) s = .next t ∧
      Unmoved s.dev t.dev) ∧
  (∀ (s : State) (x : Fin 64) (pos : BitVec 9) (at_ : Nat),
      s.dev.coreOn = true → (s.dev.str x.val).held = true → split (s.dev.str x.val) = false → pos.toNat < (s.dev.str x.val).defn.order.length →
      ((s.dev.str x.val).fq.any fun e => e.cause = 8 && e.pos = pos.toNat) = false → 16 ≤ (s.dev.str x.val).fq.length →
      (s.dev.str x.val).fqOvf = none →
    ∃ t, exec (.bypassRequest x pos at_) s = .next t ∧
      (t.dev.str x.val).fqOvf = some ⟨0x16, 0x1FF, s.dev.tide.k, at_⟩ ∧ (t.dev.str x.val).fq = (s.dev.str x.val).fq ∧ t.dev.f ⟨0x42300000, 5, 1⟩ = 1) ∧
  (∀ (s : State) (x : Fin 64) (pos : BitVec 9) (at_ : Nat),
      s.dev.coreOn = true → (s.dev.str x.val).defn.order.length ≤ pos.toNat →
    ∃ t, exec (.bypassRequest x pos at_) s = .next t ∧
      t.dev.f ⟨0x42301004 + 0x40 * x.val, 6, 1⟩ = 1 ∧ OnlyRegs [0x42301004 + 0x40 * x.val] s.dev t.dev)

/-- The barrier counts the keys missing and keeps the sorted list; delivery gives ranks in that order and the string values; the order is total,
by sort value and then position.
sorting permutes the cells and leaves each no later than any that sorts after it; the deadline of an open barrier closes it with the active
cells sorted, counting those not posted, and a closed one stays; the delivery of a single-device string shows the four values of the keys in
its registers and marks the ranks delivered.
Rules: R163, R164, R166. -/
def Obligations.SorterOrdersAndDelivers : Prop :=
  (∀ l : List CellKey, (sortCells l).Perm l ∧ (sortCells l).Pairwise fun a b => a.sortv < b.sortv ∨ (a.sortv = b.sortv ∧ a.gPos ≤ b.gPos)) ∧
  (∀ r n : Nat, r < n → n ≤ 512 → -32768 < rankPos r n ∧ rankPos r n < 32768) ∧
  (∀ (s : State) (x : Fin 64) (at_ : Nat),
      s.dev.coreOn = true → (s.dev.str x.val).held = true → (s.dev.str x.val).list = none → split (s.dev.str x.val) = false →
      s.dev.f (srtTb x.val) ≤ at_ →
    ∃ t, exec (.barrierDeadline x at_) s = .next t ∧
      (t.dev.str x.val).list.map (·.cells) = some (sortCells ((s.dev.active x.val).map (cellOf s.dev))) ∧
      t.dev.f ⟨0x42301024 + 0x40 * x.val, 0, 16⟩ = min (s.dev.f ⟨0x42301024 + 0x40 * x.val, 0, 16⟩ + (s.dev.active x.val).countP fun n => !(s.dev.isle n).posted) 65535 ∧
      (∀ y, y ≠ x.val → t.dev.str y = s.dev.str y) ∧ OnlyRegs [0x42300000, 0x42301024 + 0x40 * x.val] s.dev { t.dev with strings := s.dev.strings }) ∧
  (∀ (s : State) (x : Fin 64) (at_ : Nat),
      s.dev.coreOn = true → ((s.dev.str x.val).list.isSome = true ∨ at_ < s.dev.f (srtTb x.val)) →
    ∃ t, exec (.barrierDeadline x at_) s = .next t ∧
      Unmoved s.dev t.dev) ∧
  (∀ (s : State) (x : Fin 64) (at_ : Nat) (l : PartList),
      s.dev.coreOn = true → (s.dev.str x.val).list = some l → (s.dev.str x.val).delivered = false → otherSegs (s.dev.str x.val) = [] →
      (∀ n ∈ s.dev.cells x.val, (s.dev.isle n).istate ≠ 3) →
    ∃ t, exec (.rankingDelivered x at_) s = .next t ∧
      (t.dev.str x.val).delivered = true ∧ (t.dev.str x.val).vals = stringVals [l.tot] (nAct (s.dev.str x.val)) ∧
      (∀ v : Fin 4, t.dev.rd (0x42301014 + 0x40 * x.val + 4 * v.val) = BitVec.ofNat 32 (unsigned 16 ((t.dev.str x.val).vals.getD v.val 0))) ∧
      t.dev.isles = s.dev.isles ∧ (∀ y, y ≠ x.val → t.dev.str y = s.dev.str y))

/-- PRE_DONE follows 16 ticks at V_pre; the precharge timeout takes the string to SAFE with PRE_TMO; a re-spread ends when no surviving isle is
awaited.
in PRECHARGE PRE_DONE is set once its run has reached 16 and otherwise nothing happens; the timeout without it leads to SAFE with its cause,
the trip request and STRING_SAFE; a re-spread awaiting nobody ends, and one that awaits a surviving isle stays.
Rules: R159, R160, R177. -/
def Obligations.PrechargeEnds : Prop :=
  (∀ (s : State) (x : Fin 64),
      s.dev.coreOn = true → (s.dev.str x.val).sstate = 1 → 16 ≤ (s.dev.str x.val).preRun →
    ∃ t, exec (.preDone x) s = .next t ∧
      (t.dev.str x.val) = { (s.dev.str x.val) with preDone := true } ∧ OnlyStr x.val s.dev t.dev) ∧
  (∀ (s : State) (x : Fin 64),
      s.dev.coreOn = true → ((s.dev.str x.val).sstate ≠ 1 ∨ (s.dev.str x.val).preRun < 16) →
    ∃ t, exec (.preDone x) s = .next t ∧
      Unmoved s.dev t.dev) ∧
  (∀ (s : State) (x : Fin 64) (at_ : Nat),
      s.dev.coreOn = true → (s.dev.str x.val).sstate = 1 → (s.dev.str x.val).preDone = false →
      (s.dev.str x.val).preTick + 4000000 * s.dev.f ⟨0x42301030 + 0x40 * x.val, 16, 16⟩ ≤ s.dev.tide.abs + at_ →
    ∃ t, exec (.preTmo x at_) s = .next t ∧
      (t.dev.str x.val).sstate = 3 ∧ (t.dev.str x.val).trip = true ∧ t.dev.f ⟨0x42301010 + 0x40 * x.val, 0, 8⟩ = 0x15 ∧
      t.dev.f ⟨0x42300000, 3, 1⟩ = 1 ∧ (∀ y, y ≠ x.val → t.dev.str y = s.dev.str y)) ∧
  (∀ (s : State) (x : Fin 64) (at_ : Nat),
      s.dev.coreOn = true →
      ((s.dev.str x.val).sstate ≠ 1 ∨ (s.dev.str x.val).preDone = true ∨ s.dev.tide.abs + at_ < (s.dev.str x.val).preTick + 4000000 * s.dev.f ⟨0x42301030 + 0x40 * x.val, 16, 16⟩) →
    ∃ t, exec (.preTmo x at_) s = .next t ∧
      Unmoved s.dev t.dev) ∧
  (∀ (s : State) (x : Fin 64) (r : RespreadU),
      s.dev.coreOn = true → (s.dev.str x.val).respread = some r →
      (r.waiting.all fun n => (s.dev.str x.val).excl.contains (s.dev.isle n).entry.gPos) = true →
    ∃ t, exec (.respreadComplete x) s = .next t ∧
      (t.dev.str x.val) = { (s.dev.str x.val) with respread := none } ∧ OnlyStr x.val s.dev t.dev) ∧
  (∀ (s : State) (x : Fin 64) (r : RespreadU),
      s.dev.coreOn = true → (s.dev.str x.val).respread = some r →
      (r.waiting.all fun n => (s.dev.str x.val).excl.contains (s.dev.isle n).entry.gPos) = false →
    ∃ t, exec (.respreadComplete x) s = .next t ∧
      Unmoved s.dev t.dev)

/-- Lists, string words and announcements of a split string are taken when they match; what does not name a held split string is counted; at the
deadline a list not come is missing, and at the age limit SEG_LOST is entered.
a complete list of this tick becomes its segment's; the newest word brings the head's state for the edge after its tick; a cell fault is
announced for edge k + 1 or k + 2 and a SAFE for the next edge; a late announcement enters ANN_LATE; the deadline counts a segment without
its list as missing once more; a segment missing for the age limit enters SEG_LOST.
Rules: R168, R176, R341. -/
def Obligations.CausewayMessagesApply : Prop :=
  (∀ (s : State) (h : CwHead) (part parts : Fin 4) (tot : CwTot) (cells : List CellKey) (at_ : Nat),
      s.dev.coreOn = true → cwNames h s.dev = false →
    ∃ t, exec (.cwListRx h part parts tot cells at_) s = .next t ∧
      t.dev.f cwMissCnt = min (s.dev.f cwMissCnt + 1) 65535 ∧ t.dev.f (cwStat 5) = 1 ∧ t.dev.strings = s.dev.strings) ∧
  (∀ (s : State) (h : CwHead) (tot : CwTot) (cells : List CellKey) (at_ : Nat),
      s.dev.coreOn = true → cwNames h s.dev = true → cwMatches h s.dev = true → h.tick = s.dev.tide.k → (s.dev.str h.string).cwPast = false →
      at_ ≤ 2 * s.dev.tc / 5 → h.seg ∈ otherSegs (s.dev.str h.string) →
    ∃ t, exec (.cwListRx h 0 1 tot cells at_) s = .next t ∧
      ((s.dev.str h.string).segs = [] → (segOf (t.dev.str h.string) h.seg).now = some ⟨h.seg, cells, h.tick, h.gen, h.variant, tot⟩) ∧
      t.dev.isles = s.dev.isles ∧ (∀ y, y ≠ h.string → t.dev.str y = s.dev.str y) ∧ (t.dev.str h.string).sstate = (s.dev.str h.string).sstate) ∧
  (∀ (s : State) (h : CwHead) (sstate : Fin 4) (fields integ : List Int),
      s.dev.coreOn = true → cwNames h s.dev = true → cwMatches h s.dev = true → isHead (s.dev.str h.string) = false →
      ((s.dev.str h.string).words.any fun w => h.tick ≤ w.tick) = false →
    ∃ t, exec (.cwWordRx h sstate fields integ) s = .next t ∧
      (t.dev.str h.string) = { (s.dev.str h.string) with words := (⟨fields, integ, h.tick⟩ :: (s.dev.str h.string).words).take 2, headState := some (sstate.val, h.tick + 1) } ∧
      (∀ y, y ≠ h.string → t.dev.str y = s.dev.str y)) ∧
  (∀ (s : State) (h : CwHead) (cause : BitVec 8) (pos : BitVec 16) (stamp at_ : Nat),
      s.dev.coreOn = true → cwNames h s.dev = true → cwMatches h s.dev = true →
    ∃ t, exec (.cwFaultRx h true cause pos stamp at_) s = .next t ∧
      (t.dev.str h.string) = { (s.dev.str h.string) with annSafe := some cause.toNat } ∧ (∀ y, y ≠ h.string → t.dev.str y = s.dev.str y)) ∧
  (∀ (s : State) (h : CwHead) (cause : BitVec 8) (pos : BitVec 16) (stamp at_ : Nat),
      s.dev.coreOn = true → cwNames h s.dev = true → cwMatches h s.dev = true →
      s.dev.tide.k < (if 2 * stamp < s.dev.tc then h.tick + 1 else h.tick + 2) → (s.dev.str h.string).anns = [] →
    ∃ t, exec (.cwFaultRx h false cause pos stamp at_) s = .next t ∧
      (t.dev.str h.string).anns = [⟨cause.toNat, pos.toNat, h.tick, stamp, if 2 * stamp < s.dev.tc then h.tick + 1 else h.tick + 2⟩] ∧
      (t.dev.str h.string).fq = (s.dev.str h.string).fq ∧ t.dev.isles = s.dev.isles) ∧
  (∀ (s : State) (x i : Nat),
      s.dev.coreOn = true → x ∈ s.dev.heldStrings → split (s.dev.str x) = true → (s.dev.str x).cwPast = false → i ∈ otherSegs (s.dev.str x) →
    ∃ t, exec .causewayDeadline s = .next t ∧
      (t.dev.str x).cwPast = true ∧
      (segOf (t.dev.str x) i).missing = (if (segOf (s.dev.str x) i).now.isNone then (segOf (s.dev.str x) i).missing + 1 else 0) ∧
      t.dev.isles = s.dev.isles) ∧
  (∀ (s : State) (x : Fin 64) (at_ i : Nat),
      s.dev.coreOn = true → (s.dev.str x.val).held = true → i ∈ otherSegs (s.dev.str x.val) →
      s.dev.f ⟨0x42301034 + 0x40 * x.val, 16, 4⟩ ≤ (segOf (s.dev.str x.val) i).missing → 1 ≤ (segOf (s.dev.str x.val) i).missing →
      (s.dev.str x.val).fq = [] →
    ∃ t, exec (.segLost x at_) s = .next t ∧
      (t.dev.str x.val).fq = [⟨0x11, 0x1FF, s.dev.tide.k, at_⟩] ∧ t.dev.isles = s.dev.isles)

/-- The receive side of a lane advances through the states of Table LAN-4.
a signal takes WAIT_SIG to CDR with the rate written; lock takes CDR to BLOCK; block lock takes BLOCK to TRAIN, or straight to UP on a
Narrows lane that has been UP; polarity found makes the lane ready and shows whether it is inverted; the handshake takes both lanes of a
port to DESKEW with data and shows a reversal, the ring's own blocks take its lane to UP; deskew within 31 blocks takes the port to UP, and
a greater skew is shown and keeps it in DESKEW; none of them acts in another state.
Rules: R194, R196, R197, R198. -/
def Obligations.LanesComeUp : Prop :=
  (∀ (s : State) (n : Fin 24),
      s.dev.laneOn n = true → s.dev.f ⟨0x42200004 + 0x400 * n.val, 0, 4⟩ = 1 → modAbsent n.val s.dev = false →
      (n.val < 16 ∨ s.dev.f ⟨0x42200000 + 0x400 * n.val, 13, 1⟩ = 0) →
    ∃ t, exec (.losClear n false) s = .next t ∧
      t.dev.f ⟨0x42200004 + 0x400 * n.val, 0, 4⟩ = 2 ∧ t.dev.f ⟨0x42200004 + 0x400 * n.val, 12, 1⟩ = 0 ∧
      (t.dev.lane n.val).rate = s.dev.f ⟨0x42200000 + 0x400 * evenLane n.val, 2, 2⟩ ∧ (t.dev.lane n.val).amp = false ∧
      (n.val < 16 → OnlyRegs [0x42200004 + 0x400 * n.val] s.dev { t.dev with lanes := s.dev.lanes })) ∧
  (∀ (s : State) (n : Fin 24),
      s.dev.laneOn n = true → 16 ≤ n.val → s.dev.f ⟨0x42200000 + 0x400 * n.val, 13, 1⟩ = 1 →
    ∃ t, exec (.losAssert n true) s = .next t ∧
      t.dev.f ⟨0x42200030 + 0x400 * n.val, 1, 1⟩ = 1 ∧ t.dev.f ⟨0x42200004 + 0x400 * n.val, 12, 1⟩ = 1) ∧
  (∀ (s : State) (n : Fin 24),
      s.dev.laneOn n = true → 16 ≤ n.val → s.dev.f ⟨0x42200000 + 0x400 * n.val, 13, 1⟩ = 1 → (s.dev.lane n.val).amp = false →
    ∃ t, exec (.losClear n true) s = .next t ∧
      t.dev.f ⟨0x42200030 + 0x400 * n.val, 1, 1⟩ = 0 ∧ t.dev.f ⟨0x42200004 + 0x400 * n.val, 12, 1⟩ = 0) ∧
  (∀ (s : State) (n : Fin 24),
      s.dev.laneOn n = true → s.dev.f ⟨0x42200004 + 0x400 * n.val, 0, 4⟩ = 2 → (s.dev.lane n.val).held = false →
    ∃ t, exec (.cdrLock n) s = .next t ∧
      t.dev.f ⟨0x42200004 + 0x400 * n.val, 0, 4⟩ = 3 ∧ t.dev.f ⟨0x42200004 + 0x400 * n.val, 13, 1⟩ = 0 ∧
      OnlyRegs [0x42200004 + 0x400 * n.val] s.dev { t.dev with lanes := s.dev.lanes }) ∧
  (∀ (s : State) (n : Fin 24),
      s.dev.laneOn n = true → (s.dev.f ⟨0x42200004 + 0x400 * n.val, 0, 4⟩ ≠ 2 ∨ (s.dev.lane n.val).held = true) →
    ∃ t, exec (.cdrLock n) s = .next t ∧
      Unmoved s.dev t.dev) ∧
  (∀ (s : State) (n : Fin 24),
      s.dev.laneOn n = true → s.dev.f ⟨0x42200004 + 0x400 * n.val, 0, 4⟩ = 3 → (16 ≤ n.val ∨ (s.dev.lane n.val).wasUp = false) →
    ∃ t, exec (.blockLock n) s = .next t ∧
      t.dev.f ⟨0x42200004 + 0x400 * n.val, 0, 4⟩ = 4 ∧ OnlyRegs [0x42200004 + 0x400 * n.val] s.dev { t.dev with lanes := s.dev.lanes }) ∧
  (∀ (s : State) (n : Fin 24),
      s.dev.laneOn n = true → s.dev.f ⟨0x42200004 + 0x400 * n.val, 0, 4⟩ = 3 → n.val < 16 → (s.dev.lane n.val).wasUp = true →
    ∃ t, exec (.blockLock n) s = .next t ∧
      t.dev.f ⟨0x42200004 + 0x400 * n.val, 0, 4⟩ = 6) ∧
  (∀ (s : State) (n : Fin 24) (inverted : Bool),
      s.dev.laneOn n = true → s.dev.f ⟨0x42200004 + 0x400 * n.val, 0, 4⟩ = 4 → s.dev.f ⟨0x42200000 + 0x400 * n.val, 6, 2⟩ = 0 →
    ∃ t, exec (.polarityDetect n inverted) s = .next t ∧
      t.dev.f ⟨0x42200004 + 0x400 * n.val, 10, 1⟩ = (if inverted then 1 else 0) ∧ t.dev.lane n.val = { s.dev.lane n.val with ready := true } ∧
      OnlyRegs [0x42200004 + 0x400 * n.val] s.dev { t.dev with lanes := s.dev.lanes }) ∧
  (∀ (s : State) (p : Fin 4) (id0 : Bool),
      s.dev.laneOn (16 + 2 * p.val) = true → s.dev.f ⟨0x42200004 + 0x400 * (16 + 2 * p.val + 0), 0, 4⟩ = 4 →
      s.dev.f ⟨0x42200004 + 0x400 * (16 + 2 * p.val + 1), 0, 4⟩ = 4 → (s.dev.lane (16 + 2 * p.val + 0)).ready = true →
      (s.dev.lane (16 + 2 * p.val + 1)).ready = true → s.dev.f ⟨0x42204000 + 0x800 * p.val, 8, 2⟩ = 0 →
      s.dev.f ⟨0x42204000 + 0x800 * p.val, 10, 2⟩ = 0 → s.dev.f ⟨0x42204400 + 0x800 * p.val, 10, 2⟩ = 0 →
    ∃ t, exec (.handshakeComplete p id0 (!id0)) s = .next t ∧
      t.dev.f ⟨0x42200004 + 0x400 * (16 + 2 * p.val + 0), 0, 4⟩ = 5 ∧ t.dev.f ⟨0x42200004 + 0x400 * (16 + 2 * p.val + 1), 0, 4⟩ = 5 ∧
      t.dev.f ⟨0x42200004 + 0x400 * (16 + 2 * p.val + 0), 8, 2⟩ = 2 ∧ t.dev.f ⟨0x42200004 + 0x400 * (16 + 2 * p.val + 1), 8, 2⟩ = 2 ∧
      t.dev.f ⟨0x42200004 + 0x400 * (16 + 2 * p.val + 0), 11, 1⟩ = (if id0 then 1 else 0) ∧ t.dev.rings = s.dev.rings) ∧
  (∀ (s : State) (p : Fin 4) (id : Bool),
      s.dev.laneOn (16 + 2 * p.val) = true →
    ∃ t, exec (.handshakeComplete p id id) s = .next t ∧
      Unmoved s.dev t.dev) ∧
  (∀ (s : State) (r : Fin 16),
      s.dev.laneOn r = true → s.dev.f ⟨0x42200000 + 0x400 * r.val, 10, 2⟩ = 0 → s.dev.f ⟨0x42200004 + 0x400 * r.val, 0, 4⟩ = 4 →
      (s.dev.lane r.val).ready = true →
    ∃ t, exec (.ringTrainingComplete r) s = .next t ∧
      t.dev.f ⟨0x42200004 + 0x400 * r.val, 0, 4⟩ = 6 ∧ t.dev.f ⟨0x42200004 + 0x400 * r.val, 8, 2⟩ = 2) ∧
  (∀ (s : State) (n : Fin 24),
      s.dev.laneOn n = true → 16 ≤ n.val → (s.dev.f ⟨0x42200004 + 0x400 * n.val, 0, 4⟩ = 5 ∨ s.dev.f ⟨0x42200004 + 0x400 * n.val, 0, 4⟩ = 6) →
    ∃ t, exec (.markerLock n) s = .next t ∧
      t.dev.lane n.val = { s.dev.lane n.val with marker := true, amFail := 0 } ∧ (∀ m, m ≠ n.val → t.dev.lane m = s.dev.lane m) ∧
      t.dev.regs = s.dev.regs) ∧
  (∀ (s : State) (p : Fin 4) (skew : Nat) (later : Bool),
      s.dev.laneOn (16 + 2 * p.val) = true → s.dev.f ⟨0x42200004 + 0x400 * (16 + 2 * p.val + 0), 0, 4⟩ = 5 →
      s.dev.f ⟨0x42200004 + 0x400 * (16 + 2 * p.val + 1), 0, 4⟩ = 5 → (s.dev.lane (16 + 2 * p.val + 0)).marker = true →
      (s.dev.lane (16 + 2 * p.val + 1)).marker = true → skew ≤ 31 * 66 →
    ∃ t, exec (.deskewComplete p skew later) s = .next t ∧
      t.dev.f ⟨0x42200004 + 0x400 * (16 + 2 * p.val + 0), 0, 4⟩ = 6 ∧ t.dev.f ⟨0x42200004 + 0x400 * (16 + 2 * p.val + 1), 0, 4⟩ = 6 ∧
      t.dev.f ⟨0x42200028 + 0x400 * (16 + 2 * p.val + (if later then 1 else 0)), 0, 12⟩ = skew ∧
      t.dev.f ⟨0x42200028 + 0x400 * (16 + 2 * p.val + (if later then 0 else 1)), 0, 12⟩ = 0) ∧
  (∀ (s : State) (p : Fin 4) (skew : Nat) (later : Bool),
      s.dev.laneOn (16 + 2 * p.val) = true → s.dev.f ⟨0x42200004 + 0x400 * (16 + 2 * p.val + 0), 0, 4⟩ = 5 →
      s.dev.f ⟨0x42200004 + 0x400 * (16 + 2 * p.val + 1), 0, 4⟩ = 5 → (s.dev.lane (16 + 2 * p.val + 0)).marker = true →
      (s.dev.lane (16 + 2 * p.val + 1)).marker = true → 31 * 66 < skew →
    ∃ t, exec (.deskewComplete p skew later) s = .next t ∧
      t.dev.f ⟨0x42200004 + 0x400 * (16 + 2 * p.val + 0), 0, 4⟩ = 5 ∧ t.dev.f ⟨0x42200004 + 0x400 * (16 + 2 * p.val + 1), 0, 4⟩ = 5 ∧
      t.dev.f ⟨0x42200004 + 0x400 * (16 + 2 * p.val + (if later then 1 else 0)), 22, 1⟩ = 1 ∧ t.dev.lanes = s.dev.lanes)

/-- A loss takes a lane back to the state of Table LAN-7, with its event and its count.
LOS takes a Narrows lane to WAIT_SIG, and both lanes of a port with their transmitters training; after an EIDLE block it is no loss but
idle; LOL takes a lane to CDR, loss of block lock to BLOCK, of a marker to DESKEW; the training timeout goes back to CDR and counts a
retrain, or without AUTO_RETRAIN holds there; bad sync headers are counted an elastic buffer error restarts the buffer; a good block of a
ring in UP goes to its stream: START begins a frame, TERM ends it, a TRAIN block leaves the descrambler alone.
Rules: R199, R204, R205, R206, R210. -/
def Obligations.LaneLossesFollowTableLan7 : Prop :=
  (∀ (s : State) (n : Fin 24),
      s.dev.laneOn n = true → n.val < 16 → s.dev.f ⟨0x42200004 + 0x400 * n.val, 12, 1⟩ = 0 → s.dev.f ⟨0x42200004 + 0x400 * n.val, 0, 4⟩ ≠ 0 →
      s.dev.f ⟨0x42200004 + 0x400 * n.val, 0, 4⟩ ≠ 7 → s.dev.f ⟨0x42200004 + 0x400 * n.val, 0, 4⟩ ≠ 8 →
      s.dev.f ⟨0x42200004 + 0x400 * n.val, 0, 4⟩ ≠ 9 → (s.dev.lane n.val).eidle = 0 →
    ∃ t, exec (.losAssert n false) s = .next t ∧
      t.dev.f ⟨0x42200004 + 0x400 * n.val, 0, 4⟩ = 1 ∧ t.dev.f ⟨0x42200004 + 0x400 * n.val, 12, 1⟩ = 1 ∧
      t.dev.f ⟨0x42200004 + 0x400 * n.val, 16, 1⟩ = 1 ∧
      t.dev.f ⟨0x42200010 + 0x400 * n.val, 0, 8⟩ = min (s.dev.f ⟨0x42200010 + 0x400 * n.val, 0, 8⟩ + 1) 255 ∧
      t.dev.f ⟨0x42200004 + 0x400 * n.val, 8, 2⟩ = s.dev.f ⟨0x42200004 + 0x400 * n.val, 8, 2⟩) ∧
  (∀ (s : State) (n : Fin 24) (m : Nat),
      s.dev.laneOn n = true → m ∈ bonded n.val → 16 ≤ n.val → s.dev.f ⟨0x42200004 + 0x400 * n.val, 12, 1⟩ = 0 →
      s.dev.f ⟨0x42200000 + 0x400 * m, 10, 2⟩ = 0 → s.dev.f ⟨0x42200004 + 0x400 * n.val, 0, 4⟩ ≠ 0 → s.dev.f ⟨0x42200004 + 0x400 * n.val, 0, 4⟩ ≠ 7 →
      s.dev.f ⟨0x42200004 + 0x400 * n.val, 0, 4⟩ ≠ 8 → s.dev.f ⟨0x42200004 + 0x400 * n.val, 0, 4⟩ ≠ 9 → (s.dev.lane n.val).eidle = 0 →
      s.dev.f ⟨0x42200004 + 0x400 * m, 0, 4⟩ ≠ 0 → s.dev.f ⟨0x42200004 + 0x400 * m, 0, 4⟩ ≠ 9 →
    ∃ t, exec (.losAssert n false) s = .next t ∧
      t.dev.f ⟨0x42200004 + 0x400 * m, 0, 4⟩ = 1 ∧ t.dev.f ⟨0x42200004 + 0x400 * m, 8, 2⟩ = 1 ∧ (t.dev.lane m).ready = false) ∧
  (∀ (s : State) (n : Fin 24),
      s.dev.laneOn n = true → s.dev.f ⟨0x42200004 + 0x400 * n.val, 12, 1⟩ = 0 → s.dev.f ⟨0x42200004 + 0x400 * n.val, 0, 4⟩ ≠ 0 →
      s.dev.f ⟨0x42200004 + 0x400 * n.val, 0, 4⟩ ≠ 7 → s.dev.f ⟨0x42200004 + 0x400 * n.val, 0, 4⟩ ≠ 8 →
      s.dev.f ⟨0x42200004 + 0x400 * n.val, 0, 4⟩ ≠ 9 → (s.dev.lane n.val).eidle ≠ 0 →
    ∃ t, exec (.losAssert n false) s = .next t ∧
      t.dev.f ⟨0x42200004 + 0x400 * n.val, 0, 4⟩ = (if (s.dev.lane n.val).eidle = 1 then 7 else 8) ∧ t.dev.f ⟨0x42200004 + 0x400 * n.val, 12, 1⟩ = 1 ∧
      t.dev.f ⟨0x42200004 + 0x400 * n.val, 16, 1⟩ = s.dev.f ⟨0x42200004 + 0x400 * n.val, 16, 1⟩ ∧
      t.dev.f ⟨0x42200010 + 0x400 * n.val, 0, 8⟩ = s.dev.f ⟨0x42200010 + 0x400 * n.val, 0, 8⟩) ∧
  (∀ (s : State) (n : Fin 24),
      s.dev.laneOn n = true → n.val < 16 → 3 ≤ s.dev.f ⟨0x42200004 + 0x400 * n.val, 0, 4⟩ → s.dev.f ⟨0x42200004 + 0x400 * n.val, 0, 4⟩ ≤ 6 →
    ∃ t, exec (.lol n) s = .next t ∧
      t.dev.f ⟨0x42200004 + 0x400 * n.val, 0, 4⟩ = 2 ∧ t.dev.f ⟨0x42200004 + 0x400 * n.val, 13, 1⟩ = 1 ∧
      t.dev.f ⟨0x42200004 + 0x400 * n.val, 17, 1⟩ = 1 ∧
      t.dev.f ⟨0x42200010 + 0x400 * n.val, 8, 8⟩ = min (s.dev.f ⟨0x42200010 + 0x400 * n.val, 8, 8⟩ + 1) 255) ∧
  (∀ (s : State) (n : Fin 24),
      s.dev.laneOn n = true → n.val < 16 → 4 ≤ s.dev.f ⟨0x42200004 + 0x400 * n.val, 0, 4⟩ → s.dev.f ⟨0x42200004 + 0x400 * n.val, 0, 4⟩ ≤ 6 →
    ∃ t, exec (.blockLockLoss n) s = .next t ∧
      t.dev.f ⟨0x42200004 + 0x400 * n.val, 0, 4⟩ = 3 ∧ t.dev.f ⟨0x42200004 + 0x400 * n.val, 18, 1⟩ = 1 ∧
      t.dev.f ⟨0x42200010 + 0x400 * n.val, 16, 8⟩ = min (s.dev.f ⟨0x42200010 + 0x400 * n.val, 16, 8⟩ + 1) 255) ∧
  (∀ (s : State) (n : Fin 24),
      s.dev.laneOn n = true → (s.dev.f ⟨0x42200004 + 0x400 * n.val, 0, 4⟩ < 4 ∨ 6 < s.dev.f ⟨0x42200004 + 0x400 * n.val, 0, 4⟩) →
    ∃ t, exec (.blockLockLoss n) s = .next t ∧
      Unmoved s.dev t.dev) ∧
  (∀ (s : State) (n : Fin 24),
      s.dev.laneOn n = true → 16 ≤ n.val → (s.dev.f ⟨0x42200004 + 0x400 * n.val, 0, 4⟩ = 5 ∨ s.dev.f ⟨0x42200004 + 0x400 * n.val, 0, 4⟩ = 6) →
      (s.dev.lane n.val).marker = true → s.dev.f ⟨0x42200000 + 0x400 * n.val, 10, 2⟩ = 0 →
    ∃ t, exec (.markerLockLoss n) s = .next t ∧
      t.dev.f ⟨0x42200004 + 0x400 * n.val, 0, 4⟩ = 5 ∧ t.dev.f ⟨0x42200004 + 0x400 * n.val, 21, 1⟩ = 1 ∧
      t.dev.f ⟨0x42200004 + 0x400 * n.val, 8, 2⟩ = 1 ∧
      t.dev.f ⟨0x4220002C + 0x400 * n.val, 0, 16⟩ = min (s.dev.f ⟨0x4220002C + 0x400 * n.val, 0, 16⟩ + 1) 65535 ∧ (t.dev.lane n.val).marker = false) ∧
  (∀ (s : State) (n : Fin 24) (elapsed : Nat),
      s.dev.laneOn n = true → n.val < 16 → 3 ≤ s.dev.f ⟨0x42200004 + 0x400 * n.val, 0, 4⟩ → s.dev.f ⟨0x42200004 + 0x400 * n.val, 0, 4⟩ ≤ 5 →
      s.dev.f ⟨0x42200008 + 0x400 * n.val, 0, 7⟩ ≤ elapsed → s.dev.f ⟨0x42200000 + 0x400 * n.val, 1, 1⟩ = 1 →
    ∃ t, exec (.trainTmo n elapsed) s = .next t ∧
      t.dev.f ⟨0x42200004 + 0x400 * n.val, 0, 4⟩ = 2 ∧ t.dev.f ⟨0x42200004 + 0x400 * n.val, 19, 1⟩ = 1 ∧
      t.dev.f ⟨0x42200010 + 0x400 * n.val, 24, 8⟩ = min (s.dev.f ⟨0x42200010 + 0x400 * n.val, 24, 8⟩ + 1) 255 ∧ (t.dev.lane n.val).held = false) ∧
  (∀ (s : State) (n : Fin 24) (elapsed : Nat),
      s.dev.laneOn n = true → n.val < 16 → 3 ≤ s.dev.f ⟨0x42200004 + 0x400 * n.val, 0, 4⟩ → s.dev.f ⟨0x42200004 + 0x400 * n.val, 0, 4⟩ ≤ 5 →
      s.dev.f ⟨0x42200008 + 0x400 * n.val, 0, 7⟩ ≤ elapsed → s.dev.f ⟨0x42200000 + 0x400 * n.val, 1, 1⟩ = 0 →
    ∃ t, exec (.trainTmo n elapsed) s = .next t ∧
      t.dev.f ⟨0x42200004 + 0x400 * n.val, 0, 4⟩ = 2 ∧ t.dev.f ⟨0x42200004 + 0x400 * n.val, 19, 1⟩ = s.dev.f ⟨0x42200004 + 0x400 * n.val, 19, 1⟩ ∧
      (t.dev.lane n.val).held = true) ∧
  (∀ (s : State) (n : Fin 24) (elapsed : Nat),
      s.dev.laneOn n = true →
      (s.dev.f ⟨0x42200004 + 0x400 * n.val, 0, 4⟩ < 3 ∨ 5 < s.dev.f ⟨0x42200004 + 0x400 * n.val, 0, 4⟩ ∨ elapsed < s.dev.f ⟨0x42200008 + 0x400 * n.val, 0, 7⟩) →
    ∃ t, exec (.trainTmo n elapsed) s = .next t ∧
      Unmoved s.dev t.dev) ∧
  (∀ (s : State) (n : Fin 24) (hdr : Fin 4) (x : BitVec 64) (slip : Int) (at_ : Nat),
      s.dev.laneOn n = true → (hdr.val = 0 ∨ hdr.val = 3) → 3 ≤ s.dev.f ⟨0x42200004 + 0x400 * n.val, 0, 4⟩ →
      s.dev.f ⟨0x42200004 + 0x400 * n.val, 0, 4⟩ ≤ 6 →
    ∃ t, exec (.blockRx n hdr x slip at_) s = .next t ∧
      t.dev.f ⟨0x4220000C + 0x400 * n.val, 0, 16⟩ = min (s.dev.f ⟨0x4220000C + 0x400 * n.val, 0, 16⟩ + 1) 65535) ∧
  (∀ (s : State) (n : Fin 24) (x : BitVec 64) (at_ : Nat),
      s.dev.laneOn n = true → s.dev.f ⟨0x42200004 + 0x400 * n.val, 0, 4⟩ = 6 → n.val < 16 → s.dev.f ⟨0x42200004 + 0x400 * n.val, 10, 1⟩ = 0 →
      (s.dev.lane n.val).skip = false → (s.dev.lane n.val).bad = 0 → (s.dev.lane n.val).fill ≤ 16 → s.dev.f ⟨0x4220001C + 0x400 * n.val, 3, 1⟩ = 0 →
    ∃ t, exec (.blockRx n 1 x 0 at_) s = .next t ∧
      t.dev.lane n.val = { s.dev.lane n.val with line := x, bip := bipOf x (s.dev.lane n.val).bip, amPos := min ((s.dev.lane n.val).amPos + 1) 16384, badAt := (s.dev.lane n.val).badAt.filter fun i => s.dev.tide.abs + at_ < i + 50000 } ∧
      t.dev.f ⟨0x42200004 + 0x400 * n.val, 0, 4⟩ = 6 ∧ t.dev.f ⟨0x4220000C + 0x400 * n.val, 0, 16⟩ = s.dev.f ⟨0x4220000C + 0x400 * n.val, 0, 16⟩ ∧
      OnlyRegs [0x42200004 + 0x400 * n.val] s.dev { t.dev with lanes := s.dev.lanes }) ∧
  (∀ (s : State) (n : Fin 24) (x : BitVec 64) (at_ : Nat),
      s.dev.laneOn n = true → s.dev.f ⟨0x42200004 + 0x400 * n.val, 0, 4⟩ = 6 → n.val < 16 → s.dev.f ⟨0x42200004 + 0x400 * n.val, 10, 1⟩ = 0 →
      (s.dev.lane n.val).skip = false → (s.dev.lane n.val).bad = 0 → (s.dev.lane n.val).fill ≤ 16 → payByte x 0 ≠ 0x2D → payByte x 0 ≠ 0x55 →
      payByte (descramble (s.dev.lane n.val).line x) 0 = 0x78 →
    ∃ t, exec (.blockRx n 2 x 0 at_) s = .next t ∧
      (t.dev.lane n.val).inFrame = true ∧ (t.dev.lane n.val).errored = false ∧ (t.dev.lane n.val).cut = (s.dev.lane n.val).inFrame ∧
      (t.dev.lane n.val).line = x ∧ t.dev.f ⟨0x42200004 + 0x400 * n.val, 0, 4⟩ = 6) ∧
  (∀ (s : State) (n : Fin 24) (x : BitVec 64) (at_ : Nat),
      s.dev.laneOn n = true → s.dev.f ⟨0x42200004 + 0x400 * n.val, 0, 4⟩ = 6 → n.val < 16 → s.dev.f ⟨0x42200004 + 0x400 * n.val, 10, 1⟩ = 0 →
      (s.dev.lane n.val).skip = false → (s.dev.lane n.val).bad = 0 → (s.dev.lane n.val).fill ≤ 16 → payByte x 0 ≠ 0x2D → payByte x 0 ≠ 0x55 →
      payByte (descramble (s.dev.lane n.val).line x) 0 = 0x87 → (s.dev.lane n.val).inFrame = true →
    ∃ t, exec (.blockRx n 2 x 0 at_) s = .next t ∧
      (t.dev.lane n.val).inFrame = false ∧ (t.dev.lane n.val).cut = (s.dev.lane n.val).errored ∧ t.dev.f ⟨0x42200004 + 0x400 * n.val, 0, 4⟩ = 6) ∧
  (∀ (s : State) (n : Fin 24) (x : BitVec 64) (slip : Int) (at_ : Nat),
      s.dev.laneOn n = true → 3 ≤ s.dev.f ⟨0x42200004 + 0x400 * n.val, 0, 4⟩ → s.dev.f ⟨0x42200004 + 0x400 * n.val, 0, 4⟩ ≤ 4 →
      s.dev.f ⟨0x42200004 + 0x400 * n.val, 10, 1⟩ = 0 → (s.dev.lane n.val).bad = 0 → x = trainPay true true 0 →
    ∃ t, exec (.blockRx n 2 x slip at_) s = .next t ∧
      (t.dev.lane n.val).line = (s.dev.lane n.val).line ∧ t.dev.f ⟨0x42200004 + 0x400 * n.val, 0, 4⟩ = s.dev.f ⟨0x42200004 + 0x400 * n.val, 0, 4⟩ ∧
      (∀ m, m ≠ n.val → t.dev.lane m = s.dev.lane m)) ∧
  (∀ (s : State) (n : Fin 24) (x : BitVec 64) (slip : Int) (at_ : Nat),
      s.dev.laneOn n = true → s.dev.f ⟨0x42200004 + 0x400 * n.val, 0, 4⟩ = 6 → n.val < 16 → s.dev.f ⟨0x42200004 + 0x400 * n.val, 10, 1⟩ = 0 →
      (s.dev.lane n.val).bad = 0 → (((s.dev.lane n.val).fill : Int) + slip < 0 ∨ 16 < ((s.dev.lane n.val).fill : Int) + slip) →
    ∃ t, exec (.blockRx n 1 x slip at_) s = .next t ∧
      t.dev.f ⟨0x42200004 + 0x400 * n.val, 20, 1⟩ = 1 ∧
      t.dev.f ⟨0x42200014 + 0x400 * n.val, 24, 8⟩ = min (s.dev.f ⟨0x42200014 + 0x400 * n.val, 24, 8⟩ + 1) 255 ∧ (t.dev.lane n.val).fill = 8 ∧
      t.dev.f ⟨0x42200004 + 0x400 * n.val, 0, 4⟩ = 6) ∧
  (∀ (s : State) (n : Fin 24) (hdr : Fin 4) (x : BitVec 64) (slip : Int) (at_ : Nat),
      s.dev.laneOn n = true → s.dev.f ⟨0x4220001C + 0x400 * n.val, 3, 1⟩ = 0 →
      (s.dev.f ⟨0x42200004 + 0x400 * n.val, 0, 4⟩ < 3 ∨ 6 < s.dev.f ⟨0x42200004 + 0x400 * n.val, 0, 4⟩) →
    ∃ t, exec (.blockRx n hdr x slip at_) s = .next t ∧
      Unmoved s.dev t.dev)

/-- Low-power requests and test patterns are taken or refused with CFG_REJ.
a low-power request that R209 refuses sets CFG_REJ and changes nothing else; one taken sends EIDLE and stops the transmitter; leaving idle
sends the 64 TRAIN blocks of the burst, and the partner's burst brings the receiver UP; deep idle is left through CDR; a pattern takes the
lane to PRBS where R216 allows it; bit errors count only while the checker is locked; errors wait for the stream's next blocks, or go out at
once where no stream is sent.
Rules: R209, R211, R212, R214, R215, R216. -/
def Obligations.LanesIdleAndTest : Prop :=
  (∀ (s : State) (n : Fin 24) (v : Fin 4),
      s.dev.laneOn n = true → v.val ≠ 0 → (v.val = 3 ∨ lpmFree n.val s.dev = false ∨ (v.val = 1 ∧ (s.dev.lane n.val).rate = 0)) →
    ∃ t, exec (.lpmRequest n v) s = .next t ∧
      t.dev.f ⟨0x42200004 + 0x400 * n.val, 23, 1⟩ = 1 ∧ OnlyRegs [0x42200004 + 0x400 * n.val] s.dev t.dev) ∧
  (∀ (s : State) (n : Fin 24) (v : Fin 4),
      s.dev.laneOn n = true → (v.val = 1 ∨ v.val = 2) → lpmFree n.val s.dev = true → (v.val = 2 ∨ (s.dev.lane n.val).rate ≠ 0) →
      s.dev.f ⟨0x42200000 + 0x400 * n.val, 10, 2⟩ ≠ v.val →
    ∃ t, exec (.lpmRequest n v) s = .next t ∧
      t.dev.f ⟨0x42200000 + 0x400 * n.val, 10, 2⟩ = v.val ∧ t.dev.f ⟨0x42200004 + 0x400 * n.val, 8, 2⟩ = 0 ∧
      (v.val = 1 → s.dev.f ⟨0x42200004 + 0x400 * n.val, 8, 2⟩ ≠ 0 → t.dev.out = (eidleOut n.val false { s.dev with out := [] }).out) ∧
      (v.val = 2 → s.dev.f ⟨0x42200004 + 0x400 * n.val, 0, 4⟩ ≠ 0 → s.dev.f ⟨0x42200004 + 0x400 * n.val, 0, 4⟩ ≠ 9 → t.dev.f ⟨0x42200004 + 0x400 * n.val, 0, 4⟩ = 8) ∧
      (v.val = 1 → OnlyRegs [0x42200000 + 0x400 * n.val, 0x42200004 + 0x400 * n.val] s.dev { t.dev with lanes := s.dev.lanes })) ∧
  (∀ (s : State) (n : Fin 24) (deep : Bool),
      s.dev.laneOn n = true → s.dev.f ⟨0x42200004 + 0x400 * n.val, 0, 4⟩ = 6 →
    ∃ t, exec (.eidleRx n deep) s = .next t ∧
      t.dev.lane n.val = { s.dev.lane n.val with eidle := if deep then 2 else 1 } ∧ (∀ m, m ≠ n.val → t.dev.lane m = s.dev.lane m) ∧
      t.dev.regs = s.dev.regs) ∧
  (∀ (s : State) (n : Fin 24) (burst : Bool),
      s.dev.laneOn n = true → s.dev.f ⟨0x42200000 + 0x400 * n.val, 10, 2⟩ = 1 → 5 ≤ s.dev.f ⟨0x42200004 + 0x400 * n.val, 0, 4⟩ →
      s.dev.f ⟨0x42200004 + 0x400 * n.val, 0, 4⟩ ≠ 7 → s.dev.f ⟨0x42200004 + 0x400 * n.val, 0, 4⟩ ≠ 9 →
      s.dev.f ⟨0x42200004 + 0x400 * n.val, 8, 2⟩ = 0 →
    ∃ t, exec (.electricalIdleExit n true burst) s = .next t ∧
      t.dev.f ⟨0x42200000 + 0x400 * n.val, 10, 2⟩ = 0 ∧ t.dev.f ⟨0x42200004 + 0x400 * n.val, 8, 2⟩ = 2 ∧
      t.dev.out = [.train n.val (trainPay true false (if 16 ≤ n.val then n.val else 0)) 64 0] ∧
      OnlyRegs [0x42200000 + 0x400 * n.val, 0x42200004 + 0x400 * n.val] s.dev { t.dev with lanes := s.dev.lanes }) ∧
  (∀ (s : State) (n : Fin 24) (host : Bool),
      s.dev.laneOn n = true → s.dev.f ⟨0x42200004 + 0x400 * n.val, 0, 4⟩ = 7 →
    ∃ t, exec (.electricalIdleExit n host true) s = .next t ∧
      t.dev.f ⟨0x42200004 + 0x400 * n.val, 0, 4⟩ = 6 ∧ t.dev.f ⟨0x42200004 + 0x400 * n.val, 12, 1⟩ = 0) ∧
  (∀ (s : State) (n : Fin 24),
      s.dev.laneOn n = true →
      (s.dev.f ⟨0x42200000 + 0x400 * n.val, 10, 2⟩ = 2 ∨ (s.dev.f ⟨0x42200000 + 0x400 * n.val, 10, 2⟩ = 0 ∧ s.dev.f ⟨0x42200004 + 0x400 * n.val, 0, 4⟩ = 8)) →
      s.dev.f ⟨0x42200004 + 0x400 * n.val, 0, 4⟩ ≠ 0 → s.dev.f ⟨0x42200004 + 0x400 * n.val, 0, 4⟩ ≠ 6 →
      s.dev.f ⟨0x42200004 + 0x400 * n.val, 0, 4⟩ ≠ 9 →
    ∃ t, exec (.deepIdleExit n) s = .next t ∧
      t.dev.f ⟨0x42200004 + 0x400 * n.val, 0, 4⟩ = 2 ∧ t.dev.f ⟨0x42200000 + 0x400 * n.val, 10, 2⟩ = 0 ∧
      t.dev.f ⟨0x42200004 + 0x400 * n.val, 8, 2⟩ = 1 ∧
      OnlyRegs [0x42200000 + 0x400 * n.val, 0x42200004 + 0x400 * n.val] s.dev { t.dev with lanes := s.dev.lanes }) ∧
  (∀ (s : State) (n : Fin 24),
      s.dev.laneOn n = true → s.dev.mode = 2 → s.dev.f ⟨0x4220001C + 0x400 * n.val, 2, 1⟩ = 0 → s.dev.f ⟨0x42200004 + 0x400 * n.val, 0, 4⟩ ≠ 0 →
    ∃ t, exec (.prbsGenEn n true) s = .next t ∧
      t.dev.f ⟨0x4220001C + 0x400 * n.val, 2, 1⟩ = 1 ∧ t.dev.f ⟨0x42200004 + 0x400 * n.val, 0, 4⟩ = 9 ∧ t.dev.f ⟨0x42200004 + 0x400 * n.val, 8, 2⟩ = 3) ∧
  (∀ (s : State) (n : Fin 24),
      s.dev.laneOn n = true → s.dev.mode ≠ 2 → lpmFree n.val s.dev = false → s.dev.f ⟨0x4220001C + 0x400 * n.val, 2, 1⟩ = 0 →
    ∃ t, exec (.prbsGenEn n true) s = .next t ∧
      t.dev.f ⟨0x42200004 + 0x400 * n.val, 23, 1⟩ = 1 ∧ OnlyRegs [0x42200004 + 0x400 * n.val] s.dev t.dev) ∧
  (∀ (s : State) (n : Fin 24) (locked : Bool) (errors : Nat),
      s.dev.laneOn n = true → s.dev.f ⟨0x4220001C + 0x400 * n.val, 3, 1⟩ = 1 →
    ∃ t, exec (.chkLock n locked errors) s = .next t ∧
      t.dev.f ⟨0x4220001C + 0x400 * n.val, 8, 1⟩ = (if locked then 1 else 0) ∧
      t.dev.f ⟨0x42200020 + 0x400 * n.val, 0, 32⟩ = (if s.dev.f ⟨0x4220001C + 0x400 * n.val, 8, 1⟩ = 1 then min (s.dev.f ⟨0x42200020 + 0x400 * n.val, 0, 32⟩ + errors) 4294967295 else s.dev.f ⟨0x42200020 + 0x400 * n.val, 0, 32⟩) ∧
      OnlyRegs [0x4220001C + 0x400 * n.val, 0x42200020 + 0x400 * n.val] s.dev t.dev) ∧
  (∀ (s : State) (n : Fin 24),
      s.dev.laneOn n = true → s.dev.f ⟨0x42200004 + 0x400 * n.val, 8, 2⟩ = 2 →
    ∃ t, exec (.injOne n) s = .next t ∧
      t.dev.lane n.val = { s.dev.lane n.val with inj := (s.dev.lane n.val).inj ++ [0] } ∧ t.dev.regs = s.dev.regs ∧ t.dev.out = []) ∧
  (∀ (s : State) (n : Fin 24),
      s.dev.laneOn n = true → (s.dev.f ⟨0x42200004 + 0x400 * n.val, 8, 2⟩ = 1 ∨ s.dev.f ⟨0x42200004 + 0x400 * n.val, 8, 2⟩ = 3) →
    ∃ t, exec (.injOne n) s = .next t ∧
      t.dev = { s.dev with out := [.laneFlip n.val 0] }) ∧
  (∀ (s : State) (n : Fin 24),
      s.dev.laneOn n = true → 1 ≤ s.dev.f ⟨0x4220001C + 0x400 * n.val, 11, 5⟩ → s.dev.f ⟨0x4220001C + 0x400 * n.val, 11, 5⟩ ≤ 24 →
    ∃ t, exec (.injRateFlip n) s = .next t ∧
      (s.dev.f ⟨0x42200004 + 0x400 * n.val, 8, 2⟩ = 2 → t.dev.lane n.val = { s.dev.lane n.val with inj := (s.dev.lane n.val).inj ++ [0] }) ∧
      (s.dev.f ⟨0x42200004 + 0x400 * n.val, 8, 2⟩ = 1 ∨ s.dev.f ⟨0x42200004 + 0x400 * n.val, 8, 2⟩ = 3 → t.dev = { s.dev with out := [.laneFlip n.val 1] })) ∧
  (∀ (s : State) (n : Fin 24),
      s.dev.laneOn n = true → testOk n.val s.dev = true → s.dev.f ⟨0x42200004 + 0x400 * n.val, 0, 4⟩ ≠ 9 →
    ∃ t, exec (.injPayload n) s = .next t ∧
      t.dev.lane n.val = { s.dev.lane n.val with inj := (s.dev.lane n.val).inj ++ [2] } ∧ t.dev.regs = s.dev.regs ∧ t.dev.out = []) ∧
  (∀ (s : State) (n : Fin 24),
      s.dev.laneOn n = true → testOk n.val s.dev = true → s.dev.f ⟨0x42200004 + 0x400 * n.val, 0, 4⟩ ≠ 9 →
    ∃ t, exec (.injSyncHeader n) s = .next t ∧
      (s.dev.f ⟨0x42200004 + 0x400 * n.val, 8, 2⟩ = 2 → t.dev.lane n.val = { s.dev.lane n.val with inj := (s.dev.lane n.val).inj ++ [3] }) ∧
      (s.dev.f ⟨0x42200004 + 0x400 * n.val, 8, 2⟩ = 1 ∨ s.dev.f ⟨0x42200004 + 0x400 * n.val, 8, 2⟩ = 3 → t.dev.out = [.laneFlip n.val 3]) ∧
      t.dev.regs = s.dev.regs) ∧
  (∀ (s : State) (n : Fin 24),
      s.dev.laneOn n = true → testOk n.val s.dev = false →
    ∃ t, exec (.injPayload n) s = .next t ∧
      t.dev.f ⟨0x42200004 + 0x400 * n.val, 23, 1⟩ = 1 ∧ OnlyRegs [0x42200004 + 0x400 * n.val] s.dev t.dev)

/-- A rate permitted on the lane is stored, another refused with CFG_REJ; equalizer codes out of range keep their field; the module access runs.
rates 0 to 2 are permitted on Narrows and 2 and 3 on Straits; a swing, post-cursor or pre-cursor code above 12, 10 or 8 leaves its field and
sets CFG_REJ; a module access sends its request once and ends with NACK or the byte; the pin shows in LANE_MOD.
Rules: R184, R615. -/
def Obligations.LaneSettingsAreChecked : Prop :=
  (∀ (s : State) (n : Fin 24) (v : Fin 4),
      s.dev.laneOn n = true → (if n.val < 16 then v.val ≤ 2 else 2 ≤ v.val) →
    ∃ t, exec (.laneRateWrite n v) s = .next t ∧
      t.dev.f ⟨0x42200000 + 0x400 * n.val, 2, 2⟩ = v.val ∧ OnlyRegs [0x42200000 + 0x400 * n.val] s.dev t.dev) ∧
  (∀ (s : State) (n : Fin 24) (v : Fin 4),
      s.dev.laneOn n = true → (if n.val < 16 then v.val = 3 else v.val < 2) →
    ∃ t, exec (.laneRateWrite n v) s = .next t ∧
      t.dev.f ⟨0x42200004 + 0x400 * n.val, 23, 1⟩ = 1 ∧ OnlyRegs [0x42200004 + 0x400 * n.val] s.dev t.dev) ∧
  (∀ (s : State) (n : Fin 24) (v : Word),
      s.dev.laneOn n = true → fget v 0 4 ≤ 12 → fget v 4 4 ≤ 10 → fget v 8 4 ≤ 8 →
    ∃ t, exec (.laneEqWrite n v) s = .next t ∧
      t.dev.f ⟨0x42200018 + 0x400 * n.val, 0, 13⟩ = fget v 0 13 ∧ OnlyRegs [0x42200018 + 0x400 * n.val] s.dev t.dev) ∧
  (∀ (s : State) (n : Fin 24) (v : Word),
      s.dev.laneOn n = true → (12 < fget v 0 4 ∨ 10 < fget v 4 4 ∨ 8 < fget v 8 4) →
    ∃ t, exec (.laneEqWrite n v) s = .next t ∧
      t.dev.f ⟨0x42200004 + 0x400 * n.val, 23, 1⟩ = 1 ∧
      (12 < fget v 0 4 → t.dev.f ⟨0x42200018 + 0x400 * n.val, 0, 4⟩ = s.dev.f ⟨0x42200018 + 0x400 * n.val, 0, 4⟩) ∧
      (10 < fget v 4 4 → t.dev.f ⟨0x42200018 + 0x400 * n.val, 4, 4⟩ = s.dev.f ⟨0x42200018 + 0x400 * n.val, 4, 4⟩) ∧
      (8 < fget v 8 4 → t.dev.f ⟨0x42200018 + 0x400 * n.val, 8, 4⟩ = s.dev.f ⟨0x42200018 + 0x400 * n.val, 8, 4⟩) ∧
      OnlyRegs [0x42200004 + 0x400 * n.val, 0x42200018 + 0x400 * n.val] s.dev t.dev) ∧
  (∀ (s : State) (n : Fin 24),
      s.dev.laneOn n = true → 16 ≤ n.val → s.dev.f ⟨0x42200034 + 0x400 * n.val, 11, 1⟩ = 0 →
    ∃ t, exec (.mod2wStart n) s = .next t ∧
      t.dev.f ⟨0x42200034 + 0x400 * n.val, 11, 1⟩ = 1 ∧ t.dev.f ⟨0x42200034 + 0x400 * n.val, 12, 1⟩ = 0 ∧ t.dev.out.length = 1 ∧
      OnlyRegs [0x42200034 + 0x400 * n.val] s.dev t.dev) ∧
  (∀ (s : State) (n : Fin 24),
      s.dev.laneOn n = true → (n.val < 16 ∨ s.dev.f ⟨0x42200034 + 0x400 * n.val, 11, 1⟩ = 1) →
    ∃ t, exec (.mod2wStart n) s = .next t ∧
      Unmoved s.dev t.dev) ∧
  (∀ (s : State) (n : Fin 24) (nack : Bool) (data : BitVec 8),
      s.dev.laneOn n = true → s.dev.f ⟨0x42200034 + 0x400 * n.val, 11, 1⟩ = 1 → s.dev.f ⟨0x42200034 + 0x400 * n.val, 9, 1⟩ = 0 →
    ∃ t, exec (.mod2wDone n nack data) s = .next t ∧
      t.dev.f ⟨0x42200034 + 0x400 * n.val, 11, 1⟩ = 0 ∧ t.dev.f ⟨0x42200034 + 0x400 * n.val, 12, 1⟩ = (if nack then 1 else 0) ∧
      t.dev.f ⟨0x42200034 + 0x400 * n.val, 16, 8⟩ = (if nack then s.dev.f ⟨0x42200034 + 0x400 * n.val, 16, 8⟩ else data.toNat) ∧
      OnlyRegs [0x42200034 + 0x400 * n.val] s.dev t.dev) ∧
  (∀ (s : State) (n : Fin 24),
      s.dev.laneOn n = true → 16 ≤ n.val →
    ∃ t, exec (.modabsChange n true) s = .next t ∧
      t.dev.f ⟨0x42200030 + 0x400 * n.val, 0, 1⟩ = 1 ∧ OnlyRegs [0x42200030 + 0x400 * n.val] s.dev t.dev) ∧
  (∀ (s : State) (n : Fin 24),
      s.dev.laneOn n = true → n.val < 16 →
    ∃ t, exec (.modabsChange n true) s = .next t ∧
      Unmoved s.dev t.dev)

/-- A container that passes its three checks becomes the record of its node; one that fails is a missing record, counted by cause; after
NS_LIMIT ticks NODE_SILENT is entered.
FILLED, CRC and parity right: the record, its stamp and its status go to the mailbox slot of the tick and the run of missing records ends; a
container with a bad CRC counts and leaves every isle alone; NODE_SILENT of a cell node is entered at the limit and not below; with the
engine off nothing happens.
Rules: R240, R69. -/
def Obligations.SampleRecordsReachTheirMailbox : Prop :=
  (∀ (s : State) (r i : Fin 16) (smp : SampleRec) (at_ n : Nat) (parity : Fin 4),
      s.dev.ringOn r = true → s.dev.f ⟨0x42000000 + 0x1000 * r.val, 0, 1⟩ = 1 → i.val ≤ s.dev.f ⟨0x42000000 + 0x1000 * r.val, 4, 4⟩ →
      parity.val = s.dev.tide.k % 4 → isleOf r.val i.val s.dev = some n → at_ < s.dev.window → frameErr r.val s.dev = false →
      (curSlot s.dev (s.dev.isle n)).valid = false →
    ∃ t, exec (.sampleContainerRx r i true true parity smp at_ false) s = .next t ∧
      (curSlot t.dev (t.dev.isle n)) = { valid := true, tick := s.dev.tide.k, smp := smp, ring := r.val, node := i.val, stamp := at_ } ∧
      t.dev.f ⟨0x42000080 + 0x1000 * r.val + 4 * i.val, 24, 8⟩ = 0 ∧ (rnode (t.dev.ring r.val) i.val).status = smp.status % 2 ^ 64) ∧
  (∀ (s : State) (r i : Fin 16) (smp : SampleRec) (at_ : Nat),
      s.dev.ringOn r = true → s.dev.f ⟨0x42000000 + 0x1000 * r.val, 0, 1⟩ = 1 → i.val ≤ s.dev.f ⟨0x42000000 + 0x1000 * r.val, 4, 4⟩ →
      (rnode (s.dev.ring r.val) i.val).seen = false →
    ∃ t, exec (.sampleContainerRx r i true false (Fin.ofNat 4 s.dev.tide.k) smp at_ false) s = .next t ∧
      t.dev.f ⟨0x4200001C + 0x1000 * r.val, 8, 8⟩ = min (s.dev.f ⟨0x4200001C + 0x1000 * r.val, 8, 8⟩ + 1) 255 ∧
      t.dev.f ⟨0x42000080 + 0x1000 * r.val + 4 * i.val, 24, 8⟩ = min (s.dev.f ⟨0x42000080 + 0x1000 * r.val + 4 * i.val, 24, 8⟩ + 1) 255 ∧
      t.dev.isles = s.dev.isles ∧ t.dev.f ⟨0x4200001C + 0x1000 * r.val, 0, 8⟩ = s.dev.f ⟨0x4200001C + 0x1000 * r.val, 0, 8⟩ ∧
      t.dev.f ⟨0x4200001C + 0x1000 * r.val, 16, 8⟩ = s.dev.f ⟨0x4200001C + 0x1000 * r.val, 16, 8⟩) ∧
  (∀ (s : State) (r i : Fin 16) (filled crcOk ue : Bool) (parity : Fin 4) (smp : SampleRec) (at_ : Nat),
      s.dev.ringOn r = true → s.dev.f ⟨0x42000000 + 0x1000 * r.val, 0, 1⟩ = 0 →
    ∃ t, exec (.sampleContainerRx r i filled crcOk parity smp at_ ue) s = .next t ∧
      Unmoved s.dev t.dev) ∧
  (∀ (s : State) (r i : Fin 16) (at_ n : Nat),
      s.dev.ringOn r = true → s.dev.f ⟨0x42000000 + 0x1000 * r.val, 12, 4⟩ ≤ s.dev.f ⟨0x42000080 + 0x1000 * r.val + 4 * i.val, 24, 8⟩ →
      1 ≤ s.dev.f ⟨0x42000080 + 0x1000 * r.val + 4 * i.val, 24, 8⟩ → isleOf r.val i.val s.dev = some n → (s.dev.isle n).entry.role = 1 →
      (s.dev.str (s.dev.isle n).entry.string).fq = [] →
    ∃ t, exec (.nodeSilent r i at_) s = .next t ∧
      (t.dev.str (s.dev.isle n).entry.string).fq = [⟨7, (s.dev.isle n).entry.gPos, s.dev.tide.k, at_⟩] ∧ t.dev.isles = s.dev.isles) ∧
  (∀ (s : State) (r i : Fin 16) (at_ : Nat),
      s.dev.ringOn r = true → s.dev.f ⟨0x42000080 + 0x1000 * r.val + 4 * i.val, 24, 8⟩ < s.dev.f ⟨0x42000000 + 0x1000 * r.val, 12, 4⟩ →
    ∃ t, exec (.nodeSilent r i at_) s = .next t ∧
      Unmoved s.dev t.dev)

/-- The sample train goes once; an edge frame starts only where it ends before the next edge, else it waits and FRM_WAIT counts it; a service
frame goes only while no edge frame waits, one per tick; echoes are compared.
with the engine on and the lane in data: the train of all containers, given to the lane as the blocks of its frame with the ring's next
sequence number; the first edge frame when it fits, and a frame newly held counted; the first request when the ring is free of edge frames
and none has gone in the tick; an echo that equals the frame sent leaves no mark, one that differs sets ECHO_ERR and is counted while
ECHO_CHK is set.
Rules: R225, R229, R263. -/
def Obligations.FramesGoDownTheRing : Prop :=
  (∀ (s : State) (r : Fin 16),
      s.dev.ringOn r = true → ringSends r.val s.dev = true → s.dev.f ⟨0x42200000 + 0x400 * r.val, 10, 2⟩ ≠ 1 → (s.dev.ring r.val).trainSent = false →
    ∃ t, exec (.sampleTrainTx r) s = .next t ∧
      (t.dev.ring r.val) = { (s.dev.ring r.val) with trainSent := true, seq := ((s.dev.ring r.val).seq + 1) % 65536 } ∧
      Out.sampleTrain r.val (s.dev.f ⟨0x42000000 + 0x1000 * r.val, 4, 4⟩ + 1) ∈ t.dev.out ∧
      (t.dev.lane r.val).frames.getLast? = some (frameBlocks (headBytes 3 1 0 r.val true s.dev.tide.k (48 * (s.dev.f ⟨0x42000000 + 0x1000 * r.val, 4, 4⟩ + 1)) (s.dev.ring r.val).seq ++ trainBody (s.dev.f ⟨0x42000000 + 0x1000 * r.val, 4, 4⟩ + 1))) ∧
      t.dev.regs = s.dev.regs) ∧
  (∀ (s : State) (r : Fin 16),
      s.dev.ringOn r = true → s.dev.f ⟨0x42200000 + 0x400 * r.val, 10, 2⟩ ≠ 1 →
      (ringSends r.val s.dev = false ∨ (s.dev.ring r.val).trainSent = true) →
    ∃ t, exec (.sampleTrainTx r) s = .next t ∧
      Unmoved s.dev t.dev) ∧
  (∀ (s : State) (r : Fin 16) (at_ : Nat) (f : EdgeFrame) (l : List EdgeFrame),
      s.dev.ringOn r = true → ringSends r.val s.dev = true → s.dev.f ⟨0x42200000 + 0x400 * r.val, 10, 2⟩ ≠ 1 → (s.dev.ring r.val).trainSent = true →
      (s.dev.ring r.val).egress = f :: l → fitsTick r.val at_ (edgeBlocks f) s.dev = true → s.dev.f ⟨0x42000004 + 0x1000 * r.val, 0, 2⟩ ≠ 0 →
    ∃ t, exec (.edgeFrameTx r at_) s = .next t ∧
      (t.dev.ring r.val) = { (s.dev.ring r.val) with egress := l, seq := ((s.dev.ring r.val).seq + 1) % 65536, sentFrames := (s.dev.ring r.val).sentFrames ++ [{ f with waited := false }] } ∧
      Out.edgeFrame r.val { f with waited := false } ∈ t.dev.out ∧
      (t.dev.lane r.val).frames.getLast? = some (frameBlocks (headBytes 2 1 f.node r.val false s.dev.tide.k (8 * edgeBlocks f - 16) (s.dev.ring r.val).seq ++ crcAfter (edgeBody f) (headBytes 2 1 f.node r.val false s.dev.tide.k (8 * edgeBlocks f - 16) (s.dev.ring r.val).seq))) ∧
      t.dev.regs = s.dev.regs) ∧
  (∀ (s : State) (r : Fin 16) (at_ : Nat) (f : EdgeFrame),
      s.dev.ringOn r = true → ringSends r.val s.dev = true → s.dev.f ⟨0x42200000 + 0x400 * r.val, 10, 2⟩ ≠ 1 → (s.dev.ring r.val).trainSent = true →
      (s.dev.ring r.val).egress = [f] → f.waited = false → fitsTick r.val at_ (edgeBlocks f) s.dev = false →
    ∃ t, exec (.edgeFrameTx r at_) s = .next t ∧
      (t.dev.ring r.val) = { (s.dev.ring r.val) with egress := [{ f with waited := true }] } ∧
      t.dev.f ⟨0x42000020 + 0x1000 * r.val, 24, 8⟩ = min (s.dev.f ⟨0x42000020 + 0x1000 * r.val, 24, 8⟩ + 1) 255 ∧ t.dev.out = []) ∧
  (∀ (s : State) (r : Fin 16) (at_ : Nat) (j : SvcJob) (l : List SvcJob),
      s.dev.ringOn r = true → ringSends r.val s.dev = true → s.dev.f ⟨0x42200000 + 0x400 * r.val, 10, 2⟩ ≠ 1 → (s.dev.ring r.val).svcSent = false →
      (s.dev.ring r.val).trainSent = true → (s.dev.ring r.val).egress = [] → (s.dev.ring r.val).out = [] → (s.dev.ring r.val).jobs = j :: l →
      fitsTick r.val at_ (blocksOf (18 + j.req.rlen)) s.dev = true →
    ∃ t, exec (.serviceFrameTx r at_) s = .next t ∧
      (t.dev.ring r.val).svcSent = true ∧ (t.dev.ring r.val).jobs = l ∧ (t.dev.ring r.val).seq = ((s.dev.ring r.val).seq + 1) % 65536 ∧
      (t.dev.ring r.val).out.map (fun x => { x with req := { x.req with tag := j.req.tag } }) = [{ j with waited := false }] ∧
      (j.purpose = 1 → (t.dev.ring r.val).out = [{ j with waited := false }] ∧ Out.service r.val j.req ∈ t.dev.out) ∧ t.dev.regs = s.dev.regs) ∧
  (∀ (s : State) (r : Fin 16) (at_ : Nat),
      s.dev.ringOn r = true → ((s.dev.ring r.val).svcSent = true ∨ (s.dev.ring r.val).egress ≠ []) →
    ∃ t, exec (.serviceFrameTx r at_) s = .next t ∧
      Unmoved s.dev t.dev) ∧
  (∀ (s : State) (r : Fin 16) (f : EdgeFrame) (l : List EdgeFrame),
      s.dev.ringOn r = true → frameErr r.val s.dev = false → (s.dev.ring r.val).sentFrames = f :: l →
    ∃ t, exec (.edgeEchoRx r true f) s = .next t ∧
      (t.dev.ring r.val) = { (s.dev.ring r.val) with sentFrames := l } ∧ t.dev.regs = s.dev.regs) ∧
  (∀ (s : State) (r : Fin 16) (crcOk : Bool) (f g : EdgeFrame) (l : List EdgeFrame),
      s.dev.ringOn r = true → (s.dev.ring r.val).sentFrames = g :: l → (crcOk = false ∨ f ≠ g ∨ frameErr r.val s.dev = true) →
      s.dev.f ⟨0x42000000 + 0x1000 * r.val, 1, 1⟩ = 1 →
    ∃ t, exec (.edgeEchoRx r crcOk f) s = .next t ∧
      (t.dev.ring r.val) = { (s.dev.ring r.val) with sentFrames := l } ∧ t.dev.f ⟨0x42000004 + 0x1000 * r.val, 18, 1⟩ = 1 ∧
      t.dev.f ⟨0x42000020 + 0x1000 * r.val, 0, 16⟩ = min (s.dev.f ⟨0x42000020 + 0x1000 * r.val, 0, 16⟩ + 1) 65535)

/-- Loop delays are averaged over the last 16 accepted; a ring leaves ENUM only with exactly N entries and CONFIG when every request has ended.
an accepted echo enters the mean and ends the run of discards; one that failed is a discard and leaves D; a reply of N entries takes ENUM to
CONFIG, any other count stays, more than N sets ENUM_ERR; 16 ticks in ENUM set it too; CONFIG over takes the ring to READY; the drivers of a
READY ring are checked.
Rules: R229, R234, R235. -/
def Obligations.RingsAreMeasuredAndBroughtUp : Prop :=
  (∀ (s : State) (r : Fin 16) (delay : Nat),
      s.dev.ringOn r = true → s.dev.f ⟨0x42000000 + 0x1000 * r.val, 0, 1⟩ = 1 → frameErr r.val s.dev = false →
      ((s.dev.ring r.val).delays = [] ∨ ((delay : Int) - s.dev.f ⟨0x42000014 + 0x1000 * r.val, 0, 24⟩).natAbs ≤ 80) →
    ∃ t, exec (.tideEchoRx r delay true) s = .next t ∧
      (t.dev.ring r.val).delays = (delay :: (s.dev.ring r.val).delays).take 16 ∧ (t.dev.ring r.val).discards = 0 ∧
      t.dev.f ⟨0x42000014 + 0x1000 * r.val, 0, 24⟩ = (2 * ((delay :: (s.dev.ring r.val).delays).take 16).sum + ((delay :: (s.dev.ring r.val).delays).take 16).length) / (2 * ((delay :: (s.dev.ring r.val).delays).take 16).length) % 2 ^ 24) ∧
  (∀ (s : State) (r : Fin 16) (delay : Nat),
      s.dev.ringOn r = true → s.dev.f ⟨0x42000000 + 0x1000 * r.val, 0, 1⟩ = 1 → (s.dev.ring r.val).discards < 15 →
    ∃ t, exec (.tideEchoRx r delay false) s = .next t ∧
      (t.dev.ring r.val) = { (s.dev.ring r.val) with discards := (s.dev.ring r.val).discards + 1 } ∧
      t.dev.f ⟨0x42000014 + 0x1000 * r.val, 0, 24⟩ = s.dev.f ⟨0x42000014 + 0x1000 * r.val, 0, 24⟩ ∧
      OnlyRegs [0x42000004 + 0x1000 * r.val, 0x42000020 + 0x1000 * r.val] s.dev { t.dev with rings := s.dev.rings, lanes := s.dev.lanes }) ∧
  (∀ (s : State) (r : Fin 16) (delay : Nat),
      s.dev.ringOn r = true → s.dev.f ⟨0x42000000 + 0x1000 * r.val, 0, 1⟩ = 1 → 15 ≤ (s.dev.ring r.val).discards →
    ∃ t, exec (.tideEchoRx r delay false) s = .next t ∧
      (t.dev.ring r.val) = { (s.dev.ring r.val) with discards := 0, delays := [] }) ∧
  (∀ (s : State) (r : Fin 16) (filled : Fin 17),
      s.dev.ringOn r = true → frameErr r.val s.dev = false → s.dev.f ⟨0x42000004 + 0x1000 * r.val, 0, 2⟩ = 1 →
      filled.val = s.dev.f ⟨0x42000000 + 0x1000 * r.val, 4, 4⟩ + 1 →
    ∃ t, exec (.enumReplyRx r filled) s = .next t ∧
      t.dev.f ⟨0x42000004 + 0x1000 * r.val, 0, 2⟩ = 2 ∧ t.dev.f ⟨0x42000004 + 0x1000 * r.val, 8, 5⟩ = filled.val) ∧
  (∀ (s : State) (r : Fin 16) (filled : Fin 17),
      s.dev.ringOn r = true → frameErr r.val s.dev = false → s.dev.f ⟨0x42000004 + 0x1000 * r.val, 0, 2⟩ = 1 →
      filled.val ≠ s.dev.f ⟨0x42000000 + 0x1000 * r.val, 4, 4⟩ + 1 →
    ∃ t, exec (.enumReplyRx r filled) s = .next t ∧
      t.dev.f ⟨0x42000004 + 0x1000 * r.val, 0, 2⟩ = 1 ∧ t.dev.f ⟨0x42000004 + 0x1000 * r.val, 8, 5⟩ = filled.val ∧
      (s.dev.f ⟨0x42000000 + 0x1000 * r.val, 4, 4⟩ + 1 < filled.val → t.dev.f ⟨0x42000004 + 0x1000 * r.val, 21, 1⟩ = 1) ∧
      OnlyRegs [0x42000004 + 0x1000 * r.val] s.dev { t.dev with rings := s.dev.rings }) ∧
  (∀ (s : State) (r : Fin 16) (filled : Fin 17),
      s.dev.ringOn r = true → frameErr r.val s.dev = true →
    ∃ t, exec (.enumReplyRx r filled) s = .next t ∧
      t.dev.f ⟨0x42000004 + 0x1000 * r.val, 0, 2⟩ = s.dev.f ⟨0x42000004 + 0x1000 * r.val, 0, 2⟩ ∧ (t.dev.ring r.val) = (s.dev.ring r.val) ∧
      t.dev.regs = s.dev.regs) ∧
  (∀ (s : State) (r : Fin 16) (filled : Fin 17),
      s.dev.ringOn r = true → s.dev.f ⟨0x42000004 + 0x1000 * r.val, 0, 2⟩ ≠ 1 →
    ∃ t, exec (.enumReplyRx r filled) s = .next t ∧
      Unmoved s.dev t.dev) ∧
  (∀ (s : State) (r : Fin 16),
      s.dev.ringOn r = true → s.dev.f ⟨0x42000004 + 0x1000 * r.val, 0, 2⟩ = 1 → 16 ≤ (s.dev.ring r.val).enumTicks →
    ∃ t, exec (.enumErr r) s = .next t ∧
      t.dev.f ⟨0x42000004 + 0x1000 * r.val, 21, 1⟩ = 1 ∧ OnlyRegs [0x42000004 + 0x1000 * r.val] s.dev t.dev) ∧
  (∀ (s : State) (r : Fin 16),
      s.dev.ringOn r = true → (s.dev.f ⟨0x42000004 + 0x1000 * r.val, 0, 2⟩ ≠ 1 ∨ (s.dev.ring r.val).enumTicks < 16) →
    ∃ t, exec (.enumErr r) s = .next t ∧
      Unmoved s.dev t.dev) ∧
  (∀ (s : State) (r : Fin 16),
      s.dev.ringOn r = true → s.dev.f ⟨0x42000004 + 0x1000 * r.val, 0, 2⟩ = 2 → cfgOver r.val s.dev = true →
    ∃ t, exec (.ringReady r) s = .next t ∧
      t.dev.f ⟨0x42000004 + 0x1000 * r.val, 0, 2⟩ = 3 ∧ OnlyRegs [0x42000004 + 0x1000 * r.val] s.dev { t.dev with rings := s.dev.rings }) ∧
  (∀ (s : State) (r : Fin 16),
      s.dev.ringOn r = true → s.dev.f ⟨0x42000004 + 0x1000 * r.val, 0, 2⟩ = 2 → cfgOver r.val s.dev = false →
    ∃ t, exec (.ringReady r) s = .next t ∧
      Unmoved s.dev t.dev) ∧
  (∀ (s : State) (r : Fin 16),
      s.dev.ringOn r = true → s.dev.f ⟨0x42000004 + 0x1000 * r.val, 0, 2⟩ = 3 →
    ∃ t, exec (.drvCheckPeriod r) s = .next t ∧
      (t.dev.ring r.val).jobs = (s.dev.ring r.val).jobs ++ (List.range (s.dev.f ⟨0x42000000 + 0x1000 * r.val, 4, 4⟩ + 1)).map (fun i => checkJob i false) ∧
      t.dev.regs = s.dev.regs)

/-- A host request is queued one at a time; a reply ends it with DONE, a failed one is tried again up to three times and then ends with TMO.
GO queues the request that the registers hold and sets BUSY; a SELFTEST to a node whose enable bit is sent is refused with STEST_REJ; a good
reply shows DONE and its bytes; a bad one goes back to the front with its tries counted; after three retries SVC_TMO, DONE and TMO.
Rules: R263, R284. -/
def Obligations.ServiceRequestsEnd : Prop :=
  (∀ (s : State) (r : Fin 16),
      s.dev.ringOn r = true → s.dev.f ⟨0x42000000 + 0x1000 * r.val, 0, 1⟩ = 1 → s.dev.f ⟨0x42000030 + 0x1000 * r.val, 0, 8⟩ ≠ 7 →
      (((s.dev.ring r.val).jobs ++ (s.dev.ring r.val).out).any fun j => j.purpose < 2) = false →
    ∃ t, exec (.serviceRequest r none) s = .next t ∧
      t.dev.f ⟨0x42000030 + 0x1000 * r.val, 25, 1⟩ = 1 ∧ (t.dev.ring r.val).jobs.length = (s.dev.ring r.val).jobs.length + 1 ∧
      (t.dev.ring r.val).jobs.getLast?.map (fun j => (j.req.code, j.req.node, j.purpose, j.tries)) = some (s.dev.f ⟨0x42000030 + 0x1000 * r.val, 0, 8⟩, s.dev.f ⟨0x42000030 + 0x1000 * r.val, 8, 4⟩, 0, 0) ∧
      OnlyRegs [0x42000030 + 0x1000 * r.val] s.dev { t.dev with rings := s.dev.rings }) ∧
  (∀ (s : State) (r : Fin 16),
      s.dev.ringOn r = true → s.dev.f ⟨0x42000030 + 0x1000 * r.val, 0, 8⟩ = 7 →
      s.dev.f ⟨0x4200000C + 0x1000 * r.val, s.dev.f ⟨0x42000030 + 0x1000 * r.val, 8, 4⟩, 1⟩ = 1 →
    ∃ t, exec (.serviceRequest r none) s = .next t ∧
      t.dev.f ⟨0x42000150 + 0x1000 * r.val, 2, 1⟩ = 1 ∧ OnlyRegs [0x42000150 + 0x1000 * r.val] s.dev t.dev) ∧
  (∀ (s : State) (r i : Fin 16) (l : List Byte),
      s.dev.ringOn r = true → s.dev.f ⟨0x42000000 + 0x1000 * r.val, 0, 1⟩ = 1 → leAt l 0 1 ≠ 7 →
      (((s.dev.ring r.val).jobs ++ (s.dev.ring r.val).out).any fun j => j.purpose < 2) = false →
    ∃ t, exec (.serviceRequest r (some (i, l))) s = .next t ∧
      (t.dev.ring r.val).jobs.length = (s.dev.ring r.val).jobs.length + 1 ∧
      (t.dev.ring r.val).jobs.getLast?.map (fun j => (j.req.code, j.req.node, j.purpose)) = some (leAt l 0 1, i.val, 1) ∧ t.dev.regs = s.dev.regs) ∧
  (∀ (s : State) (r i : Fin 16) (l : List Byte) (at_ : Nat) (j : SvcJob),
      s.dev.ringOn r = true → (s.dev.ring r.val).out = [j] → j.req.node = i.val → j.purpose = 0 → leAt l 0 1 ≠ 0 → frameErr r.val s.dev = false →
    ∃ t, exec (.serviceReplyRx r i true l at_) s = .next t ∧
      (t.dev.ring r.val) = { (s.dev.ring r.val) with out := [], reply := l } ∧ t.dev.f ⟨0x42000030 + 0x1000 * r.val, 25, 1⟩ = 0 ∧
      t.dev.f ⟨0x42000030 + 0x1000 * r.val, 26, 1⟩ = 1 ∧ t.dev.f ⟨0x42000030 + 0x1000 * r.val, 27, 1⟩ = s.dev.f ⟨0x42000030 + 0x1000 * r.val, 27, 1⟩) ∧
  (∀ (s : State) (r i : Fin 16) (l : List Byte) (at_ : Nat) (j : SvcJob),
      s.dev.ringOn r = true → (s.dev.ring r.val).out = [j] → j.req.node = i.val → j.tries < 3 →
    ∃ t, exec (.serviceReplyRx r i false l at_) s = .next t ∧
      (t.dev.ring r.val) = { (s.dev.ring r.val) with out := [], jobs := { j with tries := j.tries + 1 } :: (s.dev.ring r.val).jobs } ∧
      t.dev.regs = s.dev.regs) ∧
  (∀ (s : State) (r i : Fin 16) (at_ : Nat) (j : SvcJob),
      s.dev.ringOn r = true → (s.dev.ring r.val).out = [j] → j.req.node = i.val → j.purpose = 0 → 3 ≤ j.tries →
    ∃ t, exec (.svcTmo r i at_) s = .next t ∧
      (t.dev.ring r.val) = { (s.dev.ring r.val) with out := [], reply := [] } ∧ t.dev.f ⟨0x42000004 + 0x1000 * r.val, 19, 1⟩ = 1 ∧
      t.dev.f ⟨0x42000030 + 0x1000 * r.val, 26, 1⟩ = 1 ∧ t.dev.f ⟨0x42000030 + 0x1000 * r.val, 27, 1⟩ = 1) ∧
  (∀ (s : State) (r i : Fin 16) (at_ : Nat) (j : SvcJob),
      s.dev.ringOn r = true → (s.dev.ring r.val).out = [j] → j.tries < 3 →
    ∃ t, exec (.svcTmo r i at_) s = .next t ∧
      Unmoved s.dev t.dev)

/-- A valid ALERT whose policy asks for it sets the halt bit of its node; a release clears it only where R278 allows.
a valid ALERT is shown and counted, and unless its action is REPORT the halt bit of its node stands from then on; one that fails its CRC-8
is counted and changes nothing else; a release clears the bit of a cell node whose string is OFF, but not in the cycle of an ALERT of the
node, and not in PRECHARGE or RUN, where HREL_REJ is set; the echo of a HALT shows the loop, its absence sets ECHO_ERR.
Rules: R251, R252, R271, R278. -/
def Obligations.HaltMatrixDecides : Prop :=
  (∀ (s : State) (r i : Fin 16) (cause : BitVec 8) (gates : BitVec 12) (at_ : Nat),
      s.dev.ringOn r = true → s.dev.f ⟨0x42000000 + 0x1000 * r.val, 0, 1⟩ = 1 → i.val ≤ s.dev.f ⟨0x42000000 + 0x1000 * r.val, 4, 4⟩ →
      haltAction r.val i.val (cause.toNat % 8) s.dev ≠ 0 →
    ∃ t, exec (.alertRx r (BitVec.ofNat 8 i.val) cause gates true at_) s = .next t ∧
      haltStands r.val i.val t.dev = true ∧ t.dev.f ⟨0x42000004 + 0x1000 * r.val, 16, 1⟩ = 1 ∧
      t.dev.f ⟨0x42000028 + 0x1000 * r.val, 0, 16⟩ = min (s.dev.f ⟨0x42000028 + 0x1000 * r.val, 0, 16⟩ + 1) 65535 ∧
      t.dev.rd (0x42000024 + 0x1000 * r.val) = BitVec.ofNat 32 (i.val + 256 * cause.toNat + 65536 * gates.toNat)) ∧
  (∀ (s : State) (r : Fin 16) (node cause : BitVec 8) (gates : BitVec 12) (at_ : Nat),
      s.dev.ringOn r = true → s.dev.f ⟨0x42000000 + 0x1000 * r.val, 0, 1⟩ = 1 →
    ∃ t, exec (.alertRx r node cause gates false at_) s = .next t ∧
      t.dev.f ⟨0x42000004 + 0x1000 * r.val, 17, 1⟩ = 1 ∧
      t.dev.f ⟨0x42000020 + 0x1000 * r.val, 16, 8⟩ = min (s.dev.f ⟨0x42000020 + 0x1000 * r.val, 16, 8⟩ + 1) 255 ∧
      OnlyRegs [0x42000004 + 0x1000 * r.val, 0x42000020 + 0x1000 * r.val] s.dev t.dev) ∧
  (∀ (s : State) (r : Fin 16) (node : BitVec 8) (loop : Nat),
      s.dev.ringOn r = true → (s.dev.ring r.val).echoes.contains node.toNat = true → node ≠ 0xFF →
    ∃ t, exec (.haltEchoRx r node loop) s = .next t ∧
      t.dev.f ⟨0x42000144 + 0x1000 * r.val, 0, 24⟩ = loop % 2 ^ 24 ∧
      (t.dev.ring r.val) = { (s.dev.ring r.val) with echoes := (s.dev.ring r.val).echoes.erase node.toNat, echoed := (s.dev.ring r.val).echoed + 1 } ∧
      OnlyRegs [0x42000144 + 0x1000 * r.val] s.dev { t.dev with rings := s.dev.rings }) ∧
  (∀ (s : State) (r : Fin 16) (node : BitVec 8),
      s.dev.ringOn r = true → (s.dev.ring r.val).echoes.contains node.toNat = true →
    ∃ t, exec (.haltEchoTimeout r node) s = .next t ∧
      t.dev.f ⟨0x42000004 + 0x1000 * r.val, 18, 1⟩ = 1 ∧
      (t.dev.ring r.val) = { (s.dev.ring r.val) with echoes := (s.dev.ring r.val).echoes.erase node.toNat }) ∧
  (∀ (s : State) (r : Fin 16) (node : BitVec 8),
      s.dev.ringOn r = true → (s.dev.ring r.val).echoes.contains node.toNat = false →
    ∃ t, exec (.haltEchoTimeout r node) s = .next t ∧
      Unmoved s.dev t.dev) ∧
  (∀ (s : State) (r i : Fin 16) (mask : BitVec 16) (n : Nat),
      s.dev.ringOn r = true → mask.getLsbD i.val = true → isleOf r.val i.val s.dev = some n → (s.dev.isle n).entry.role = 1 →
      (s.dev.str (s.dev.isle n).entry.string).sstate = 0 →
    ∃ t, exec (.haltRelease r mask none) s = .next t ∧
      haltStands r.val i.val t.dev = false ∧ t.dev.strings = s.dev.strings) ∧
  (∀ (s : State) (r i : Fin 16) (mask : BitVec 16) (n : Nat),
      s.dev.ringOn r = true → mask.getLsbD i.val = true → isleOf r.val i.val s.dev = some n → (s.dev.isle n).entry.role = 1 →
      ((s.dev.str (s.dev.isle n).entry.string).sstate = 1 ∨ (s.dev.str (s.dev.isle n).entry.string).sstate = 2) →
      (s.dev.str (s.dev.isle n).entry.string).excl.contains (s.dev.isle n).entry.gPos = false →
    ∃ t, exec (.haltRelease r mask none) s = .next t ∧
      haltStands r.val i.val t.dev = haltStands r.val i.val s.dev ∧ t.dev.f ⟨0x42000150 + 0x1000 * r.val, 1, 1⟩ = 1) ∧
  (∀ (s : State) (r i : Fin 16) (mask : BitVec 16),
      s.dev.ringOn r = true → mask.getLsbD i.val = false →
    ∃ t, exec (.haltRelease r mask none) s = .next t ∧
      haltStands r.val i.val t.dev = haltStands r.val i.val s.dev) ∧
  (∀ (s : State) (r i : Fin 16) (mask : BitVec 16) (at_ : Nat),
      s.dev.ringOn r = true → (rnode (s.dev.ring r.val) i.val).alertAt = some (s.dev.tide.abs + at_) →
    ∃ t, exec (.haltRelease r mask (some at_)) s = .next t ∧
      haltStands r.val i.val t.dev = haltStands r.val i.val s.dev)

/-- A halt policy is written in COMMISSION alone; an SC_ACT of 0 is refused in every mode.
R274: in COMMISSION a write stores its policy; in any other mode it has no effect but POL_REJ; a value of 0 in SC_ACT leaves that field in
every mode.
Rules: R274. -/
def Obligations.HaltPolicyWritesAreGuarded : Prop :=
  (∀ (s : State) (r i : Fin 16) (v : Word),
      s.dev.ringOn r = true → s.dev.mode = 2 → fget v 0 2 ≠ 0 →
    ∃ t, exec (.haltPolicyWrite r i v) s = .next t ∧
      t.dev.f ⟨0x42000100 + 0x1000 * r.val + 4 * i.val, 0, 6⟩ = fget v 0 6 ∧ t.dev.f ⟨0x42000100 + 0x1000 * r.val + 4 * i.val, 8, 4⟩ = fget v 8 4 ∧
      OnlyRegs [0x42000100 + 0x1000 * r.val + 4 * i.val] s.dev t.dev) ∧
  (∀ (s : State) (r i : Fin 16) (v : Word),
      s.dev.ringOn r = true → s.dev.mode ≠ 2 →
    ∃ t, exec (.haltPolicyWrite r i v) s = .next t ∧
      t.dev.f ⟨0x42000150 + 0x1000 * r.val, 0, 1⟩ = 1 ∧ OnlyRegs [0x42000150 + 0x1000 * r.val] s.dev t.dev) ∧
  (∀ (s : State) (r i : Fin 16) (v : Word),
      s.dev.ringOn r = true → fget v 0 2 = 0 →
    ∃ t, exec (.haltPolicyWrite r i v) s = .next t ∧
      t.dev.f ⟨0x42000150 + 0x1000 * r.val, 0, 1⟩ = 1 ∧
      t.dev.f ⟨0x42000100 + 0x1000 * r.val + 4 * i.val, 0, 2⟩ = s.dev.f ⟨0x42000100 + 0x1000 * r.val + 4 * i.val, 0, 2⟩)

/-- HALT, silence and orphaning turn every gate of a node off; an enable bit of 0 disables it; ALERTs report driver faults without a gate
action.
a HALT addressed to the node or broadcast, with a valid CRC-8, takes it to HALTED with all gates off and closes the bypass where asked; one
that fails, or names another, does nothing; two silent windows, or N_orph without MASTER, take an ENABLED or DISABLED node to SAFE with that
cause and all gates off; a valid header with enable 0 takes ENABLED to DISABLED with all gates off; a driver report sends an ALERT and moves
no gate; a sound edge frame adds its coverage and moves no gate by itself, one that fails a check is counted; playing the gates on begins
the refresh of an upper gate that has been on for BS_MAX; a node whose receiver leaves READY drops its number and its gates are off.
Rules: R243, R247, R249, R250, R253, R256, R257, R259. -/
def Obligations.NodesTurnOffSafely : Prop :=
  (∀ (s : State) (r i : Fin 16) (b : Bool) (target : BitVec 8) (byp : Bool) (par : Fin 4) (crc : BitVec 8) (at_ : Nat),
      (target = 0xFF ∨ ((s.dev.node r.val i.val).path b).num = some target.toNat) →
      crc8 [0x4B, 2, target, BitVec.ofNat 8 (b2n byp), 0, 0, BitVec.ofNat 8 par] = crc.toNat →
    ∃ t, exec (.nodeHaltRx r i b target byp par crc at_) s = .next t ∧
      (t.dev.node r.val i.val).state = 3 ∧
      (∀ p : Fin 6, ((t.dev.node r.val i.val).pair p.val).up = false ∧ ((t.dev.node r.val i.val).pair p.val).lo = false) ∧
      (t.dev.node r.val i.val).bypass = ((s.dev.node r.val i.val).bypass || byp) ∧ t.dev.regs = s.dev.regs ∧
      t.dev.out = [.nodeForward r.val i.val b [ctrlBlk [0x4B, 2, target, BitVec.ofNat 8 (b2n byp), 0, 0, BitVec.ofNat 8 par, crc]]]) ∧
  (∀ (s : State) (r i : Fin 16) (b : Bool) (target : BitVec 8) (byp : Bool) (par : Fin 4) (crc : BitVec 8) (at_ : Nat),
      (crc8 [0x4B, 2, target, BitVec.ofNat 8 (b2n byp), 0, 0, BitVec.ofNat 8 par] ≠ crc.toNat ∨ (target ≠ 0xFF ∧ ((s.dev.node r.val i.val).path b).num ≠ some target.toNat)) →
    ∃ t, exec (.nodeHaltRx r i b target byp par crc at_) s = .next t ∧
      t.dev.nodes = s.dev.nodes ∧ t.dev.regs = s.dev.regs ∧
      t.dev.out = [.nodeForward r.val i.val b [ctrlBlk [0x4B, 2, target, BitVec.ofNat 8 (b2n byp), 0, 0, BitVec.ofNat 8 par, crc]]]) ∧
  (∀ (s : State) (r i : Fin 16),
      2 ≤ (s.dev.node r.val i.val).silent → ((s.dev.node r.val i.val).state = 1 ∨ (s.dev.node r.val i.val).state = 2) →
    ∃ t, exec (.nodeSilence r i) s = .next t ∧
      (t.dev.node r.val i.val).state = 4 ∧ (t.dev.node r.val i.val).safeCause = 1 ∧
      (∀ p : Fin 6, ((t.dev.node r.val i.val).pair p.val).up = false ∧ ((t.dev.node r.val i.val).pair p.val).lo = false) ∧
      (t.dev.node r.val i.val).bypass = ((s.dev.node r.val i.val).bypass || (s.dev.node r.val i.val).safeByp)) ∧
  (∀ (s : State) (r i : Fin 16),
      (s.dev.node r.val i.val).silent < 2 →
    ∃ t, exec (.nodeSilence r i) s = .next t ∧
      Unmoved s.dev t.dev) ∧
  (∀ (s : State) (r i : Fin 16),
      (s.dev.node r.val i.val).norph ≤ (s.dev.node r.val i.val).orphan → ((s.dev.node r.val i.val).state = 1 ∨ (s.dev.node r.val i.val).state = 2) →
    ∃ t, exec (.nodeOrphan r i) s = .next t ∧
      (t.dev.node r.val i.val).state = 4 ∧ (t.dev.node r.val i.val).safeCause = 2 ∧
      (∀ p : Fin 6, ((t.dev.node r.val i.val).pair p.val).up = false ∧ ((t.dev.node r.val i.val).pair p.val).lo = false) ∧
      (t.dev.node r.val i.val).bypass = ((s.dev.node r.val i.val).bypass || (s.dev.node r.val i.val).safeByp)) ∧
  (∀ (s : State) (r i : Fin 16),
      (s.dev.node r.val i.val).orphan < (s.dev.node r.val i.val).norph →
    ∃ t, exec (.nodeOrphan r i) s = .next t ∧
      Unmoved s.dev t.dev) ∧
  (∀ (s : State) (r i : Fin 16) (b : Bool) (hd : FrameHdr) (h : TideHdr) (arr : Nat),
      (frameOk hd 1 32 2 = false ∨ ¬ hd.crc = crc16 (hdrBytes hd ++ tideBody h)) →
    ∃ t, exec (.nodeTideHeaderRx r i b hd h arr) s = .next t ∧
      (t.dev.node r.val i.val) = (s.dev.node r.val i.val).tally 1 1 ∧ t.dev.regs = s.dev.regs ∧
      t.dev.out = [.nodeForward r.val i.val b (frameBlocks (hdrBytes hd ++ tideBody h ++ leBytes 2 hd.crc))]) ∧
  (∀ (s : State) (r i : Fin 16) (hd : FrameHdr) (h : TideHdr) (arr m : Nat),
      frameOk hd 1 32 2 = true → hd.crc = crc16 (hdrBytes hd ++ tideBody h) → (s.dev.node r.val i.val).follow = some false →
      (s.dev.node r.val i.val).a.num = some m → (s.dev.node r.val i.val).a.last = none →
      ((s.dev.node r.val i.val).a.ring = none ∨ (s.dev.node r.val i.val).a.ring = some hd.ring) → (s.dev.node r.val i.val).state = 2 →
      nbit h.en m = false → nbit h.halt m = false →
    ∃ t, exec (.nodeTideHeaderRx r i false hd h arr) s = .next t ∧
      (t.dev.node r.val i.val).state = 1 ∧
      (∀ p : Fin 6, ((t.dev.node r.val i.val).pair p.val).up = false ∧ ((t.dev.node r.val i.val).pair p.val).lo = false) ∧
      (t.dev.node r.val i.val).tick = h.tick ∧ (t.dev.node r.val i.val).tc = h.tc) ∧
  (∀ (s : State) (r i : Fin 16) (causes : Fin 8) (gates : BitVec 12),
    ∃ t, exec (.nodeDriverReport r i causes gates true) s = .next t ∧
      t.dev.out.length = (if ownDual r.val i.val then 2 else 1) ∧
      (∀ m, (s.dev.node r.val i.val).a.num = some m → t.dev.out.head? = some (.nodeAlert r.val i.val false (alertBlk m causes.val gates.toNat (s.dev.node r.val i.val).tick))) ∧
      (t.dev.node r.val i.val).pairs = (s.dev.node r.val i.val).pairs ∧ (t.dev.node r.val i.val).state = (s.dev.node r.val i.val).state ∧
      (t.dev.node r.val i.val).drvFlt = (if causes.val % 4 ≠ 0 then (s.dev.node r.val i.val).drvFlt ||| gates.toNat else (s.dev.node r.val i.val).drvFlt)) ∧
  (∀ (s : State) (r i : Fin 16) (causes : Fin 8) (gates : BitVec 12),
    ∃ t, exec (.nodeDriverReport r i causes gates false) s = .next t ∧
      t.dev.out = [] ∧ (t.dev.node r.val i.val).pairs = (s.dev.node r.val i.val).pairs ∧
      (t.dev.node r.val i.val).drvFlt = (s.dev.node r.val i.val).drvFlt) ∧
  (∀ (s : State) (r i : Fin 16),
      ((s.dev.node r.val i.val).path !(s.dev.node r.val i.val).onB).hdr = none → (s.dev.node r.val i.val).state = 1 →
      (s.dev.node r.val i.val).enNext = true → (s.dev.node r.val i.val).toggled = false → (s.dev.node r.val i.val).heard = true →
      (s.dev.node r.val i.val).master = true → 1 ≤ (s.dev.node r.val i.val).norph →
    ∃ t, exec (.nodeTickEdge r i false false) s = .next t ∧
      (t.dev.node r.val i.val).state = 2 ∧ (t.dev.node r.val i.val).tick = (s.dev.node r.val i.val).tick + 1 ∧
      (t.dev.node r.val i.val).heard = false ∧ (t.dev.node r.val i.val).silent = 0) ∧
  (∀ (s : State) (r i : Fin 16) (at_ : Nat),
      (s.dev.node r.val i.val).state ≠ 2 →
    ∃ t, exec (.nodeBootstrapRefresh r i at_) s = .next t ∧
      (t.dev.node r.val i.val).pairs = (s.dev.node r.val i.val).pairs ∧ (t.dev.node r.val i.val).state = (s.dev.node r.val i.val).state ∧
      t.dev.regs = s.dev.regs) ∧
  (∀ (s : State) (r i : Fin 16),
      (s.dev.node r.val i.val).follow ≠ some true → ((s.dev.node r.val i.val).state = 1 ∨ (s.dev.node r.val i.val).state = 2) →
    ∃ t, exec (.nodeTickEdge r i true false) s = .next t ∧
      (t.dev.node r.val i.val).state = 0 ∧ (t.dev.node r.val i.val).a.num = none ∧
      (∀ p : Fin 6, ((t.dev.node r.val i.val).pair p.val).up = false ∧ ((t.dev.node r.val i.val).pair p.val).lo = false) ∧
      Out.nodeTrain r.val i.val false ∈ t.dev.out) ∧
  (∀ (s : State) (r i : Fin 16) (at_ : Nat),
      (s.dev.node r.val i.val).state = 2 → (s.dev.node r.val i.val).bypass = false →
      (s.dev.node r.val i.val).played < lineOf (s.dev.node r.val i.val) at_ →
    ∃ t, exec (.nodeBootstrapRefresh r i at_) s = .next t ∧
      (t.dev.node r.val i.val).played = lineOf (s.dev.node r.val i.val) at_ ∧
      (∀ p : Fin 6, p.val < ownPairs r.val i.val → 0 < ownIdent r.val i.val 17 2 → ((s.dev.node r.val i.val).pair p.val).cover = [⟨true, false, (s.dev.node r.val i.val).played, lineOf (s.dev.node r.val i.val) at_, []⟩] → ((s.dev.node r.val i.val).pair p.val).refresh = none → ((s.dev.node r.val i.val).pair p.val).up = true → ((s.dev.node r.val i.val).pair p.val).upOn + 32 * ownIdent r.val i.val 17 2 ≤ lineOf (s.dev.node r.val i.val) at_ → lineOf (s.dev.node r.val i.val) at_ < ((s.dev.node r.val i.val).pair p.val).upOn + 32 * ownIdent r.val i.val 17 2 + 32 * ownIdent r.val i.val 19 2 → ((t.dev.node r.val i.val).pair p.val).up = false ∧ ((t.dev.node r.val i.val).pair p.val).refresh = some (((s.dev.node r.val i.val).pair p.val).upOn + 32 * ownIdent r.val i.val 17 2 + 32 * ownIdent r.val i.val 19 2)) ∧
      t.dev.regs = s.dev.regs) ∧
  (∀ (s : State) (r i : Fin 16) (b : Bool) (hd : FrameHdr) (f : EdgeFrame) (at_ : Nat),
      (frameOk hd 2 (8 * edgeBlocks f - 16) 2 = false ∨ ¬ hd.crc = crc16 (hdrBytes hd ++ edgeBody f)) →
    ∃ t, exec (.nodeEdgeFrameRx r i b hd f at_) s = .next t ∧
      (t.dev.node r.val i.val) = (s.dev.node r.val i.val).tally 1 1 ∧ t.dev.regs = s.dev.regs) ∧
  (∀ (s : State) (r i : Fin 16) (b : Bool) (hd : FrameHdr) (f : EdgeFrame) (at_ : Nat) (c : Cover),
      frameOk hd 2 (8 * edgeBlocks f - 16) 2 = true → hd.crc = crc16 (hdrBytes hd ++ edgeBody f) →
      ((s.dev.node r.val i.val).path b).num = some hd.node → (s.dev.node r.val i.val).state = 2 → f.cover = [c] → f.recs = [] →
      resolve (s.dev.node r.val i.val) c.fromPar c.fromSt < resolve (s.dev.node r.val i.val) c.toPar c.toSt →
      gridOf (s.dev.node r.val i.val) at_ + 80 ≤ resolve (s.dev.node r.val i.val) c.fromPar c.fromSt →
    ∃ t, exec (.nodeEdgeFrameRx r i b hd f at_) s = .next t ∧
      (⟨decide ((s.dev.node r.val i.val).follow = some b), b, 32 * resolve (s.dev.node r.val i.val) c.fromPar c.fromSt, 32 * resolve (s.dev.node r.val i.val) c.toPar c.toSt, []⟩ : NCover) ∈ ((t.dev.node r.val i.val).pair c.pair).cover ∧
      (∀ p : Fin 6, ((t.dev.node r.val i.val).pair p.val).up = ((s.dev.node r.val i.val).pair p.val).up ∧ ((t.dev.node r.val i.val).pair p.val).lo = ((s.dev.node r.val i.val).pair p.val).lo) ∧
      t.dev.out = [.nodeForward r.val i.val b (frameBlocks (hdrBytes hd ++ edgeBody f ++ leBytes 2 hd.crc))]) ∧
  (∀ (s : State) (r i : Fin 16) (b : Bool) (hd : FrameHdr) (f : EdgeFrame) (at_ : Nat),
      frameOk hd 2 (8 * edgeBlocks f - 16) 2 = true → hd.crc = crc16 (hdrBytes hd ++ edgeBody f) →
    ∃ t, exec (.nodeEdgeFrameRx r i b hd f at_) s = .next t ∧
      (∀ p : Fin 6, ((t.dev.node r.val i.val).pair p.val).up = ((s.dev.node r.val i.val).pair p.val).up ∧ ((t.dev.node r.val i.val).pair p.val).lo = ((s.dev.node r.val i.val).pair p.val).lo) ∧
      (t.dev.node r.val i.val).state = (s.dev.node r.val i.val).state ∧ t.dev.regs = s.dev.regs)

/-- Whatever frames, repeats and refreshes ask, the node never has both gates of a pair on.
in any node whose pairs have at most one gate on, and the upper off during a forced refresh, the same holds after its gates are played to
any instant.
Rules: R249. -/
def Obligations.NodeInterlockHolds : Prop :=
  (∀ (r i : Nat) (t : Int) (u : NodeDev),
    (∀ p, ¬ ((u.pair p).up = true ∧ (u.pair p).lo = true) ∧ ((u.pair p).refresh.isSome = true → (u.pair p).up = false)) →
    ∀ p, ¬ (((playTo r i t u).pair p).up = true ∧ ((playTo r i t u).pair p).lo = true) ∧
      (((playTo r i t u).pair p).refresh.isSome = true → ((playTo r i t u).pair p).up = false))

/-- A numbered node answers each sound request that is for it, with the result its state gives; another, or an unsound one, goes on unanswered.
ENUM gives the first free entry as number and takes an UNNUMBERED node to DISABLED; IDENT, STAT and OFFSET are answered in any state, a code
that the table does not name with UNSUPPORTED; NODE_CFG and DRV_WR outside DISABLED are REFUSED; DRV_RD of an unknown address is BAD_ARG;
SELFTEST outside DISABLED is REFUSED; a reply bears result, tag and data with its CRC-16; a request that fails a check is counted, and goes
on as it came; the record of a window goes into the container of a numbered node, the same on both rings.
Rules: R219, R224, R235, R260, R261, R262, R280, R284. -/
def Obligations.NodesAnswerRequests : Prop :=
  (∀ (s : State) (r i : Fin 16) (b : Bool) (hd : FrameHdr) (q : SvcHead) (free : Fin 17),
      reqOk hd 1 q [] = true → hd.bcast = true → free.val < 16 →
    ∃ t, exec (.enum r i b hd q free) s = .next t ∧
      ((t.dev.node r.val i.val).path b).num = some free.val ∧
      ((s.dev.node r.val i.val).state = 0 → b = (s.dev.node r.val i.val).onB → (t.dev.node r.val i.val).state = 1) ∧
      t.dev.out = [.nodeReply r.val i.val b (8 * free.val) (1 :: leBytes 6 (ownIdent r.val i.val 21 8) ++ [BitVec.ofNat 8 (crc8 (1 :: leBytes 6 (ownIdent r.val i.val 21 8)))])] ∧
      t.dev.regs = s.dev.regs) ∧
  (∀ (s : State) (r i : Fin 16) (b : Bool) (hd : FrameHdr) (q : SvcHead),
      reqOk hd 1 q [] = true → hd.bcast = true →
    ∃ t, exec (.enum r i b hd q 16) s = .next t ∧
      ((t.dev.node r.val i.val).path b).num = none ∧ t.dev.out = []) ∧
  (∀ (s : State) (r i : Fin 16) (b : Bool) (hd : FrameHdr) (q : SvcHead) (free : Fin 17),
      reqOk hd 1 q [] = false →
    ∃ t, exec (.enum r i b hd q free) s = .next t ∧
      (t.dev.node r.val i.val) = (s.dev.node r.val i.val).tally 1 1 ∧ t.dev.out = []) ∧
  (∀ (s : State) (r i : Fin 16) (b : Bool) (hd : FrameHdr) (q : SvcHead),
      reqOk hd 2 q [] = true → ((s.dev.node r.val i.val).path b).num = some hd.node →
    ∃ t, exec (.ident r i b hd q) s = .next t ∧
      t.dev.out.head? = some (.nodeReply r.val i.val b 0 (replyBytes q 1 (leBytes 29 (Config.nodeIdent (16 * r.val + i.val))))) ∧
      t.dev.nodes = s.dev.nodes) ∧
  (∀ (s : State) (r i : Fin 16) (b : Bool) (hd : FrameHdr) (q : SvcHead),
      reqOk hd 2 q [] = false →
    ∃ t, exec (.ident r i b hd q) s = .next t ∧
      (t.dev.node r.val i.val) = (s.dev.node r.val i.val).tally 1 1 ∧
      t.dev.out = [.nodeForward r.val i.val b (frameBlocks (reqBytes hd 2 q [] ++ leBytes 2 hd.crc ++ List.replicate q.rlen 0))]) ∧
  (∀ (s : State) (r i : Fin 16) (b : Bool) (hd : FrameHdr) (q : SvcHead),
      reqOk hd 2 q [] = true → ((s.dev.node r.val i.val).path b).num = none →
    ∃ t, exec (.ident r i b hd q) s = .next t ∧
      t.dev.out = [.nodeForward r.val i.val b (frameBlocks (reqBytes hd 2 q [] ++ leBytes 2 hd.crc ++ List.replicate q.rlen 0))] ∧
      t.dev.nodes = s.dev.nodes) ∧
  (∀ (s : State) (r i : Fin 16) (b : Bool) (hd : FrameHdr) (q : SvcHead) (v : BitVec 32),
      reqOk hd 3 q (leBytes 4 v.toNat) = true → ((s.dev.node r.val i.val).path b).num = some hd.node →
    ∃ t, exec (.offset r i b hd q v) s = .next t ∧
      t.dev.out.head? = some (.nodeReply r.val i.val b 0 (replyBytes q 1 [])) ∧ ((t.dev.node r.val i.val).path b).offNext = some v.toNat ∧
      ((t.dev.node r.val i.val).path b).off = ((s.dev.node r.val i.val).path b).off) ∧
  (∀ (s : State) (r i : Fin 16) (b : Bool) (hd : FrameHdr) (q : SvcHead),
      reqOk hd 8 q [] = true → ((s.dev.node r.val i.val).path b).num = some hd.node →
    ∃ t, exec (.stat r i b hd q 8) s = .next t ∧
      t.dev.out.head? = some (.nodeReply r.val i.val b 0 (replyBytes q 1 ((s.dev.node r.val i.val).counts.flatMap (leBytes 4)))) ∧
      t.dev.nodes = s.dev.nodes) ∧
  (∀ (s : State) (r i : Fin 16) (b : Bool) (hd : FrameHdr) (q : SvcHead) (code : BitVec 8),
      reqOk hd code.toNat q [] = true → ((s.dev.node r.val i.val).path b).num = some hd.node → code ≠ 8 →
    ∃ t, exec (.stat r i b hd q code) s = .next t ∧
      t.dev.out.head? = some (.nodeReply r.val i.val b 0 (replyBytes q 4 [])) ∧ t.dev.nodes = s.dev.nodes) ∧
  (∀ (s : State) (r i : Fin 16) (b : Bool) (hd : FrameHdr) (q : SvcHead) (args : List Byte),
      reqOk hd 4 q args = true → ((s.dev.node r.val i.val).path b).num = some hd.node →
      ((s.dev.node r.val i.val).state ≠ 1 ∨ (s.dev.node r.val i.val).follow ≠ some b) →
    ∃ t, exec (.nodeCfg r i b hd q args) s = .next t ∧
      t.dev.out.head? = some (.nodeReply r.val i.val b 0 (replyBytes q 2 [])) ∧ (t.dev.node r.val i.val) = (s.dev.node r.val i.val)) ∧
  (∀ (s : State) (r i : Fin 16) (b : Bool) (hd : FrameHdr) (q : SvcHead) (n sb : Byte),
      reqOk hd 4 q (7 :: n :: sb :: List.replicate 9 0) = true → ((s.dev.node r.val i.val).path b).num = some hd.node →
      (s.dev.node r.val i.val).state = 1 → (s.dev.node r.val i.val).follow = some b → 2 ≤ n.toNat → n.toNat ≤ 16 → sb.toNat ≤ 1 →
    ∃ t, exec (.nodeCfg r i b hd q (7 :: n :: sb :: List.replicate 9 0)) s = .next t ∧
      t.dev.out.head? = some (.nodeReply r.val i.val b 0 (replyBytes q 1 [])) ∧ (t.dev.node r.val i.val).cfgNext = some (n.toNat, sb.toNat == 1) ∧
      (t.dev.node r.val i.val).norph = (s.dev.node r.val i.val).norph) ∧
  (∀ (s : State) (r i : Fin 16) (b : Bool) (hd : FrameHdr) (q : SvcHead) (g : BitVec 8) (a : BitVec 16) (v : Word),
      reqOk hd 5 q (g :: 0 :: leBytes 2 a.toNat ++ leBytes 4 v.toNat) = true → ((s.dev.node r.val i.val).path b).num = some hd.node →
      ((s.dev.node r.val i.val).state ≠ 1 ∨ (s.dev.node r.val i.val).follow ≠ some b) →
    ∃ t, exec (.drvWr r i b hd q g a v) s = .next t ∧
      t.dev.out.head? = some (.nodeReply r.val i.val b 0 (replyBytes q 2 [])) ∧ (t.dev.node r.val i.val) = (s.dev.node r.val i.val)) ∧
  (∀ (s : State) (r i : Fin 16) (b : Bool) (hd : FrameHdr) (q : SvcHead) (a : BitVec 16) (v : Word),
      reqOk hd 5 q (0xFF :: 0 :: leBytes 2 a.toNat ++ leBytes 4 v.toNat) = true → ((s.dev.node r.val i.val).path b).num = some hd.node →
      (s.dev.node r.val i.val).state = 1 → (s.dev.node r.val i.val).follow = some b → 0x100 ≤ a.toNat →
    ∃ t, exec (.drvWr r i b hd q 0xFF a v) s = .next t ∧
      t.dev.out.head? = some (.nodeReply r.val i.val b 0 (replyBytes q 1 (leBytes 4 v.toNat))) ∧
      (∀ g : Fin 12, tget (fun _ => 0) (t.dev.node r.val i.val).drv (g.val * 65536 + a.toNat) = v)) ∧
  (∀ (s : State) (r i : Fin 16) (b : Bool) (hd : FrameHdr) (q : SvcHead) (a : BitVec 16),
      reqOk hd 6 q (0xFF :: 0 :: leBytes 2 a.toNat) = true → ((s.dev.node r.val i.val).path b).num = some hd.node → a.toNat ≠ 12 →
    ∃ t, exec (.drvRd r i b hd q 0xFF a) s = .next t ∧
      t.dev.out.head? = some (.nodeReply r.val i.val b 0 (replyBytes q 3 [])) ∧ (t.dev.node r.val i.val) = (s.dev.node r.val i.val)) ∧
  (∀ (s : State) (r i : Fin 16) (b : Bool) (hd : FrameHdr) (q : SvcHead),
      reqOk hd 6 q (0xFF :: 0 :: leBytes 2 12) = true → ((s.dev.node r.val i.val).path b).num = some hd.node →
    ∃ t, exec (.drvRd r i b hd q 0xFF 12) s = .next t ∧
      t.dev.out.head? = some (.nodeReply r.val i.val b 0 (replyBytes q 1 (leBytes 4 (crc32c ((List.range 12).flatMap fun g => leBytes 4 (Config.driverCheck (gateConfig g (s.dev.node r.val i.val)))))))) ∧
      t.dev.nodes = s.dev.nodes) ∧
  (∀ (s : State) (r i : Fin 16) (b : Bool) (hd : FrameHdr) (q : SvcHead) (mask : BitVec 12) (alertTest : Bool) (passed : BitVec 12),
      reqOk hd 7 q (leBytes 2 mask.toNat ++ [BitVec.ofNat 8 (b2n alertTest)]) = true → ((s.dev.node r.val i.val).path b).num = some hd.node →
      (s.dev.node r.val i.val).state ≠ 1 →
    ∃ t, exec (.selftest r i b hd q mask alertTest passed) s = .next t ∧
      t.dev.out.head? = some (.nodeReply r.val i.val b 0 (replyBytes q 2 [])) ∧ (t.dev.node r.val i.val) = (s.dev.node r.val i.val)) ∧
  (∀ (s : State) (r i : Fin 16) (b : Bool) (hd : FrameHdr) (q : SvcHead) (mask passed : BitVec 12),
      reqOk hd 7 q (leBytes 2 mask.toNat ++ [0]) = true → ((s.dev.node r.val i.val).path b).num = some hd.node → (s.dev.node r.val i.val).state = 1 →
      (s.dev.node r.val i.val).follow = some b → (s.dev.node r.val i.val).drvFlt &&& mask.toNat = 0 →
    ∃ t, exec (.selftest r i b hd q mask false passed) s = .next t ∧
      t.dev.out.head? = some (.nodeReply r.val i.val b 0 (replyBytes q 1 [])) ∧
      (t.dev.node r.val i.val).drvFlt = (s.dev.node r.val i.val).drvFlt ||| (mask &&& ~~~passed).toNat ∧
      (t.dev.node r.val i.val).pairs = (s.dev.node r.val i.val).pairs) ∧
  (∀ (s : State) (r i : Fin 16) (b : Bool) (hd : FrameHdr) (avg inst : List Int) (temp : BitVec 8) (m : Nat),
      frameOk hd 3 (hd.len / 48 * 48) 0 = true → ((s.dev.node r.val i.val).path b).num = some m → (s.dev.node r.val i.val).record = none →
    ∃ t, exec (.nodeSampleTrainRx r i b hd avg inst temp true) s = .next t ∧
      t.dev.out = [.nodeSample r.val i.val b (containerBytes m (s.dev.node r.val i.val).tick ((List.range 8).map (fun c => satS 16 (avg.getD c 0)), (List.range 8).map (fun c => satS 16 (inst.getD c 0)), statusWord temp.toNat (s.dev.node r.val i.val)))] ∧
      (t.dev.node r.val i.val) = { (s.dev.node r.val i.val) with record := some ((List.range 8).map (fun c => satS 16 (avg.getD c 0)), (List.range 8).map (fun c => satS 16 (inst.getD c 0)), statusWord temp.toNat (s.dev.node r.val i.val)) }) ∧
  (∀ (s : State) (r i : Fin 16) (b : Bool) (hd : FrameHdr) (avg inst : List Int) (temp : BitVec 8) (ready : Bool) (m : Nat) (x : List Int × List Int × Nat),
      frameOk hd 3 (hd.len / 48 * 48) 0 = true → ((s.dev.node r.val i.val).path b).num = some m → (s.dev.node r.val i.val).record = some x →
    ∃ t, exec (.nodeSampleTrainRx r i b hd avg inst temp ready) s = .next t ∧
      t.dev.out = [.nodeSample r.val i.val b (containerBytes m (s.dev.node r.val i.val).tick x)] ∧ (t.dev.node r.val i.val) = (s.dev.node r.val i.val)) ∧
  (∀ (s : State) (r i : Fin 16) (b : Bool) (hd : FrameHdr) (avg inst : List Int) (temp : BitVec 8),
      frameOk hd 3 (hd.len / 48 * 48) 0 = true → (s.dev.node r.val i.val).record = none →
    ∃ t, exec (.nodeSampleTrainRx r i b hd avg inst temp false) s = .next t ∧
      Unmoved s.dev t.dev)

/-- HELLO makes a port ACTIVE or ISOLATED; a neighbour timeout or ADMIN_DIS takes it out.
a port in LINK or above sends HELLO; a valid HELLO of the own fabric that has heard this device makes its port ACTIVE and shows the
neighbour, one of a foreign fabric or of this device itself isolates a port in LINK and sets its error bit, one that fails its checks is
counted; 3 ms without HELLO take ACTIVE to LINK with its count; ADMIN_DIS disables.
Rules: R289, R290. -/
def Obligations.PortsAndNeighboursFollowHello : Prop :=
  (∀ (s : State) (p : Fin 4),
      s.dev.coreOn = true → 2 ≤ s.dev.f ⟨0x42100104 + 0x20 * p.val, 0, 3⟩ →
    ∃ t, exec (.helloTimer p) s = .next t ∧
      (t.dev.out.any fun o => match o with | .send (.port q) 4 40 (.hello h) => q = p.val && h.uid = ownUid && h.fab = (s.dev.rd 0x42100004).toNat | _ => false) = true ∧
      t.dev.f ⟨0x42100104 + 0x20 * p.val, 0, 3⟩ = s.dev.f ⟨0x42100104 + 0x20 * p.val, 0, 3⟩) ∧
  (∀ (s : State) (p : Fin 4),
      s.dev.coreOn = true → s.dev.f ⟨0x42100104 + 0x20 * p.val, 0, 3⟩ < 2 →
    ∃ t, exec (.helloTimer p) s = .next t ∧
      Unmoved s.dev t.dev) ∧
  (∀ (s : State) (p : Fin 4) (h : Hello),
      s.dev.coreOn = true → 2 ≤ s.dev.f ⟨0x42100104 + 0x20 * p.val, 0, 3⟩ → s.dev.f ⟨0x42100104 + 0x20 * p.val, 0, 3⟩ ≠ 4 →
      (h.hops ≤ 64 ∨ h.hops = 255) → h.uid ≠ ownUid → h.fab = (s.dev.rd 0x42100004).toNat → h.heard = ownUid →
    ∃ t, exec (.helloRx p h true) s = .next t ∧
      t.dev.f ⟨0x42100104 + 0x20 * p.val, 0, 3⟩ = 4 ∧ t.dev.rd (0x42100108 + 0x20 * p.val) = BitVec.ofNat 32 (h.uid % 2 ^ 32) ∧
      (t.dev.strait p.val).hello = some h ∧ t.dev.strings = s.dev.strings) ∧
  (∀ (s : State) (p : Fin 4) (h : Hello),
      s.dev.coreOn = true → s.dev.f ⟨0x42100104 + 0x20 * p.val, 0, 3⟩ = 2 → (h.hops ≤ 64 ∨ h.hops = 255) → h.uid ≠ ownUid →
      h.fab ≠ (s.dev.rd 0x42100004).toNat → s.dev.fab.queue = [] →
    ∃ t, exec (.helloRx p h true) s = .next t ∧
      t.dev.f ⟨0x42100104 + 0x20 * p.val, 0, 3⟩ = 3 ∧ t.dev.f ⟨0x42100104 + 0x20 * p.val, 5, 1⟩ = 1 ∧
      OnlyRegs [0x42100104 + 0x20 * p.val] s.dev { t.dev with fab := s.dev.fab } ∧ (t.dev.strait p.val).heard = h.uid) ∧
  (∀ (s : State) (p : Fin 4) (h : Hello),
      s.dev.coreOn = true → s.dev.f ⟨0x42100104 + 0x20 * p.val, 0, 3⟩ = 2 → (h.hops ≤ 64 ∨ h.hops = 255) → h.uid = ownUid → s.dev.fab.queue = [] →
    ∃ t, exec (.helloRx p h true) s = .next t ∧
      t.dev.f ⟨0x42100104 + 0x20 * p.val, 0, 3⟩ = 3 ∧ t.dev.f ⟨0x42100104 + 0x20 * p.val, 4, 1⟩ = 1 ∧
      OnlyRegs [0x42100104 + 0x20 * p.val] s.dev { t.dev with fab := s.dev.fab } ∧ (t.dev.strait p.val).heard = h.uid) ∧
  (∀ (s : State) (p : Fin 4) (h : Hello),
      s.dev.coreOn = true → 2 ≤ s.dev.f ⟨0x42100104 + 0x20 * p.val, 0, 3⟩ → s.dev.fab.queue = [] →
    ∃ t, exec (.helloRx p h false) s = .next t ∧
      t.dev.f ⟨0x42100114 + 0x20 * p.val, 16, 16⟩ = min (s.dev.f ⟨0x42100114 + 0x20 * p.val, 16, 16⟩ + 1) 65535 ∧
      OnlyRegs [0x42100114 + 0x20 * p.val] s.dev t.dev) ∧
  (∀ (s : State) (p : Fin 4) (elapsed : Nat),
      s.dev.coreOn = true → s.dev.f ⟨0x42100104 + 0x20 * p.val, 0, 3⟩ = 4 → 3000 ≤ elapsed →
    ∃ t, exec (.neighbourTimeout p elapsed) s = .next t ∧
      t.dev.f ⟨0x42100104 + 0x20 * p.val, 0, 3⟩ = 2 ∧
      t.dev.f ⟨0x42100114 + 0x20 * p.val, 0, 16⟩ = min (s.dev.f ⟨0x42100114 + 0x20 * p.val, 0, 16⟩ + 1) 65535 ∧ t.dev.strings = s.dev.strings) ∧
  (∀ (s : State) (p : Fin 4) (elapsed : Nat),
      s.dev.coreOn = true → (s.dev.f ⟨0x42100104 + 0x20 * p.val, 0, 3⟩ ≠ 4 ∨ elapsed < 3000) →
    ∃ t, exec (.neighbourTimeout p elapsed) s = .next t ∧
      Unmoved s.dev t.dev) ∧
  (∀ (s : State) (p : Fin 4) (v : Word),
      s.dev.coreOn = true → v.getLsbD 0 = true →
    ∃ t, exec (.portAdminWrite p v) s = .next t ∧
      t.dev.f ⟨0x42100104 + 0x20 * p.val, 0, 3⟩ = 0 ∧ t.dev.f ⟨0x42100100 + 0x20 * p.val, 0, 1⟩ = 1 ∧ t.dev.strings = s.dev.strings)

/-- A newer advertisement is stored and an older one discarded; advertisements age and are withdrawn after 4 s; the new routes are the shortest
paths of link state.
on an ACTIVE port an advertisement of another device newer than the one held is stored, one not newer changes nothing; each second ages
those held and counts leases down; one not refreshed for 4 s is withdrawn; the recomputation ends with the distances from this device; a
reserved address run out is free.
Rules: R303, R304. -/
def Obligations.LinkStateIsKept : Prop :=
  (∀ (s : State) (p : Fin 4) (l : Lsa),
      s.dev.coreOn = true → s.dev.f ⟨0x42100104 + 0x20 * p.val, 0, 3⟩ = 4 → l.uid ≠ ownUid → l.addr ≤ 0xFFD → l.nbrs.length = 4 →
      (match lsaOf (lsasOf s.dev) l.uid with | some h => newerSeq l.seq h.seq | none => true) = true →
    ∃ t, exec (.lsaRx p l true) s = .next t ∧
      lsaOf (lsasOf t.dev) l.uid = some l ∧ t.dev.strings = s.dev.strings) ∧
  (∀ (s : State) (p : Fin 4) (l h : Lsa),
      s.dev.coreOn = true → s.dev.f ⟨0x42100104 + 0x20 * p.val, 0, 3⟩ = 4 → l.addr ≤ 0xFFD → l.nbrs.length = 4 → lsaOf (lsasOf s.dev) l.uid = some h →
      newerSeq l.seq h.seq = false → s.dev.fab.queue = [] →
    ∃ t, exec (.lsaRx p l true) s = .next t ∧
      Unmoved s.dev t.dev) ∧
  (∀ (s : State) (p : Fin 4) (l : Lsa),
      s.dev.coreOn = true → s.dev.f ⟨0x42100104 + 0x20 * p.val, 0, 3⟩ = 4 → s.dev.fab.queue = [] →
    ∃ t, exec (.lsaRx p l false) s = .next t ∧
      t.dev.f ⟨0x42100114 + 0x20 * p.val, 16, 16⟩ = min (s.dev.f ⟨0x42100114 + 0x20 * p.val, 16, 16⟩ + 1) 65535 ∧
      OnlyRegs [0x42100114 + 0x20 * p.val] s.dev t.dev) ∧
  (∀ (s : State) (r : LsaRec),
      s.dev.coreOn = true → r ∈ s.dev.fab.lsas → r.lsa.uid ≠ ownUid →
    ∃ t, exec (.lsaRefresh true) s = .next t ∧
      (⟨r.lsa, r.age + 1⟩ : LsaRec) ∈ t.dev.fab.lsas ∧ t.dev.fab.left = s.dev.fab.left - 1) ∧
  (∀ (s : State) (u : BitVec 64) (r : LsaRec),
      s.dev.coreOn = true → s.dev.fab.lsas = [r] → r.lsa.uid = u.toNat → u.toNat ≠ ownUid → 4 ≤ r.age →
    ∃ t, exec (.lsaWithdraw u) s = .next t ∧
      lsaOf (lsasOf t.dev) u.toNat = none ∧ t.dev.strings = s.dev.strings) ∧
  (∀ (s : State) (u : BitVec 64),
      s.dev.coreOn = true → (s.dev.fab.lsas.any fun r => r.lsa.uid = u.toNat && 4 ≤ r.age) = false →
    ∃ t, exec (.lsaWithdraw u) s = .next t ∧
      Unmoved s.dev t.dev) ∧
  (∀ (s : State),
      s.dev.coreOn = true →
    ∃ t, exec .routeRecomputeDone s = .next t ∧
      t.dev.fab.routes = reachFrom (lsasOf s.dev) ownUid ∧ t.dev.isles = s.dev.isles ∧ t.dev.strings = s.dev.strings) ∧
  (∀ (s : State) (a : BitVec 12),
      s.dev.coreOn = true →
    ∃ t, exec (.reservedAddressRelease a) s = .next t ∧
      t.dev.fab.reserved = s.dev.fab.reserved.filter fun r => !(r.addr = a.toNat && r.left = 0) ∧ t.dev.regs = s.dev.regs)

/-- A device without a static address asks the root for a lease, takes what it grants, renews it and loses it; with one it never asks.
LEASE_REQ goes to the root only without any address; the root grants a known device its address again for the lease time; a grant of the
root for this device is taken and shown, one that fails a check is counted as discarded, and with a static address none changes anything; at
half the lease it asks again; a lease run out leaves no address and sets LEASE_LOST.
Rules: R293, R294. -/
def Obligations.AddressesAreLeased : Prop :=
  (∀ (s : State) (p : Fin 4),
      s.dev.coreOn = true → s.dev.f ⟨0x42100104 + 0x20 * p.val, 0, 3⟩ = 4 → s.dev.f ⟨0x42100008, 0, 12⟩ = 0 → s.dev.fab.addr = 0 →
      s.dev.fab.root.isSome = true →
    ∃ t, exec .leaseReq s = .next t ∧
      (t.dev.out.any fun o => match o with | .send .root 7 8 (.leaseReq u) => u = ownUid | _ => false) = true ∧ t.dev.fab.addr = 0) ∧
  (∀ (s : State),
      s.dev.coreOn = true → s.dev.f ⟨0x42100008, 0, 12⟩ ≠ 0 →
    ∃ t, exec .leaseReq s = .next t ∧
      Unmoved s.dev t.dev) ∧
  (∀ (s : State) (u : BitVec 64) (r : LeaseRec),
      s.dev.coreOn = true → isRoot s.dev = true → u.toNat ≠ ownUid → s.dev.fab.leases = [r] → r.uid = u.toNat →
    ∃ t, exec (.leaseGrant u) s = .next t ∧
      t.dev.fab.leases = [⟨u.toNat, r.addr, s.dev.f ⟨0x42100010, 0, 17⟩⟩] ∧
      (t.dev.out.any fun o => match o with | .send .all 8 16 (.lease x a n) => x = u.toNat && a = r.addr && n = s.dev.f ⟨0x42100010, 0, 17⟩ | _ => false) = true) ∧
  (∀ (s : State) (u : BitVec 64),
      s.dev.coreOn = true → isRoot s.dev = false → s.dev.fab.queue = [] →
    ∃ t, exec (.leaseGrant u) s = .next t ∧
      Unmoved s.dev t.dev) ∧
  (∀ (s : State) (p : Fin 4) (u : BitVec 64) (a : BitVec 12) (time : Nat),
      s.dev.coreOn = true → u.toNat = ownUid → 0x800 ≤ a.toNat → a.toNat ≤ 0xFFD → s.dev.f ⟨0x42100008, 0, 12⟩ = 0 →
    ∃ t, exec (.leaseRx p u a time true true) s = .next t ∧
      t.dev.fab.addr = a.toNat ∧ t.dev.fab.kind = 2 ∧ t.dev.fab.left = time ∧ t.dev.f ⟨0x4210000C, 0, 12⟩ = a.toNat ∧ t.dev.strings = s.dev.strings) ∧
  (∀ (s : State) (p : Fin 4) (u : BitVec 64) (a : BitVec 12) (time : Nat) (fromRoot crcOk : Bool),
      s.dev.coreOn = true → s.dev.fab.queue = [] → (crcOk = false ∨ fromRoot = false ∨ a.toNat < 0x800 ∨ 0xFFD < a.toNat) →
    ∃ t, exec (.leaseRx p u a time fromRoot crcOk) s = .next t ∧
      t.dev.f ⟨0x42100114 + 0x20 * p.val, 16, 16⟩ = min (s.dev.f ⟨0x42100114 + 0x20 * p.val, 16, 16⟩ + 1) 65535 ∧
      OnlyRegs [0x42100114 + 0x20 * p.val] s.dev t.dev) ∧
  (∀ (s : State) (p : Fin 4) (u : BitVec 64) (a : BitVec 12) (time : Nat),
      s.dev.coreOn = true → s.dev.fab.queue = [] → 0x800 ≤ a.toNat → a.toNat ≤ 0xFFD → s.dev.f ⟨0x42100008, 0, 12⟩ ≠ 0 →
    ∃ t, exec (.leaseRx p u a time true true) s = .next t ∧
      Unmoved s.dev t.dev) ∧
  (∀ (s : State),
      s.dev.coreOn = true → s.dev.fab.kind = 2 → 2 * s.dev.fab.left ≤ s.dev.fab.term → s.dev.fab.root.isSome = true →
    ∃ t, exec .leaseRenewal s = .next t ∧
      (t.dev.out.any fun o => match o with | .send .root 7 8 (.leaseReq u) => u = ownUid | _ => false) = true ∧ t.dev.fab.addr = s.dev.fab.addr) ∧
  (∀ (s : State),
      s.dev.coreOn = true → (s.dev.fab.kind ≠ 2 ∨ s.dev.fab.term < 2 * s.dev.fab.left) →
    ∃ t, exec .leaseRenewal s = .next t ∧
      Unmoved s.dev t.dev) ∧
  (∀ (s : State),
      s.dev.coreOn = true → s.dev.fab.kind = 2 → s.dev.fab.left = 0 → s.dev.f ⟨0x42100008, 0, 12⟩ = 0 →
    ∃ t, exec .leaseLost s = .next t ∧
      t.dev.fab.addr = 0 ∧ t.dev.fab.kind = 0 ∧ t.dev.f ⟨0x42100034, 3, 1⟩ = 1 ∧ t.dev.f ⟨0x4210000C, 0, 12⟩ = 0)

/-- A device that is its own candidate at 8 edges becomes root; RESIGN gives the role up; epochs are adopted as announced; the losing part
merges as its root says.
the new root is LOCKED as its own reference and announces an epoch 8 ticks ahead; RESIGN on another device does nothing; an EPOCH of the
current root ahead of the highest seen is due at its k0 and gives the T of the fabric, and one that fails its CRC is counted as discarded;
the start of a merge from the root sets its tick, mode and offset, one that fails its CRC is counted as discarded, completion sets k_d 8
ticks ahead; a source unreachable for the hold time leads to droop.
Rules: R299, R301, R302, R314. -/
def Obligations.RootsAndMerges : Prop :=
  (∀ (s : State),
      s.dev.coreOn = true → s.dev.flag fabEn = true → ownCandidate s.dev = true → 8 ≤ s.dev.fab.cand →
    ∃ t, exec .becomeRoot s = .next t ∧
      isRoot t.dev = true ∧ t.dev.tide.tstate = 2 ∧
      (s.dev.tide.next = none → t.dev.tide.next = some ⟨(s.dev.fab.topEpoch + 1) % 65536, s.dev.tide.k + 8, 5 * (match s.dev.tide.pendT with | some x => x.1 | none => s.dev.tide.period)⟩) ∧
      t.dev.tide.k = s.dev.tide.k ∧ t.dev.tide.time = s.dev.tide.time) ∧
  (∀ (s : State),
      s.dev.coreOn = true → ownCandidate s.dev = true → s.dev.flag fabEn = true → s.dev.fab.cand < 8 →
    ∃ t, exec .becomeRoot s = .next t ∧
      Unmoved s.dev t.dev) ∧
  (∀ (s : State),
      s.dev.coreOn = true → isRoot s.dev = true →
    ∃ t, exec .resign s = .next t ∧
      isRoot t.dev = false ∧ t.dev.fab.resigned = true ∧ t.dev.strings = s.dev.strings) ∧
  (∀ (s : State),
      s.dev.coreOn = true → isRoot s.dev = false →
    ∃ t, exec .resign s = .next t ∧
      Unmoved s.dev t.dev) ∧
  (∀ (s : State) (p : Fin 4) (m : EpochMsg),
      s.dev.coreOn = true → m.uid = rootUid s.dev → m.uid ≠ ownUid → (m.epoch + 65536 - s.dev.fab.topEpoch) % 65536 ≠ 0 →
      (m.epoch + 65536 - s.dev.fab.topEpoch) % 65536 < 32768 →
    ∃ t, exec (.epochRx p m true) s = .next t ∧
      t.dev.tide.fabT = m.period / 5 ∧ t.dev.tide.next = some ⟨m.epoch, m.k0, m.period⟩ ∧ t.dev.fab.topEpoch = m.epoch ∧ t.dev.fab.resigned = false ∧
      t.dev.tide.epoch = s.dev.tide.epoch) ∧
  (∀ (s : State) (p : Fin 4) (m : EpochMsg),
      s.dev.coreOn = true → s.dev.fab.queue = [] →
    ∃ t, exec (.epochRx p m false) s = .next t ∧
      t.dev.f ⟨0x42100114 + 0x20 * p.val, 16, 16⟩ = min (s.dev.f ⟨0x42100114 + 0x20 * p.val, 16, 16⟩ + 1) 65535 ∧
      OnlyRegs [0x42100114 + 0x20 * p.val] s.dev t.dev) ∧
  (∀ (s : State) (p : Fin 4) (x : Int) (km : Nat) (slew : Bool) (src : BitVec 64) (u : MergeU),
      s.dev.coreOn = true → s.dev.fab.merge = some u → src.toNat = rootUid s.dev →
    ∃ t, exec (.mergeRx p (.start x km slew) src true) s = .next t ∧
      t.dev.fab.merge = some { u with km := some km, slew := slew, left := x, near := 0 } ∧ t.dev.tide = s.dev.tide ∧
      t.dev.rd 0x4210003C = BitVec.ofNat 32 (unsigned 32 (satS 32 x))) ∧
  (∀ (s : State) (p : Fin 4) (m : MergeMsg) (src : BitVec 64),
      s.dev.coreOn = true → s.dev.fab.queue = [] →
    ∃ t, exec (.mergeRx p m src false) s = .next t ∧
      t.dev.f ⟨0x42100114 + 0x20 * p.val, 16, 16⟩ = min (s.dev.f ⟨0x42100114 + 0x20 * p.val, 16, 16⟩ + 1) 65535 ∧
      OnlyRegs [0x42100114 + 0x20 * p.val] s.dev t.dev) ∧
  (∀ (s : State) (p : Fin 4) (x : Int) (km : Nat) (slew : Bool) (src : BitVec 64),
      s.dev.coreOn = true → s.dev.fab.queue = [] → s.dev.fab.merge = none → src.toNat = rootUid s.dev →
    ∃ t, exec (.mergeRx p (.start x km slew) src true) s = .next t ∧
      Unmoved s.dev t.dev) ∧
  (∀ (s : State) (epoch : BitVec 16) (k0 : Nat) (u : MergeU) (km : Nat),
      s.dev.coreOn = true → s.dev.fab.merge = some u → isRoot s.dev = true → u.left = 0 → u.km = some km → u.kd = none →
    ∃ t, exec (.mergeCompletion epoch k0 (5 * s.dev.tide.period) true) s = .next t ∧
      t.dev.fab.merge = some { u with kd := some (s.dev.tide.k + 8), epoch := epoch.toNat, k0 := k0, period := 5 * s.dev.tide.period } ∧
      t.dev.tide = s.dev.tide) ∧
  (∀ (s : State) (epoch : BitVec 16) (k0 period : Nat) (near : Bool),
      s.dev.coreOn = true → s.dev.fab.merge = none →
    ∃ t, exec (.mergeCompletion epoch k0 period near) s = .next t ∧
      Unmoved s.dev t.dev) ∧
  (∀ (s : State) (src : BitVec 12) (elapsed at_ q : Nat) (u : SubU),
      s.dev.coreOn = true → hostUp s.dev = true → partHold s.dev ≤ elapsed → unreachable src.toNat s.dev = true → s.dev.host.subs = [(q, u)] →
      u.source % 4096 = src.toNat → u.state = 2 → u.targets = [] → q < 64 →
    ∃ t, exec (.partitionHoldExpiry src elapsed at_) s = .next t ∧
      (subU q t.dev).state = 3 ∧ t.dev.f ⟨0x42100034, 9, 1⟩ = 1) ∧
  (∀ (s : State) (src : BitVec 12) (elapsed at_ q : Nat) (u : SubU) (v : Word),
      s.dev.coreOn = true → hostUp s.dev = true → partHold s.dev ≤ elapsed → unreachable src.toNat s.dev = true → s.dev.host.subs = [(q, u)] →
      u.source % 4096 = src.toNat → u.state = 2 → u.targets = [(0x5300, 9)] → u.droop = leBytes 4 v.toNat → q < 64 →
    ∃ t, exec (.partitionHoldExpiry src elapsed at_) s = .next t ∧
      t.dev.rd 0x4300002C = v ∧ (subU q t.dev).state = 3 ∧ t.dev.jrn.seq = s.dev.jrn.seq + 1) ∧
  (∀ (s : State) (src : BitVec 12) (elapsed at_ : Nat),
      s.dev.coreOn = true → elapsed < partHold s.dev →
    ∃ t, exec (.partitionHoldExpiry src elapsed at_) s = .next t ∧
      Unmoved s.dev t.dev)

/-- A ferry that passes its checks is queued with one hop more and its credits counted as received; one that fails is counted by cause; an
eligible ferry starts and consumes credit; one past its residence limit is discarded.
on an ACTIVE port a ferry for this device's address waits for local delivery with its units; a bad header allocates nothing; a bad trailer
is CRC_ERR or STOMP; 64 hops are HOP_DROP; the one ferry that may start on a port goes out and its need is consumed (a sync with the instant
at which it leaves); where none waits nothing is sent; a TC3 ferry past the limit is discarded and counted, within it nothing happens.
Rules: R306, R323, R325, R329, R336. -/
def Obligations.FerriesAreCheckedQueuedAndSent : Prop :=
  (∀ (s : State) (p : Fin 4) (f : Ferry) (at_ : Nat),
      s.dev.coreOn = true → s.dev.flag fabEn = true → s.dev.f ⟨0x42100104 + 0x20 * p.val, 0, 3⟩ = 4 → f.dest = s.dev.fab.addr → f.dest ≠ 0 →
      f.dest ≠ 0xFFF → typeOk f.typ f.cls = true → linkLocal f.typ = false → f.len ≤ 512 → f.cls ≠ 1 → 2 ≤ f.cls → f.hops < 64 →
      (s.dev.fab.queue.all fun q => !q.egress.isEmpty) = true → frameErr (16 + 2 * p.val) s.dev = false →
    ∃ t, exec (.ferryRx p f true true true false at_) s = .next t ∧
      t.dev.fab.queue = s.dev.fab.queue ++ [⟨p.val, [4], creditsFor f.len, s.dev.tide.abs + at_, { f with hops := f.hops + 1, stomp := false }, 0⟩] ∧
      (t.dev.cred p.val (f.cls % 4)).received = tok ((s.dev.cred p.val (f.cls % 4)).received + creditsFor f.len) ∧ t.dev.strings = s.dev.strings) ∧
  (∀ (s : State) (p : Fin 4) (f : Ferry) (lenOk trailerOk stomp : Bool) (at_ : Nat),
      s.dev.coreOn = true → s.dev.flag fabEn = true → 2 ≤ s.dev.f ⟨0x42100104 + 0x20 * p.val, 0, 3⟩ →
      (s.dev.fab.queue.all fun q => !q.egress.isEmpty) = true →
    ∃ t, exec (.ferryRx p f false lenOk trailerOk stomp at_) s = .next t ∧
      t.dev.f ⟨0x42100220, 0, 8⟩ = min (s.dev.f ⟨0x42100220, 0, 8⟩ + 1) 255 ∧ t.dev.f ⟨0x4210022C, 0, 1⟩ = 1 ∧
      OnlyRegs [0x42100220, 0x4210022C] s.dev { t.dev with lanes := s.dev.lanes }) ∧
  (∀ (s : State) (p : Fin 4) (f : Ferry) (stomp : Bool) (at_ : Nat),
      s.dev.coreOn = true → s.dev.flag fabEn = true → s.dev.f ⟨0x42100104 + 0x20 * p.val, 0, 3⟩ = 4 → typeOk f.typ f.cls = true → 2 ≤ f.cls →
      f.len ≤ 512 → (s.dev.fab.queue.all fun q => !q.egress.isEmpty) = true →
    ∃ t, exec (.ferryRx p f true true false stomp at_) s = .next t ∧
      t.dev.f ⟨0x42100220, if stomp then 24 else 16, 8⟩ = min (s.dev.f ⟨0x42100220, if stomp then 24 else 16, 8⟩ + 1) 255 ∧
      t.dev.fab.queue = s.dev.fab.queue ∧ OnlyRegs [0x42100220] s.dev { t.dev with fab := s.dev.fab, lanes := s.dev.lanes }) ∧
  (∀ (s : State) (p : Fin 4) (f : Ferry) (at_ : Nat),
      s.dev.coreOn = true → s.dev.flag fabEn = true → s.dev.f ⟨0x42100104 + 0x20 * p.val, 0, 3⟩ = 4 → typeOk f.typ f.cls = true → 2 ≤ f.cls →
      f.len ≤ 512 → 64 ≤ f.hops → (s.dev.fab.queue.all fun q => !q.egress.isEmpty) = true → frameErr (16 + 2 * p.val) s.dev = false →
    ∃ t, exec (.ferryRx p f true true true false at_) s = .next t ∧
      t.dev.f ⟨0x42100040, 0, 16⟩ = min (s.dev.f ⟨0x42100040, 0, 16⟩ + 1) 65535 ∧ t.dev.fab.queue = s.dev.fab.queue) ∧
  (∀ (s : State) (p : Fin 4) (at_ : Nat) (q : QEntry),
      s.dev.coreOn = true → s.dev.flag fabEn = true → s.dev.f ⟨0x42100104 + 0x20 * p.val, 0, 3⟩ = 4 → s.dev.fab.queue = [q] → q.egress = [p.val] →
      q.acct < 5 → q.ferry.cls < 4 → (s.dev.lane (16 + 2 * p.val)).frames = [] →
      (match q.ferry.msg with | .sync _ | .delayReq _ | .delayResp _ _ => false | _ => true) = true →
      eligible p.val (s.dev.tide.abs + at_) q s.dev = true → s.dev.fab.waiting = [] →
    ∃ t, exec (.ferryTxStart p at_) s = .next t ∧
      (Out.ferry p.val q.ferry) ∈ t.dev.out ∧ t.dev.fab.queue.map (fun e => { e with ends := 0 }) = [{ q with egress := [], ends := 0 }] ∧
      (t.dev.cred p.val q.ferry.cls).consumed = tok ((s.dev.cred p.val q.ferry.cls).consumed + creditsFor q.ferry.len)) ∧
  (∀ (s : State) (p : Fin 4) (at_ : Nat) (q : QEntry) (y : SyncMsg),
      s.dev.coreOn = true → s.dev.flag fabEn = true → s.dev.f ⟨0x42100104 + 0x20 * p.val, 0, 3⟩ = 4 → s.dev.fab.queue = [q] → q.egress = [p.val] →
      q.acct < 5 → q.ferry.cls < 4 → (s.dev.lane (16 + 2 * p.val)).frames = [] → q.ferry.msg = .sync y →
      eligible p.val (s.dev.tide.abs + at_) q s.dev = true → s.dev.fab.waiting = [] →
    ∃ t, exec (.ferryTxStart p at_) s = .next t ∧
      (t.dev.out.any fun o => match o with | .ferry r g => r = p.val && (match g.msg with | .sync x => x.tick = s.dev.tide.k && x.epoch = s.dev.tide.epoch && 16 * s.dev.tide.time ≤ x.tx && x.period = y.period && x.rootUid = y.rootUid && g.time = x.tx / 16 | _ => false) | _ => false) = true) ∧
  (∀ (s : State) (p : Fin 4) (at_ : Nat),
      s.dev.coreOn = true → (s.dev.fab.queue.all fun q => !q.egress.isEmpty) = true → (s.dev.fab.queue.all fun q => !q.egress.contains p.val) = true →
    ∃ t, exec (.ferryTxStart p at_) s = .next t ∧
      (t.dev.out.any fun o => match o with | .ferry _ _ => true | _ => false) = false ∧ t.dev = { s.dev with out := t.dev.out, lanes := t.dev.lanes }) ∧
  (∀ (s : State) (at_ : Nat) (q : QEntry),
      s.dev.coreOn = true → s.dev.fab.queue = [q] → q.egress ≠ [] → q.ferry.cls = 3 →
      q.since + 400000 * s.dev.f ⟨0x42100200, 16, 10⟩ < s.dev.tide.abs + at_ → s.dev.fab.waiting = [] →
    ∃ t, exec (.residenceExpiry at_) s = .next t ∧
      t.dev.fab.queue = [] ∧ t.dev.f ⟨0x42100224, 0, 16⟩ = min (s.dev.f ⟨0x42100224, 0, 16⟩ + 1) 65535 ∧ t.dev.f ⟨0x4210022C, 3, 1⟩ = 1) ∧
  (∀ (s : State) (at_ : Nat) (q : QEntry),
      s.dev.coreOn = true → s.dev.fab.queue = [q] → q.egress ≠ [] → q.ferry.cls = 3 →
      s.dev.tide.abs + at_ ≤ q.since + 400000 * s.dev.f ⟨0x42100200, 16, 10⟩ →
    ∃ t, exec (.residenceExpiry at_) s = .next t ∧
      Unmoved s.dev t.dev)

/-- CREDIT and CSYNC blocks set the counts of their class; a bad one is counted; the first credit timeout sends CSYNC, a second takes the port
to LINK.
a CREDIT sets the limit, and ends the wait and its timeouts where no ferry waits, a CSYNC sets received; a receiver advertises received plus
what its account can back, in an ORDERED block of its lane; CSYNC goes for every class; a class starved for the timeout sets CREDIT_TMO and
sends CSYNC, and at the second expiry the port returns to LINK; without a ferry that waits for credit nothing happens.
Rules: R328, R329, R330. -/
def Obligations.CreditsAreKept : Prop :=
  (∀ (s : State) (p c : Fin 4) (limit : BitVec 24),
      s.dev.coreOn = true → 2 ≤ s.dev.f ⟨0x42100104 + 0x20 * p.val, 0, 3⟩ →
    ∃ t, exec (.creditRx p c limit true) s = .next t ∧
      (t.dev.cred p.val c.val).limit = limit.toNat ∧
      (t.dev.cred p.val c.val).consumed = (s.dev.cred p.val c.val).consumed ∧ (t.dev.cred p.val c.val).received = (s.dev.cred p.val c.val).received ∧
      (∀ q e : Fin 4, q ≠ p ∨ e ≠ c → (t.dev.cred q.val e.val).limit = (s.dev.cred q.val e.val).limit) ∧ t.dev.fab.queue = s.dev.fab.queue) ∧
  (∀ (s : State) (p c : Fin 4) (limit : BitVec 24),
      s.dev.coreOn = true → 2 ≤ s.dev.f ⟨0x42100104 + 0x20 * p.val, 0, 3⟩ → s.dev.fab.queue = [] → (s.dev.cred p.val c.val).wait = true →
    ∃ t, exec (.creditRx p c limit true) s = .next t ∧
      (t.dev.cred p.val c.val) = { (s.dev.cred p.val c.val) with limit := limit.toNat, wait := false, tmo := 0 } ∧ t.dev.regs = s.dev.regs) ∧
  (∀ (s : State) (p c : Fin 4) (limit : BitVec 24),
      s.dev.coreOn = true →
    ∃ t, exec (.creditRx p c limit false) s = .next t ∧
      t.dev.f ⟨0x42100294 + 4 * p.val, 16, 16⟩ = min (s.dev.f ⟨0x42100294 + 4 * p.val, 16, 16⟩ + 1) 65535 ∧
      OnlyRegs [0x42100294 + 4 * p.val] s.dev t.dev) ∧
  (∀ (s : State) (p c : Fin 4) (consumed : BitVec 24),
      s.dev.coreOn = true → 2 ≤ s.dev.f ⟨0x42100104 + 0x20 * p.val, 0, 3⟩ →
    ∃ t, exec (.csyncRx p c consumed true) s = .next t ∧
      (t.dev.cred p.val c.val) = { (s.dev.cred p.val c.val) with received := consumed.toNat } ∧ t.dev.regs = s.dev.regs) ∧
  (∀ (s : State) (p c : Fin 4) (consumed : BitVec 24),
      s.dev.coreOn = true →
    ∃ t, exec (.csyncRx p c consumed false) s = .next t ∧
      t.dev.f ⟨0x42100294 + 4 * p.val, 16, 16⟩ = min (s.dev.f ⟨0x42100294 + 4 * p.val, 16, 16⟩ + 1) 65535 ∧
      OnlyRegs [0x42100294 + 4 * p.val] s.dev t.dev) ∧
  (∀ (s : State) (p c : Fin 4) (at_ : Nat),
      s.dev.coreOn = true → 2 ≤ s.dev.f ⟨0x42100104 + 0x20 * p.val, 0, 3⟩ → (s.dev.fab.queue.all fun q => !q.egress.isEmpty) = true →
    ∃ t, exec (.creditSend p c at_) s = .next t ∧
      (Out.credit p.val c.val (tok ((s.dev.cred p.val c.val).received + acctFree p.val c.val s.dev))) ∈ t.dev.out ∧ t.dev.fab = s.dev.fab) ∧
  (∀ (s : State) (p c : Fin 4) (at_ : Nat),
      s.dev.coreOn = true → 2 ≤ s.dev.f ⟨0x42100104 + 0x20 * p.val, 0, 3⟩ → (s.dev.fab.queue.all fun q => !q.egress.isEmpty) = true →
      s.dev.f ⟨0x42200000 + 0x400 * (16 + 2 * p.val), 10, 2⟩ = 0 → takesData (16 + 2 * p.val) s.dev = true → at_ = 0 →
    ∃ t, exec (.creditSend p c at_) s = .next t ∧
      (t.dev.lane (16 + 2 * p.val)).ord.getLast? = some (orderedBlk ([0x10, BitVec.ofNat 8 (c.val % 4)] ++ leBytes 3 (tok ((s.dev.cred p.val c.val).received + acctFree p.val c.val s.dev)))) ∧
      t.dev = { s.dev with out := t.dev.out, lanes := t.dev.lanes }) ∧
  (∀ (s : State) (p : Fin 4) (at_ : Nat),
      s.dev.coreOn = true → 2 ≤ s.dev.f ⟨0x42100104 + 0x20 * p.val, 0, 3⟩ →
    ∃ t, exec (.csyncTimer p at_) s = .next t ∧
      (∀ c : Fin 4, (Out.csync p.val c.val (s.dev.cred p.val c.val).consumed) ∈ t.dev.out) ∧ t.dev.fab = s.dev.fab) ∧
  (∀ (s : State) (p c : Fin 4) (elapsed at_ : Nat),
      s.dev.coreOn = true → 2 ≤ s.dev.f ⟨0x42100104 + 0x20 * p.val, 0, 3⟩ → s.dev.f ⟨0x42100204, 0, 7⟩ ≤ elapsed → starved p.val c.val s.dev = true →
      (s.dev.cred p.val c.val).tmo = 0 →
    ∃ t, exec (.creditTimeout p c elapsed at_) s = .next t ∧
      (t.dev.cred p.val c.val).tmo = 1 ∧ t.dev.f ⟨0x4210022C, 1, 1⟩ = 1 ∧ (Out.csync p.val c.val (s.dev.cred p.val c.val).consumed) ∈ t.dev.out ∧
      t.dev.f ⟨0x42100104 + 0x20 * p.val, 0, 3⟩ = s.dev.f ⟨0x42100104 + 0x20 * p.val, 0, 3⟩) ∧
  (∀ (s : State) (p c : Fin 4) (elapsed at_ : Nat),
      s.dev.coreOn = true → 2 ≤ s.dev.f ⟨0x42100104 + 0x20 * p.val, 0, 3⟩ → s.dev.f ⟨0x42100204, 0, 7⟩ ≤ elapsed → starved p.val c.val s.dev = true →
      (s.dev.cred p.val c.val).tmo ≠ 0 →
    ∃ t, exec (.creditTimeout p c elapsed at_) s = .next t ∧
      t.dev.f ⟨0x42100104 + 0x20 * p.val, 0, 3⟩ = 2 ∧ t.dev.f ⟨0x4210022C, 1, 1⟩ = 1 ∧ t.dev.strings = s.dev.strings) ∧
  (∀ (s : State) (p c : Fin 4) (elapsed at_ : Nat),
      s.dev.coreOn = true → (starved p.val c.val s.dev = false ∨ elapsed < s.dev.f ⟨0x42100204, 0, 7⟩) →
    ∃ t, exec (.creditTimeout p c elapsed at_) s = .next t ∧
      Unmoved s.dev t.dev)

/-- A capture set is armed, triggered, held, streamed and released as R342 to R345 say.
ARM takes an IDLE set whose window fits its buffer to ARMED and is refused with CAP_REJ otherwise; a trigger takes ARMED to FILLING with
k_t, counts in FILLING and HELD and is ignored in IDLE; a CAP_TRIG of another epoch is ignored and one in time gives its k_t; once the post
records are there the set is HELD; RELEASE returns to IDLE; an acknowledgement moves ACKED; a resend goes back to it and the ninth without
progress stops.
Rules: R342, R343, R344, R345. -/
def Obligations.CaptureSetsRun : Prop :=
  (∀ (s : State) (j : Fin 8),
      s.dev.coreOn = true → s.dev.f ⟨0x42100410 + 0x20 * j.val, 0, 3⟩ = 0 → capTotal j.val s.dev ≤ capBuf j.val s.dev →
    ∃ t, exec (.capArm j) s = .next t ∧
      t.dev.f ⟨0x42100410 + 0x20 * j.val, 0, 3⟩ = 1 ∧ (t.dev.cap j.val).recs = [] ∧
      OnlyRegs [0x42100410 + 0x20 * j.val] s.dev { t.dev with caps := s.dev.caps }) ∧
  (∀ (s : State) (j : Fin 8),
      s.dev.coreOn = true → (s.dev.f ⟨0x42100410 + 0x20 * j.val, 0, 3⟩ ≠ 0 ∨ capBuf j.val s.dev < capTotal j.val s.dev) →
    ∃ t, exec (.capArm j) s = .next t ∧
      t.dev.f ⟨0x42100410 + 0x20 * j.val, 8, 1⟩ = 1 ∧ OnlyRegs [0x42100410 + 0x20 * j.val] s.dev t.dev) ∧
  (∀ (s : State) (j : Fin 8),
      s.dev.coreOn = true → s.dev.f ⟨0x42100410 + 0x20 * j.val, 0, 3⟩ = 1 →
    ∃ t, exec (.capTrigNow j) s = .next t ∧
      t.dev.f ⟨0x42100410 + 0x20 * j.val, 0, 3⟩ = 2 ∧
      t.dev.f ⟨0x42100414 + 0x20 * j.val, 0, 32⟩ + 2 ^ 32 * t.dev.f ⟨0x42100418 + 0x20 * j.val, 0, 16⟩ = s.dev.tide.k % 2 ^ 48 ∧
      t.dev.caps = s.dev.caps) ∧
  (∀ (s : State) (j : Fin 8),
      s.dev.coreOn = true → (s.dev.f ⟨0x42100410 + 0x20 * j.val, 0, 3⟩ = 2 ∨ s.dev.f ⟨0x42100410 + 0x20 * j.val, 0, 3⟩ = 3) →
    ∃ t, exec (.capTrigNow j) s = .next t ∧
      t.dev.f ⟨0x42100410 + 0x20 * j.val, 16, 16⟩ = min (s.dev.f ⟨0x42100410 + 0x20 * j.val, 16, 16⟩ + 1) 65535 ∧
      OnlyRegs [0x42100410 + 0x20 * j.val] s.dev t.dev) ∧
  (∀ (s : State) (j : Fin 8),
      s.dev.coreOn = true → s.dev.f ⟨0x42100410 + 0x20 * j.val, 0, 3⟩ = 0 →
    ∃ t, exec (.capTrigNow j) s = .next t ∧
      Unmoved s.dev t.dev) ∧
  (∀ (s : State) (j : Fin 8),
      s.dev.coreOn = true →
    ∃ t, exec (.capRelease j) s = .next t ∧
      t.dev.f ⟨0x42100410 + 0x20 * j.val, 0, 3⟩ = 0 ∧ (t.dev.cap j.val).recs = [] ∧ t.dev.rd (0x4210041C + 0x20 * j.val) = 0 ∧
      OnlyRegs [0x42100410 + 0x20 * j.val, 0x4210041C + 0x20 * j.val] s.dev { t.dev with caps := s.dev.caps }) ∧
  (∀ (s : State) (j : Fin 8) (k : BitVec 48) (epoch : BitVec 16),
      s.dev.coreOn = true → epoch.toNat = s.dev.tide.epoch → s.dev.f ⟨0x42100400 + 0x20 * j.val, 3, 3⟩ = 5 →
      s.dev.f ⟨0x42100410 + 0x20 * j.val, 0, 3⟩ = 1 → s.dev.f ⟨0x42100404 + 0x20 * j.val, 0, 16⟩ = 0 →
      s.dev.tide.k < k.toNat + s.dev.f ⟨0x42100404 + 0x20 * j.val, 16, 16⟩ →
    ∃ t, exec (.capTrigRx k epoch) s = .next t ∧
      t.dev.f ⟨0x42100410 + 0x20 * j.val, 0, 3⟩ = 2 ∧
      t.dev.f ⟨0x42100414 + 0x20 * j.val, 0, 32⟩ + 2 ^ 32 * t.dev.f ⟨0x42100418 + 0x20 * j.val, 0, 16⟩ = k.toNat ∧
      t.dev.f ⟨0x42100410 + 0x20 * j.val, 9, 1⟩ = s.dev.f ⟨0x42100410 + 0x20 * j.val, 9, 1⟩) ∧
  (∀ (s : State) (k : BitVec 48) (epoch : BitVec 16),
      s.dev.coreOn = true → epoch.toNat ≠ s.dev.tide.epoch → s.dev.fab.queue = [] →
    ∃ t, exec (.capTrigRx k epoch) s = .next t ∧
      Unmoved s.dev t.dev) ∧
  (∀ (s : State) (j : Fin 8),
      s.dev.coreOn = true → s.dev.f ⟨0x42100410 + 0x20 * j.val, 0, 3⟩ = 2 →
      ((s.dev.cap j.val).recs.any fun r => capKt j.val s.dev + s.dev.f ⟨0x42100404 + 0x20 * j.val, 16, 16⟩ ≤ r.tick + 1) = true →
    ∃ t, exec (.captureHeld j) s = .next t ∧
      t.dev.f ⟨0x42100410 + 0x20 * j.val, 0, 3⟩ = 3 ∧
      (t.dev.cap j.val).recs = (s.dev.cap j.val).recs.filter fun r => capKt j.val s.dev ≤ r.tick + s.dev.f ⟨0x42100404 + 0x20 * j.val, 0, 16⟩ && r.tick < capKt j.val s.dev + s.dev.f ⟨0x42100404 + 0x20 * j.val, 16, 16⟩) ∧
  (∀ (s : State) (j : Fin 8),
      s.dev.coreOn = true → s.dev.f ⟨0x42100410 + 0x20 * j.val, 0, 3⟩ ≠ 2 →
    ∃ t, exec (.captureHeld j) s = .next t ∧
      Unmoved s.dev t.dev) ∧
  (∀ (s : State) (j : Fin 8) (at_ : Nat),
      s.dev.coreOn = true → s.dev.f ⟨0x42100410 + 0x20 * j.val, 0, 3⟩ = 3 → s.dev.f ⟨0x42100408 + 0x20 * j.val, 0, 12⟩ ≠ 0 →
      (s.dev.cap j.val).sent = 0 → s.dev.f ⟨0x4210041C + 0x20 * j.val, 0, 32⟩ = 0 → 1 ≤ s.dev.f ⟨0x42100408 + 0x20 * j.val, 16, 7⟩ →
      s.dev.f ⟨0x42100410 + 0x20 * j.val, 10, 1⟩ = 0 → 0 < (capBytes (s.dev.cap j.val)).length → (s.dev.cap j.val).due ≤ s.dev.tide.abs + at_ →
    ∃ t, exec (.capDataTx j at_) s = .next t ∧
      (t.dev.cap j.val).sent = min 496 (capBytes (s.dev.cap j.val)).length ∧
      (t.dev.out.any fun o => match o with | .send (.addr a) 0x33 _ (.capData n k o l b) => a = s.dev.f ⟨0x42100408 + 0x20 * j.val, 0, 12⟩ && n = j.val && o = 0 && l = (capBytes (s.dev.cap j.val)).length && b = slice (capBytes (s.dev.cap j.val)) 0 496 | _ => false) = true) ∧
  (∀ (s : State) (j : Fin 8) (bytes : Nat),
      s.dev.coreOn = true → s.dev.f ⟨0x42100410 + 0x20 * j.val, 0, 3⟩ = 3 → bytes ≤ (s.dev.cap j.val).sent →
      s.dev.f ⟨0x4210041C + 0x20 * j.val, 0, 32⟩ < bytes → bytes < 2 ^ 32 → s.dev.fab.queue = [] →
    ∃ t, exec (.capAckRx j bytes) s = .next t ∧
      t.dev.f ⟨0x4210041C + 0x20 * j.val, 0, 32⟩ = bytes ∧ (t.dev.cap j.val) = { (s.dev.cap j.val) with resends := 0 } ∧
      OnlyRegs [0x4210041C + 0x20 * j.val] s.dev { t.dev with caps := s.dev.caps }) ∧
  (∀ (s : State) (j : Fin 8),
      s.dev.coreOn = true → s.dev.f ⟨0x42100410 + 0x20 * j.val, 0, 3⟩ = 3 → s.dev.f ⟨0x4210041C + 0x20 * j.val, 0, 32⟩ < (s.dev.cap j.val).sent →
      s.dev.f ⟨0x42100410 + 0x20 * j.val, 10, 1⟩ = 0 → (s.dev.cap j.val).resends < 8 →
    ∃ t, exec (.capResend j) s = .next t ∧
      (t.dev.cap j.val) = { (s.dev.cap j.val) with sent := s.dev.f ⟨0x4210041C + 0x20 * j.val, 0, 32⟩, resends := (s.dev.cap j.val).resends + 1 } ∧
      t.dev.regs = s.dev.regs) ∧
  (∀ (s : State) (j : Fin 8),
      s.dev.coreOn = true → s.dev.f ⟨0x42100410 + 0x20 * j.val, 0, 3⟩ = 3 → s.dev.f ⟨0x4210041C + 0x20 * j.val, 0, 32⟩ < (s.dev.cap j.val).sent →
      8 ≤ (s.dev.cap j.val).resends →
    ∃ t, exec (.capResend j) s = .next t ∧
      t.dev.f ⟨0x42100410 + 0x20 * j.val, 10, 1⟩ = 1 ∧ t.dev.caps = s.dev.caps)

/-- A request from a gateway is executed once and its reply kept; a reply answers the host that asked; a pause of more than 100 ms discards a
partial message.
a TX_OPEN from a gateway opens a transaction of that gateway, and its reply is stored with its identifier; the same request within 10 s
opens none; a part not the last waits; a ferry that fails its CRC changes nothing; a pause beyond 100 ms discards the part held and sets
REASM_ERR, a shorter one does nothing.
Rules: R346, R347. -/
def Obligations.RemoteRequestsAreServed : Prop :=
  (∀ (s : State) (src : BitVec 12) (id at_ : Nat),
      s.dev.coreOn = true → hostUp s.dev = true → s.dev.fab.queue = [] → s.dev.fab.parts = [] → s.dev.fab.replies = [] → s.dev.host.asker = none →
      s.dev.host.txs = [] → s.dev.pow.after = 0 →
    ∃ t, exec (.dicReqRx src id 0x20 0 0 true true [] none true at_) s = .next t ∧
      t.dev.host.txs = [⟨s.dev.jrn.nextTx, 2 ^ 32 + src.toNat, []⟩] ∧
      t.dev.fab.replies = [⟨src.toNat, id, s.dev.tide.abs, leBytes 4 0 ++ leBytes 4 s.dev.jrn.nextTx⟩] ∧ t.dev.jrn.nextTx = s.dev.jrn.nextTx + 1 ∧
      t.dev.jrn.seq = s.dev.jrn.seq) ∧
  (∀ (s : State) (src : BitVec 12) (id at_ : Nat) (r : StoredReply),
      s.dev.coreOn = true → hostUp s.dev = true → s.dev.fab.queue = [] → s.dev.fab.parts = [] → s.dev.fab.replies = [r] → r.addr = src.toNat →
      r.id = id → s.dev.tide.abs + at_ < r.at_ + 4000000000 →
    ∃ t, exec (.dicReqRx src id 0x20 0 0 true true [] none true at_) s = .next t ∧
      t.dev.host.txs = s.dev.host.txs ∧ t.dev.jrn = { s.dev.jrn with at_ := t.dev.jrn.at_ } ∧
      (t.dev.out.any fun o => match o with | .send (.addr a) 0x31 _ _ => a = src.toNat | _ => false) = true) ∧
  (∀ (s : State) (src : BitVec 12) (id typ tx seq at_ : Nat) (first last : Bool) (body : List Byte),
      s.dev.coreOn = true → s.dev.fab.queue = [] →
    ∃ t, exec (.dicReqRx src id typ tx seq first last body none false at_) s = .next t ∧
      Unmoved s.dev t.dev) ∧
  (∀ (s : State) (src : BitVec 12) (id typ tx at_ : Nat) (body : List Byte),
      s.dev.coreOn = true → hostUp s.dev = true → typ ≠ 0 → s.dev.fab.queue = [] → s.dev.fab.parts = [] →
    ∃ t, exec (.dicReqRx src id typ tx 0 true false body none true at_) s = .next t ∧
      t.dev.fab.parts = [⟨src.toNat, id, typ, tx, body, 1⟩] ∧ t.dev.host = s.dev.host ∧ t.dev.jrn = { s.dev.jrn with at_ := t.dev.jrn.at_ }) ∧
  (∀ (s : State) (src : BitVec 12) (id : Nat) (body : List Byte) (r : RemoteU),
      s.dev.coreOn = true → hostUp s.dev = true → s.dev.fab.queue = [] → s.dev.fab.parts = [] → s.dev.host.remote = [r] → r.id = id →
      r.target = src.toNat →
    ∃ t, exec (.dicRspRx src id 0 true true body true) s = .next t ∧
      t.dev.host.remote = [] ∧ t.dev.host.sessions.length = s.dev.host.sessions.length ∧ t.dev.jrn = { s.dev.jrn with at_ := t.dev.jrn.at_ }) ∧
  (∀ (s : State) (src : BitVec 12) (elapsed : Nat) (p : Partial),
      s.dev.coreOn = true → s.dev.fab.parts = [p] → p.src = src.toNat → p.typ ≠ 0 → 100 < elapsed →
    ∃ t, exec (.reassemblyTimeout src false elapsed) s = .next t ∧
      t.dev.fab.parts = [] ∧ t.dev.f ⟨0x4210022C, 7, 1⟩ = 1 ∧ t.dev.host = s.dev.host) ∧
  (∀ (s : State) (src : BitVec 12) (reply : Bool) (elapsed : Nat),
      s.dev.coreOn = true → elapsed ≤ 100 →
    ∃ t, exec (.reassemblyTimeout src reply elapsed) s = .next t ∧
      Unmoved s.dev t.dev)

/-- A valid heartbeat of the other side pairs the device and is its partner's latest; one of the same side sets SIDE_ERR and unpairs; digests
that differ for a second round mark the isle.
a heartbeat that passes its checks on the working pair port is kept, whole; the same SIDE unpairs; one of another tick or with a bad CRC
changes nothing of the pair; a second mismatching digest sets the bit of its isle and DIVERGED, a fourth matching one clears the bit, a zero
digest is not compared; a transition of the alive wire is noted.
Rules: R351, R358, R369. -/
def Obligations.PairsFollowTheirHeartbeats : Prop :=
  (∀ (s : State) (h : Heartbeat),
      s.dev.coreOn = true → s.dev.f ⟨0x47000000, 0, 1⟩ = 1 → (pairPort s.dev).isSome = true → (h.tick = s.dev.tide.k ∨ h.tick + 1 = s.dev.tide.k) →
      h.side ≠ s.dev.f ⟨0x47000000, 1, 1⟩ →
    ∃ t, exec (.pairHbRx h true) s = .next t ∧
      t.dev.red.paired = true ∧ t.dev.red.hb = some h ∧ t.dev.red.hbNow = true ∧ t.dev.f ⟨0x47000004, 22, 1⟩ = s.dev.f ⟨0x47000004, 22, 1⟩ ∧
      t.dev.strings = s.dev.strings ∧ t.dev.isles = s.dev.isles ∧ t.dev.tide = s.dev.tide) ∧
  (∀ (s : State) (h : Heartbeat),
      s.dev.coreOn = true → s.dev.f ⟨0x47000000, 0, 1⟩ = 1 → (pairPort s.dev).isSome = true → (h.tick = s.dev.tide.k ∨ h.tick + 1 = s.dev.tide.k) →
      h.side = s.dev.f ⟨0x47000000, 1, 1⟩ →
    ∃ t, exec (.pairHbRx h true) s = .next t ∧
      t.dev.red = { s.dev.red with paired := false } ∧ t.dev.f ⟨0x47000004, 22, 1⟩ = 1 ∧ t.dev.strings = s.dev.strings ∧ t.dev.isles = s.dev.isles ∧
      t.dev.tide = s.dev.tide) ∧
  (∀ (s : State) (h : Heartbeat) (crcOk : Bool),
      s.dev.coreOn = true → (crcOk = false ∨ s.dev.f ⟨0x47000000, 0, 1⟩ = 0 ∨ ¬ (h.tick = s.dev.tide.k ∨ h.tick + 1 = s.dev.tide.k)) →
    ∃ t, exec (.pairHbRx h crcOk) s = .next t ∧
      t.dev.red = s.dev.red ∧ t.dev.strings = s.dev.strings ∧ t.dev.isles = s.dev.isles ∧ t.dev.tide = s.dev.tide) ∧
  (∀ (s : State) (tick first : Nat) (digests : List Nat) (i : Fin 64),
      s.dev.coreOn = true → s.dev.red.paired = true → s.dev.f ⟨0x40010004, 0, 3⟩ = 3 → first % 64 = 0 → first ≤ 192 → tick + 1 = s.dev.tide.k →
      tick = s.dev.red.digTick → digests.getD i.val 0 ≠ 0 → tget (fun _ => 0) s.dev.red.digests (first + i.val) ≠ 0 →
      digests.getD i.val 0 ≠ tget (fun _ => 0) s.dev.red.digests (first + i.val) → tget (fun _ => 0) s.dev.red.bad (first + i.val) = 1 →
    ∃ t, exec (.pairDigRx tick first digests true) s = .next t ∧
      t.dev.f (divFld (first + i.val)) = 1 ∧ t.dev.f ⟨0x47000004, 19, 1⟩ = 1 ∧ tget (fun _ => 0) t.dev.red.bad (first + i.val) = 2 ∧
      tget (fun _ => 0) t.dev.red.good (first + i.val) = 0 ∧ t.dev.strings = s.dev.strings ∧ t.dev.isles = s.dev.isles ∧ t.dev.tide = s.dev.tide) ∧
  (∀ (s : State) (tick first : Nat) (digests : List Nat) (i : Fin 64),
      s.dev.coreOn = true → s.dev.red.paired = true → s.dev.f ⟨0x40010004, 0, 3⟩ = 3 → first % 64 = 0 → first ≤ 192 → tick + 1 = s.dev.tide.k →
      tick = s.dev.red.digTick → digests.getD i.val 0 ≠ 0 → digests.getD i.val 0 = tget (fun _ => 0) s.dev.red.digests (first + i.val) →
      tget (fun _ => 0) s.dev.red.good (first + i.val) = 3 →
    ∃ t, exec (.pairDigRx tick first digests true) s = .next t ∧
      t.dev.f (divFld (first + i.val)) = 0 ∧ tget (fun _ => 0) t.dev.red.bad (first + i.val) = 0) ∧
  (∀ (s : State) (tick first : Nat) (digests : List Nat) (crcOk : Bool),
      s.dev.coreOn = true → ((∀ x ∈ digests, x = 0) ∨ crcOk = false ∨ s.dev.red.paired = false ∨ first % 64 ≠ 0 ∨ tick + 1 ≠ s.dev.tide.k) →
    ∃ t, exec (.pairDigRx tick first digests crcOk) s = .next t ∧
      t.dev.red = s.dev.red ∧ t.dev.strings = s.dev.strings ∧ t.dev.isles = s.dev.isles ∧ t.dev.tide = s.dev.tide) ∧
  (∀ (s : State),
      s.dev.coreOn = true →
    ∃ t, exec .pairAliveInTransition s = .next t ∧
      t.dev = { s.dev with out := [], red := { s.dev.red with aliveNow := true } })

/-- Two windows silent on both signals, or RELINQUISH, lose the partner: a ready standby takes over, one that is not sets NO_TAKE, the active
device sets PARTNER_LOST; one silent signal only degrades.
with both signals silent for two windows the loss is declared: on a TAKE_READY standby of an active partner it fixes k_d and the heartbeat
to take, on one that is not ready it sets NO_TAKE and is journalled, on the active device PARTNER_LOST and a journal entry; with one of them
silent PAIR_DEGR is set and nothing is declared.
Rules: R362, R364. -/
def Obligations.LossOfThePartnerIsDeclared : Prop :=
  (∀ (s : State) (h : Heartbeat),
      s.dev.coreOn = true → s.dev.red.paired = true → s.dev.red.lost = false → s.dev.red.aliveQuiet = 2 → s.dev.red.hbQuiet = 2 →
      s.dev.red.hb = some h → h.run = true → takeReady 0 s.dev = true →
    ∃ t, exec .partnerLost s = .next t ∧
      t.dev.red.lost = true ∧ t.dev.red.kd = some s.dev.tide.k ∧ t.dev.red.take = some h ∧ t.dev.f ⟨0x40010004, 0, 3⟩ = 3 ∧
      t.dev.f ⟨0x47000004, 0, 3⟩ = 3 ∧ t.dev.jrn = s.dev.jrn ∧ t.dev.strings = s.dev.strings ∧ t.dev.isles = s.dev.isles ∧ t.dev.tide = s.dev.tide) ∧
  (∀ (s : State) (h : Heartbeat),
      s.dev.coreOn = true → s.dev.red.paired = true → s.dev.red.lost = false → s.dev.red.aliveQuiet = 2 → s.dev.red.hbQuiet = 2 →
      s.dev.red.hb = some h → h.run = true → takeReady 0 s.dev = false → s.dev.f ⟨0x40010004, 0, 3⟩ = 3 →
    ∃ t, exec .partnerLost s = .next t ∧
      t.dev.red.lost = true ∧ t.dev.red.kd = s.dev.red.kd ∧ t.dev.f ⟨0x47000004, 18, 1⟩ = 1 ∧ t.dev.jrn.seq = s.dev.jrn.seq + 1 ∧
      t.dev.strings = s.dev.strings ∧ t.dev.isles = s.dev.isles ∧ t.dev.tide = s.dev.tide) ∧
  (∀ (s : State),
      s.dev.coreOn = true → s.dev.red.paired = true → s.dev.red.lost = false →
      (s.dev.red.relNow = true ∨ (s.dev.red.aliveQuiet = 2 ∧ s.dev.red.hbQuiet = 2)) → s.dev.f ⟨0x40010004, 0, 3⟩ = 4 →
    ∃ t, exec .partnerLost s = .next t ∧
      t.dev.red.lost = true ∧ t.dev.f ⟨0x47000004, 16, 1⟩ = 1 ∧ t.dev.jrn.seq = s.dev.jrn.seq + 1 ∧ t.dev.f ⟨0x47000004, 4, 1⟩ = 0 ∧
      t.dev.strings = s.dev.strings ∧ t.dev.isles = s.dev.isles ∧ t.dev.tide = s.dev.tide) ∧
  (∀ (s : State),
      s.dev.coreOn = true → s.dev.red.paired = true → s.dev.red.lost = false → s.dev.red.relNow = false → s.dev.red.aliveQuiet = 2 →
      s.dev.red.hbQuiet < 2 → s.dev.red.degr = false →
    ∃ t, exec .partnerLost s = .next t ∧
      t.dev.red = { s.dev.red with degr := true } ∧ t.dev.f ⟨0x47000004, 17, 1⟩ = 1 ∧
      t.dev.f ⟨0x47000040, 16, 8⟩ = min (s.dev.f ⟨0x47000040, 16, 8⟩ + 1) 255 ∧ t.dev.jrn = s.dev.jrn) ∧
  (∀ (s : State),
      s.dev.coreOn = true → s.dev.red.paired = true → s.dev.red.lost = false → s.dev.red.relNow = false → s.dev.red.aliveQuiet < 2 →
      s.dev.red.hbQuiet < 2 →
    ∃ t, exec .partnerLost s = .next t ∧
      t.dev.red = { s.dev.red with degr := false } ∧ t.dev.jrn = s.dev.jrn ∧ t.dev.strings = s.dev.strings ∧ t.dev.isles = s.dev.isles ∧
      t.dev.tide = s.dev.tide)

/-- MIR_CFG sets the mirror age to zero and its items are applied in order; an active device with nothing to send sends an empty one every 10
ms; TAKE_READY falls as the age passes its limit.
on a paired standby an empty MIR_CFG marks its arrival, a bad one nothing; on the active device what waits goes, and after 10 ms an empty
one; with the age above its limit TAKE_READY reads 0, and the age is shown in ms.
Rules: R359, R361. -/
def Obligations.TheMirrorFlows : Prop :=
  (∀ (s : State) (at_ : Nat),
      s.dev.coreOn = true → s.dev.red.paired = true → s.dev.f ⟨0x40010004, 0, 3⟩ = 3 → s.dev.pow.restart = false →
    ∃ t, exec (.mirCfgRx [] true at_) s = .next t ∧
      t.dev.red = { s.dev.red with mirAt := some (s.dev.tide.abs + at_) } ∧ t.dev.f ⟨0x47000018, 0, 16⟩ = 0 ∧ t.dev.jrn = s.dev.jrn ∧
      t.dev.plan = s.dev.plan) ∧
  (∀ (s : State) (items : List MirItem) (crcOk : Bool) (at_ : Nat),
      s.dev.coreOn = true → (crcOk = false ∨ s.dev.red.paired = false ∨ s.dev.f ⟨0x40010004, 0, 3⟩ ≠ 3 ∨ s.dev.pow.restart = true) →
    ∃ t, exec (.mirCfgRx items crcOk at_) s = .next t ∧
      t.dev.red = s.dev.red ∧ t.dev.jrn = s.dev.jrn ∧ t.dev.plan = s.dev.plan ∧ t.dev.strings = s.dev.strings) ∧
  (∀ (s : State) (at_ : Nat) (x : MirItem) (l : List MirItem),
      s.dev.coreOn = true → s.dev.red.paired = true → s.dev.f ⟨0x40010004, 0, 3⟩ = 4 → s.dev.pow.restart = false → s.dev.red.mirOut = x :: l →
      (pairPort s.dev).isSome = true →
    ∃ t, exec (.mirCfgIdleTimer at_) s = .next t ∧
      (t.dev.out.any fun o => match o with | .send (.port p) 0x22 _ (.mirCfg i) => pairPort s.dev = some p && i = s.dev.red.mirOut | _ => false) = true ∧
      t.dev.red.mirOut = []) ∧
  (∀ (s : State) (at_ : Nat),
      s.dev.coreOn = true → s.dev.red.paired = true → s.dev.f ⟨0x40010004, 0, 3⟩ = 4 → s.dev.pow.restart = false → s.dev.red.mirOut = [] →
      s.dev.red.mirSent + 4000000 ≤ s.dev.tide.abs + at_ → (pairPort s.dev).isSome = true →
    ∃ t, exec (.mirCfgIdleTimer at_) s = .next t ∧
      (t.dev.out.any fun o => match o with | .send (.port p) 0x22 _ (.mirCfg i) => pairPort s.dev = some p && i = [] | _ => false) = true ∧
      t.dev.red.mirSent = s.dev.tide.abs + at_) ∧
  (∀ (s : State) (at_ : Nat),
      s.dev.coreOn = true → s.dev.red.mirOut = [] → s.dev.tide.abs + at_ < s.dev.red.mirSent + 4000000 →
    ∃ t, exec (.mirCfgIdleTimer at_) s = .next t ∧
      Unmoved s.dev t.dev) ∧
  (∀ (s : State) (at_ m : Nat),
      s.dev.coreOn = true → s.dev.red.mirAt = some m → m + 400000 * (s.dev.f ⟨0x47000014, 0, 13⟩ + 1) ≤ s.dev.tide.abs + at_ →
    ∃ t, exec (.mirrorAgeExpiry at_) s = .next t ∧
      t.dev.f ⟨0x47000004, 3, 1⟩ = 0 ∧ t.dev.f ⟨0x47000018, 0, 16⟩ = min ((s.dev.tide.abs + at_ - m) / 400000) 65535 ∧ t.dev.red = s.dev.red ∧
      RegsKept [0x47000004, 0x47000018] s.dev t.dev)

/-- After the hold-off the preferred device asks for k_h four ticks on; the active device agrees if it may; no agreement in time fails; SWITCH
names k_h or is refused.
the hold-off over under its conditions sends REVERT_REQ; a request at least two ticks ahead is answered and fixes k_h on the active device
that is not preferred; the answer fixes it on the one that asked; with k_h next and no answer REVERT_FAIL is set; SWITCH on the active
device, its partner ready, fixes k_h four ticks on, and changes nothing elsewhere.
Rules: R365, R367. -/
def Obligations.ControlIsHandedBack : Prop :=
  (∀ (s : State) (h0 : Nat),
      s.dev.coreOn = true → s.dev.red.hold = some h0 → revertFree s.dev = true → s.dev.red.asked = none →
      h0 + 400000000 * s.dev.f ⟨0x47000010, 0, 12⟩ ≤ s.dev.tide.abs →
    ∃ t, exec .revertHoldoffExpiry s = .next t ∧
      t.dev.red = { s.dev.red with asked := some (s.dev.tide.k + 4) } ∧
      ((pairPort s.dev).isSome = true → (t.dev.out.any fun o => match o with | .send (.port p) 0x23 _ (.revertReq k) => pairPort s.dev = some p && k = s.dev.tide.k + 4 | _ => false) = true)) ∧
  (∀ (s : State) (h0 : Nat),
      s.dev.coreOn = true → s.dev.red.hold = some h0 → (revertFree s.dev = false ∨ s.dev.tide.abs < h0 + 400000000 * s.dev.f ⟨0x47000010, 0, 12⟩) →
    ∃ t, exec .revertHoldoffExpiry s = .next t ∧
      Unmoved s.dev t.dev) ∧
  (∀ (s : State) (kh : BitVec 48),
      s.dev.coreOn = true → s.dev.red.paired = true → s.dev.f ⟨0x40010004, 0, 3⟩ = 4 → s.dev.tide.k + 2 ≤ kh.toNat → s.dev.f ⟨0x4700001C, 3, 1⟩ = 0 →
      stringsBusy s.dev = false → s.dev.red.kh = none → s.dev.red.kd = none →
    ∃ t, exec (.revertReqRx kh true) s = .next t ∧
      t.dev.red = { s.dev.red with kh := some (kh.toNat, true) } ∧ t.dev.f ⟨0x40010004, 0, 3⟩ = 4 ∧ t.dev.strings = s.dev.strings ∧
      t.dev.isles = s.dev.isles ∧ t.dev.tide = s.dev.tide) ∧
  (∀ (s : State) (kh : BitVec 48) (crcOk : Bool),
      s.dev.coreOn = true → (crcOk = false ∨ kh.toNat < s.dev.tide.k + 2 ∨ s.dev.f ⟨0x4700001C, 3, 1⟩ = 1 ∨ stringsBusy s.dev = true) →
    ∃ t, exec (.revertReqRx kh crcOk) s = .next t ∧
      t.dev.red = s.dev.red ∧ t.dev.strings = s.dev.strings ∧ t.dev.isles = s.dev.isles ∧ t.dev.tide = s.dev.tide) ∧
  (∀ (s : State) (kh : BitVec 48),
      s.dev.coreOn = true → s.dev.red.paired = true → s.dev.f ⟨0x40010004, 0, 3⟩ = 3 → s.dev.red.kh = none → s.dev.red.asked = some kh.toNat →
    ∃ t, exec (.revertAckRx kh true) s = .next t ∧
      t.dev.red = { s.dev.red with kh := some (kh.toNat, false), asked := none, hold := none } ∧
      t.dev.f ⟨0x47000004, 0, 3⟩ = (if s.dev.red.kd.isSome then 3 else 4) ∧ t.dev.strings = s.dev.strings ∧ t.dev.isles = s.dev.isles ∧
      t.dev.tide = s.dev.tide) ∧
  (∀ (s : State) (kh : Nat),
      s.dev.coreOn = true → s.dev.red.asked = some kh → kh ≤ s.dev.tide.k + 1 →
    ∃ t, exec .revertFail s = .next t ∧
      t.dev.f ⟨0x47000004, 21, 1⟩ = 1 ∧ t.dev.red = { s.dev.red with asked := none, hold := none } ∧ RegsKept [0x47000004] s.dev t.dev) ∧
  (∀ (s : State) (h : Heartbeat),
      s.dev.coreOn = true → s.dev.red.paired = true → s.dev.f ⟨0x40010004, 0, 3⟩ = 4 → s.dev.red.lost = false → s.dev.red.hb = some h →
      h.takeReady = true → s.dev.red.kh = none → s.dev.red.kd = none → s.dev.red.asked = none →
    ∃ t, exec .switch s = .next t ∧
      t.dev.red = { s.dev.red with kh := some (s.dev.tide.k + 4, true) } ∧ t.dev.strings = s.dev.strings ∧ t.dev.isles = s.dev.isles ∧
      t.dev.tide = s.dev.tide) ∧
  (∀ (s : State),
      s.dev.coreOn = true → (s.dev.f ⟨0x40010004, 0, 3⟩ ≠ 4 ∨ s.dev.red.paired = false ∨ s.dev.red.lost = true) →
    ∃ t, exec .switch s = .next t ∧
      Unmoved s.dev t.dev)

/-- A contact accepted in demand puts its pair in demand at once, and a pair of function STO takes the output of every port of its mask off; the
window that ends holds the pair; a host reset counts only with no cause present.
the first contact accepted in demand is enough; the ports named by an STO pair lose that channel's output in the same step; a window that
ends without the second contact declares a discrepancy fault and holds the pair in demand, one not yet over does nothing; a host reset sets
the interlocks of a port without causes and its outputs come on, and with a cause present they stay off; at t_SS1 the output of the channel
goes off.
Rules: R375, R378, R379, R382, R383. -/
def Obligations.SafetyInputsStopThePorts : Prop :=
  (∀ (s : State) (ch : Bool) (i : Fin 8) (b lvl : Bool),
      s.dev.coreOn = true → (s.dev.chan ch).lvl.testBit (if b then 8 + i.val else i.val) ≠ lvl → contactDemand s.dev i.val b lvl = true →
    ∃ t, exec (.sfiAccept ch i b lvl) s = .next t ∧
      (t.dev.chan ch).demand.testBit i.val = true ∧ (t.dev.chan ch).lvl.testBit (if b then 8 + i.val else i.val) = lvl ∧
      (t.dev.chan (!ch)).demand = (s.dev.chan (!ch)).demand ∧
      (∀ p : Fin 4, pairFn s.dev i.val = 1 → (spbPair s.dev i.val 1).testBit p.val = true → (t.dev.chan ch).out.testBit p.val = false ∧ t.dev.f ⟨0x44000020 + 4 * p.val, 1, 1⟩ = 1) ∧
      t.dev.isles = s.dev.isles) ∧
  (∀ (s : State) (ch : Bool) (i : Fin 8) (b lvl : Bool),
      s.dev.coreOn = true → (s.dev.chan ch).lvl.testBit (if b then 8 + i.val else i.val) = lvl →
    ∃ t, exec (.sfiAccept ch i b lvl) s = .next t ∧
      Unmoved s.dev t.dev) ∧
  (∀ (s : State) (ch : Bool) (i : Fin 8) (elapsed : Nat),
      s.dev.coreOn = true → (s.dev.chan ch).win.testBit i.val = true → s.dev.saf.spb ≠ [] → 2 * spbPair s.dev i.val 3 ≤ elapsed →
    ∃ t, exec (.discrepancyFault ch i elapsed) s = .next t ∧
      (t.dev.chan ch).disc.testBit i.val = true ∧ (t.dev.chan ch).demand.testBit i.val = true ∧ (t.dev.chan ch).win.testBit i.val = false ∧
      t.dev.rd 0x4400000C = s.dev.rd 0x4400000C ∧ t.dev.strings = s.dev.strings ∧ t.dev.isles = s.dev.isles) ∧
  (∀ (s : State) (ch : Bool) (i : Fin 8) (elapsed : Nat),
      s.dev.coreOn = true → ((s.dev.chan ch).win.testBit i.val = false ∨ (s.dev.saf.spb ≠ [] ∧ elapsed < 2 * spbPair s.dev i.val 3)) →
    ∃ t, exec (.discrepancyFault ch i elapsed) s = .next t ∧
      Unmoved s.dev t.dev) ∧
  (∀ (s : State) (mask : BitVec 4) (p : Fin 4),
      s.dev.coreOn = true → mask.getLsbD p.val = true → spbFlag s.dev p.val 4 = true → spbFlag s.dev p.val 0 = true → s.dev.saf.spb ≠ [] →
      s.dev.saf.hot = false → stopReq s.dev s.dev.saf.a p.val = 0 → stopReq s.dev s.dev.saf.b p.val = 0 →
    ∃ t, exec (.hostReset mask) s = .next t ∧
      t.dev.saf.a.out.testBit p.val = true ∧ t.dev.saf.b.out.testBit p.val = true ∧ t.dev.f ⟨0x44000020 + 4 * p.val, 9, 1⟩ = 0 ∧
      t.dev.f ⟨0x44000020 + 4 * p.val, 1, 1⟩ = 0) ∧
  (∀ (s : State) (mask : BitVec 4) (p : Fin 4),
      s.dev.coreOn = true → stopReq s.dev s.dev.saf.a p.val = 2 → stopReq s.dev s.dev.saf.b p.val = 2 →
    ∃ t, exec (.hostReset mask) s = .next t ∧
      t.dev.saf.a.out.testBit p.val = false ∧ t.dev.saf.b.out.testBit p.val = false ∧ t.dev.f ⟨0x44000020 + 4 * p.val, 9, 1⟩ = 1) ∧
  (∀ (s : State) (ch : Bool) (p : Fin 4) (elapsed : Nat),
      s.dev.coreOn = true → (s.dev.chan ch).ss1.testBit p.val = true → ss1Asked s.dev (s.dev.chan ch) p.val = true →
      spbPort s.dev p.val 2 2 ≤ elapsed →
    ∃ t, exec (.ss1TimerExpiry ch p elapsed) s = .next t ∧
      (t.dev.chan ch).out.testBit p.val = false ∧ t.dev.f ⟨0x44000020 + 4 * p.val, 1, 1⟩ = 1) ∧
  (∀ (s : State) (ch : Bool) (p : Fin 4) (elapsed : Nat),
      s.dev.coreOn = true → ((s.dev.chan ch).ss1.testBit p.val = false ∨ elapsed < spbPort s.dev p.val 2 2) →
    ∃ t, exec (.ss1TimerExpiry ch p elapsed) s = .next t ∧
      Unmoved s.dev t.dev)

/-- Every class A fault latches its bit and takes every STO output inactive; an SLS violation in one channel counts in both.
a pad stuck through a test pulse, a mismatch, a cross-monitoring difference, the watchdog, a failed self-check and a lockstep mismatch each
set their bit of SAF_A_FAULT and stop every port through both channels; a good pulse and a good self-check change nothing; with SLS in force
a speed above v_SLS or not valid, or more edges than n_SLS_B in a window, is a violation in both channels, and with SLS_REACT STO stops the
port; edges within the limit are none.
Rules: R374, R386, R388, R389. -/
def Obligations.DiagnosticsStopEveryPort : Prop :=
  (∀ (s : State) (ch : Bool) (p : Fin 4),
      s.dev.coreOn = true → s.dev.domOn 3 = true → (s.dev.chan ch).out.testBit p.val = true →
    ∃ t, exec (.stoTestPulse ch p true) s = .next t ∧
      t.dev.f ⟨0x4400000C, 4, 1⟩ = 1 ∧
      (∀ p : Fin 4, t.dev.saf.a.out.testBit p.val = false ∧ t.dev.saf.b.out.testBit p.val = false ∧ t.dev.f ⟨0x44000020 + 4 * p.val, 1, 1⟩ = 1) ∧
      t.dev.isles = s.dev.isles) ∧
  (∀ (s : State) (ch : Bool) (p : Fin 4),
      s.dev.coreOn = true →
    ∃ t, exec (.stoTestPulse ch p false) s = .next t ∧
      Unmoved s.dev t.dev) ∧
  (∀ (s : State) (elapsed : Nat),
      s.dev.coreOn = true → s.dev.domOn 3 = true → 1000 < elapsed →
    ∃ t, exec (.readbackMismatch elapsed) s = .next t ∧
      t.dev.f ⟨0x4400000C, 4, 1⟩ = 1 ∧
      (∀ p : Fin 4, t.dev.saf.a.out.testBit p.val = false ∧ t.dev.saf.b.out.testBit p.val = false ∧ t.dev.f ⟨0x44000020 + 4 * p.val, 1, 1⟩ = 1) ∧
      t.dev.isles = s.dev.isles) ∧
  (∀ (s : State) (elapsed : Nat),
      s.dev.coreOn = true → elapsed ≤ 1000 →
    ∃ t, exec (.readbackMismatch elapsed) s = .next t ∧
      Unmoved s.dev t.dev) ∧
  (∀ (s : State) (elapsed : Nat),
      s.dev.coreOn = true → s.dev.domOn 3 = true → channelsDiffer s.dev = true → 10 ≤ elapsed →
    ∃ t, exec (.xchk elapsed) s = .next t ∧
      t.dev.f ⟨0x4400000C, 3, 1⟩ = 1 ∧
      (∀ p : Fin 4, t.dev.saf.a.out.testBit p.val = false ∧ t.dev.saf.b.out.testBit p.val = false ∧ t.dev.f ⟨0x44000020 + 4 * p.val, 1, 1⟩ = 1) ∧
      t.dev.isles = s.dev.isles) ∧
  (∀ (s : State) (elapsed : Nat),
      s.dev.coreOn = true → (channelsDiffer s.dev = false ∨ elapsed < 10) →
    ∃ t, exec (.xchk elapsed) s = .next t ∧
      Unmoved s.dev t.dev) ∧
  (∀ (s : State) (elapsed : Nat),
      s.dev.coreOn = true → s.dev.domOn 3 = true → 2 ≤ elapsed →
    ∃ t, exec (.wdg elapsed) s = .next t ∧
      t.dev.f ⟨0x4400000C, 2, 1⟩ = 1 ∧
      (∀ p : Fin 4, t.dev.saf.a.out.testBit p.val = false ∧ t.dev.saf.b.out.testBit p.val = false ∧ t.dev.f ⟨0x44000020 + 4 * p.val, 1, 1⟩ = 1) ∧
      t.dev.isles = s.dev.isles) ∧
  (∀ (s : State) (elapsed : Nat),
      s.dev.coreOn = true → elapsed < 2 →
    ∃ t, exec (.wdg elapsed) s = .next t ∧
      Unmoved s.dev t.dev) ∧
  (∀ (s : State),
      s.dev.coreOn = true → s.dev.domOn 3 = true →
    ∃ t, exec (.skerrySelfCheck true) s = .next t ∧
      t.dev.f ⟨0x4400000C, 7, 1⟩ = 1 ∧
      (∀ p : Fin 4, t.dev.saf.a.out.testBit p.val = false ∧ t.dev.saf.b.out.testBit p.val = false ∧ t.dev.f ⟨0x44000020 + 4 * p.val, 1, 1⟩ = 1) ∧
      t.dev.isles = s.dev.isles) ∧
  (∀ (s : State),
      s.dev.coreOn = true →
    ∃ t, exec (.skerrySelfCheck false) s = .next t ∧
      Unmoved s.dev t.dev) ∧
  (∀ (s : State),
      s.dev.coreOn = true → s.dev.domOn 3 = true →
    ∃ t, exec .lockstepMismatch s = .next t ∧
      t.dev.f ⟨0x4400000C, 6, 1⟩ = 1 ∧
      (∀ p : Fin 4, t.dev.saf.a.out.testBit p.val = false ∧ t.dev.saf.b.out.testBit p.val = false ∧ t.dev.f ⟨0x44000020 + 4 * p.val, 1, 1⟩ = 1) ∧
      t.dev.isles = s.dev.isles) ∧
  (∀ (s : State) (p : Fin 4) (elapsed : Nat),
      s.dev.coreOn = true → s.dev.saf.spb ≠ [] → slsOn s.dev s.dev.saf.a p.val = true →
      (encValid (spbPort s.dev p.val 1 1) s.dev = false ∨ spbPort s.dev p.val 8 2 * (16 * spbPort s.dev p.val 12 4) < portSpeed s.dev p.val * 600) →
    ∃ t, exec (.safetySpeedCheck p elapsed) s = .next t ∧
      t.dev.saf.a.viol.testBit p.val = true ∧ slsViolated t.dev p.val = true ∧
      t.dev.f ⟨0x44000020 + 4 * p.val, 2, 1⟩ = (if slsViolated s.dev p.val then s.dev.f ⟨0x44000020 + 4 * p.val, 2, 1⟩ else 1) ∧
      (spbFlag s.dev p.val 3 = false → t.dev.saf.a.out.testBit p.val = false ∧ t.dev.saf.b.out.testBit p.val = false)) ∧
  (∀ (s : State) (p : Fin 4) (elapsed : Nat),
      s.dev.coreOn = true → s.dev.saf.spb = [] →
    ∃ t, exec (.safetySpeedCheck p elapsed) s = .next t ∧
      Unmoved s.dev t.dev) ∧
  (∀ (s : State) (p : Fin 4) (edges : Nat),
      s.dev.coreOn = true → slsOn s.dev s.dev.saf.b p.val = true → spbPort s.dev p.val 10 1 < edges →
    ∃ t, exec (.skerrySlsWindow p edges) s = .next t ∧
      t.dev.saf.b.viol.testBit p.val = true ∧ slsViolated t.dev p.val = true ∧
      (spbFlag s.dev p.val 3 = false → t.dev.saf.a.out.testBit p.val = false ∧ t.dev.saf.b.out.testBit p.val = false)) ∧
  (∀ (s : State) (p : Fin 4) (edges : Nat),
      s.dev.coreOn = true → edges ≤ spbPort s.dev p.val 10 1 → s.dev.saf.b.viol.testBit p.val = true →
    ∃ t, exec (.skerrySlsWindow p edges) s = .next t ∧
      t.dev.saf.b.viol.testBit p.val = false ∧ t.dev.saf.a.viol = s.dev.saf.a.viol) ∧
  (∀ (s : State) (p : Fin 4) (edges : Nat),
      s.dev.coreOn = true → edges ≤ spbPort s.dev p.val 10 1 → s.dev.saf.b.viol.testBit p.val = false →
    ∃ t, exec (.skerrySlsWindow p edges) s = .next t ∧
      Unmoved s.dev t.dev)

/-- An SPB written in COMMISSION is staged with its check value; the value confirmed starts a burn of the next free bank; its end leaves in the
fuses what took; class B bits clear only once their cause has; a refused request burns nothing.
outside COMMISSION an SPB write changes nothing; in it the block is staged, its check value shown and STAGED says whether it differs from
the bank in force; a refused confirmation is journalled and burns nothing; an accepted one starts the burn of the bank image and marks the
bank used; at its end the bits that took are burned and no burn is left; loss of MV past t_MV commands SAFE to every string with MV_LOSS; an
acknowledgement clears the named bits whose cause does not stand, and no others.
Rules: R393, R396, R399, R400, R401. -/
def Obligations.TheProtectionSetUpIsConfirmed : Prop :=
  (∀ (s : State) (l : List Byte),
      s.dev.coreOn = true → s.dev.mode = 2 → l.length = 192 →
    ∃ t, exec (.spbWrite l) s = .next t ∧
      t.dev.saf = { s.dev.saf with staged := some l } ∧ t.dev.rd 0x44000004 = BitVec.ofNat 32 (crc32c l) ∧
      t.dev.f ⟨0x44000000, 5, 1⟩ = (if l = s.dev.saf.spb then 0 else 1) ∧ RegsKept [0x44000000, 0x44000004] s.dev t.dev ∧ t.fuses = s.fuses) ∧
  (∀ (s : State) (l : List Byte),
      s.dev.coreOn = true → (s.dev.mode ≠ 2 ∨ l.length ≠ 192) →
    ∃ t, exec (.spbWrite l) s = .next t ∧
      Unmoved s.dev t.dev) ∧
  (∀ (s : State) (o : Origin) (v : Word),
      s.dev.coreOn = true → confirmRefusal v s.dev ≠ 0 → s.dev.saf.burn = none →
    ∃ t, exec (.confirm o v) s = .next t ∧
      t.dev.saf = s.dev.saf ∧ t.fuses = s.fuses ∧ t.dev.jrn.seq = s.dev.jrn.seq + 1 ∧
      (t.dev.jslot (s.dev.jrn.seq + 1)).result = confirmRefusal v s.dev ∧ (t.dev.jslot (s.dev.jrn.seq + 1)).st = 1) ∧
  (∀ (s : State) (o : Origin) (v : Word) (l : List Byte) (b : Nat),
      s.dev.coreOn = true → confirmRefusal v s.dev = 0 → s.dev.saf.staged = some l → freeBank s.dev = some b →
    ∃ t, exec (.confirm o v) s = .next t ∧
      t.dev.saf.burn = some (bankImage l b (s.dev.saf.key.getD (keyInForce s.dev)), b, s.dev.jrn.seq + 1) ∧ t.dev.saf.staged = none ∧
      t.fuses = s.fuses ∧ t.dev.f ⟨0x44000000, 8 + b, 1⟩ = 1 ∧ (t.dev.jslot (s.dev.jrn.seq + 1)).st = 0) ∧
  (∀ (s : State) (taken img : List Byte) (b q : Nat),
      s.dev.saf.burn = some (img, b, q) →
    ∃ t, exec (.fuseBurnDone taken) s = .next t ∧
      t.fuses = burnBanks s.fuses b (List.zipWith (· &&& ·) img taken) ∧ t.dev.saf.burn = none ∧ t.dev.saf.spb = s.dev.saf.spb ∧
      t.dev.f ⟨0x44000030, 24, 8⟩ = (if bankMarked b (List.zipWith (· &&& ·) img taken) && bankChecks (List.zipWith (· &&& ·) img taken) then min (s.dev.f ⟨0x44000030, 24, 8⟩ + 1) 255 else s.dev.f ⟨0x44000030, 24, 8⟩)) ∧
  (∀ (s : State) (taken : List Byte),
      s.dev.saf.burn = none →
    ∃ t, exec (.fuseBurnDone taken) s = .next t ∧
      Unmoved s.dev t.dev ∧ t.fuses = s.fuses) ∧
  (∀ (s : State) (elapsed : Nat),
      s.dev.coreOn = true → mvBelow s.dev = true → leAt s.dev.saf.spb 71 1 ≤ elapsed →
    ∃ t, exec (.mvLoss elapsed) s = .next t ∧
      t.dev.f ⟨0x44000010, 3, 1⟩ = 1 ∧ (∀ x ∈ s.dev.heldStrings, (t.dev.str x).safeReq = true) ∧ t.dev.isles = s.dev.isles) ∧
  (∀ (s : State) (elapsed : Nat),
      s.dev.coreOn = true → (mvBelow s.dev = false ∨ elapsed < leAt s.dev.saf.spb 71 1) →
    ∃ t, exec (.mvLoss elapsed) s = .next t ∧
      Unmoved s.dev t.dev) ∧
  (∀ (s : State) (mask : Word),
      s.dev.coreOn = true →
    ∃ t, exec (.classBAck mask) s = .next t ∧
      (∀ b : Fin 5, t.dev.f ⟨0x44000010, b.val, 1⟩ = (if mask.getLsbD b.val = true ∧ classBStands b.val s.dev = false then 0 else s.dev.f ⟨0x44000010, b.val, 1⟩)) ∧
      t.dev.f ⟨0x44000000, 7, 1⟩ = (if t.dev.rd 0x44000010 = 0 then 0 else 1) ∧ RegsKept [0x44000000, 0x44000010] s.dev t.dev)

/-- EN_REQ = 0 turns a port off at once; EN_REQ = 1 arms it with safe torque off not in force and a port isle running; an accepted trip or fault
input faults it with its cause and gates off; only the toggle clears a fault.
EN_REQ 0 leads to OFF with all gates off in any state but FAULT; from OFF EN_REQ 1 arms the port; an enabled trip at its active level in
ARMED, CHARGE or RUN leads to FAULT with its cause and otherwise is only counted; the fault input acts as a trip once ready, and its
inactive level makes the port ready; not ready by the timeout is NOT_READY; t_bsc over is noted for the next reload point; in FAULT the
first write of the toggle is noted, the second after t_tog arms the port; another port never moves.
Rules: R407, R408, R425, R426, R427. -/
def Obligations.PortsChangeStateAsTheirTableSays : Prop :=
  (∀ (s : State) (p : Fin 4),
      s.dev.coreOn = true → (1 ≤ s.dev.f ⟨0x43000004 + 0x100 * p.val, 0, 3⟩ ∧ s.dev.f ⟨0x43000004 + 0x100 * p.val, 0, 3⟩ ≤ 3) →
    ∃ t, exec (.enReqWrite p false) s = .next t ∧
      t.dev.f ⟨0x43000004 + 0x100 * p.val, 0, 3⟩ = 0 ∧ t.dev.f ⟨0x43000000 + 0x100 * p.val, 0, 1⟩ = 0 ∧ (t.dev.port p.val).phases = [] ∧
      t.dev.f ⟨0x43000004 + 0x100 * p.val, 4, 4⟩ = s.dev.f ⟨0x43000004 + 0x100 * p.val, 4, 4⟩ ∧
      (∀ q : Fin 4, q ≠ p → t.dev.port q.val = s.dev.port q.val ∧ t.dev.f ⟨0x43000004 + 0x100 * q.val, 0, 3⟩ = s.dev.f ⟨0x43000004 + 0x100 * q.val, 0, 3⟩)) ∧
  (∀ (s : State) (p : Fin 4) (n : Nat),
      s.dev.coreOn = true → s.dev.f ⟨0x43000004 + 0x100 * p.val, 0, 3⟩ = 0 → s.dev.f ⟨0x43000004 + 0x100 * p.val, 3, 1⟩ = 0 → s.dev.mode = 4 →
      portIsle p.val s.dev = some n → (s.dev.isle n).istate ≠ 0 → tripActive p.val 0 s.dev = false → tripActive p.val 1 s.dev = false →
      portRun p.val s.dev = false →
    ∃ t, exec (.enReqWrite p true) s = .next t ∧
      t.dev.f ⟨0x43000004 + 0x100 * p.val, 0, 3⟩ = 1 ∧ t.dev.f ⟨0x43000000 + 0x100 * p.val, 0, 1⟩ = 1 ∧
      (∀ q : Fin 4, q ≠ p → t.dev.port q.val = s.dev.port q.val ∧ t.dev.f ⟨0x43000004 + 0x100 * q.val, 0, 3⟩ = s.dev.f ⟨0x43000004 + 0x100 * q.val, 0, 3⟩) ∧
      t.dev.isles = s.dev.isles) ∧
  (∀ (s : State) (p : Fin 4),
      s.dev.coreOn = true → s.dev.f ⟨0x43000004 + 0x100 * p.val, 0, 3⟩ = 0 →
      (s.dev.f ⟨0x43000004 + 0x100 * p.val, 3, 1⟩ = 1 ∨ s.dev.mode ≠ 4 ∨ portIsle p.val s.dev = none) →
    ∃ t, exec (.enReqWrite p true) s = .next t ∧
      t.dev.f ⟨0x43000004 + 0x100 * p.val, 0, 3⟩ = 0 ∧ OnlyRegs [0x43000000 + 0x100 * p.val] s.dev t.dev) ∧
  (∀ (s : State) (p : Fin 4),
      s.dev.coreOn = true → s.dev.f ⟨0x43000004 + 0x100 * p.val, 0, 3⟩ = 4 →
    ∃ t, exec (.enReqWrite p false) s = .next t ∧
      t.dev.f ⟨0x43000004 + 0x100 * p.val, 0, 3⟩ = 4 ∧ (t.dev.port p.val).toggle = 1 ∧ t.dev.f ⟨0x43000000 + 0x100 * p.val, 0, 1⟩ = 0 ∧
      t.dev.f ⟨0x43000004 + 0x100 * p.val, 4, 4⟩ = s.dev.f ⟨0x43000004 + 0x100 * p.val, 4, 4⟩ ∧
      (∀ q : Fin 4, q ≠ p → t.dev.port q.val = s.dev.port q.val ∧ t.dev.f ⟨0x43000004 + 0x100 * q.val, 0, 3⟩ = s.dev.f ⟨0x43000004 + 0x100 * q.val, 0, 3⟩)) ∧
  (∀ (s : State) (p : Fin 4) (i : Fin 2) (lvl : Bool),
      s.dev.coreOn = true → (1 ≤ s.dev.f ⟨0x43000004 + 0x100 * p.val, 0, 3⟩ ∧ s.dev.f ⟨0x43000004 + 0x100 * p.val, 0, 3⟩ ≤ 3) →
      s.dev.f ⟨0x43000018 + 0x100 * p.val, 13 + 16 * i.val, 1⟩ = 1 →
      s.dev.f ⟨0x43000018 + 0x100 * p.val, 12 + 16 * i.val, 1⟩ = (if lvl then 1 else 0) →
    ∃ t, exec (.tripAccept p i lvl) s = .next t ∧
      t.dev.f ⟨0x43000004 + 0x100 * p.val, 0, 3⟩ = 4 ∧ t.dev.f ⟨0x43000004 + 0x100 * p.val, 4, 4⟩ = 1 + i.val ∧
      t.dev.f ⟨0x43000004 + 0x100 * p.val, 23, 1⟩ = 1 ∧ (t.dev.port p.val).phases = [] ∧ (t.dev.port p.val).ready = false ∧
      (∀ q : Fin 4, q ≠ p → t.dev.port q.val = s.dev.port q.val ∧ t.dev.f ⟨0x43000004 + 0x100 * q.val, 0, 3⟩ = s.dev.f ⟨0x43000004 + 0x100 * q.val, 0, 3⟩) ∧
      t.dev.isles = s.dev.isles ∧
      t.dev.f ⟨0x43000048 + 0x100 * p.val, 8 * i.val, 8⟩ = min (s.dev.f ⟨0x43000048 + 0x100 * p.val, 8 * i.val, 8⟩ + 1) 255) ∧
  (∀ (s : State) (p : Fin 4) (i : Fin 2) (lvl : Bool),
      s.dev.coreOn = true →
      (s.dev.f ⟨0x43000018 + 0x100 * p.val, 13 + 16 * i.val, 1⟩ = 0 ∨ s.dev.f ⟨0x43000004 + 0x100 * p.val, 0, 3⟩ = 0 ∨ s.dev.f ⟨0x43000004 + 0x100 * p.val, 0, 3⟩ = 4) →
    ∃ t, exec (.tripAccept p i lvl) s = .next t ∧
      t.dev.f ⟨0x43000004 + 0x100 * p.val, 0, 3⟩ = s.dev.f ⟨0x43000004 + 0x100 * p.val, 0, 3⟩ ∧
      t.dev.f ⟨0x43000004 + 0x100 * p.val, 13 + i.val, 1⟩ = (if lvl then 1 else 0) ∧
      t.dev.f ⟨0x43000004 + 0x100 * p.val, 4, 4⟩ = s.dev.f ⟨0x43000004 + 0x100 * p.val, 4, 4⟩ ∧
      OnlyRegs [0x43000004 + 0x100 * p.val, 0x43000048 + 0x100 * p.val] s.dev t.dev) ∧
  (∀ (s : State) (p : Fin 4) (lvl : Bool) (at_ : Nat),
      s.dev.coreOn = true → (1 ≤ s.dev.f ⟨0x43000004 + 0x100 * p.val, 0, 3⟩ ∧ s.dev.f ⟨0x43000004 + 0x100 * p.val, 0, 3⟩ ≤ 3) →
      (s.dev.port p.val).ready = true → fltActive p.val lvl s.dev = true → (s.dev.port p.val).lastRefresh = none →
    ∃ t, exec (.faultInputAccept p lvl at_) s = .next t ∧
      t.dev.f ⟨0x43000004 + 0x100 * p.val, 0, 3⟩ = 4 ∧ t.dev.f ⟨0x43000004 + 0x100 * p.val, 4, 4⟩ = 3 ∧
      t.dev.f ⟨0x43000004 + 0x100 * p.val, 23, 1⟩ = 1 ∧ (t.dev.port p.val).phases = [] ∧ (t.dev.port p.val).ready = false ∧
      (∀ q : Fin 4, q ≠ p → t.dev.port q.val = s.dev.port q.val ∧ t.dev.f ⟨0x43000004 + 0x100 * q.val, 0, 3⟩ = s.dev.f ⟨0x43000004 + 0x100 * q.val, 0, 3⟩) ∧
      t.dev.isles = s.dev.isles) ∧
  (∀ (s : State) (p : Fin 4) (lvl : Bool) (at_ : Nat),
      s.dev.coreOn = true → s.dev.f ⟨0x43000004 + 0x100 * p.val, 0, 3⟩ = 1 → fltActive p.val lvl s.dev = false → portRun p.val s.dev = false →
    ∃ t, exec (.faultInputAccept p lvl at_) s = .next t ∧
      (t.dev.port p.val) = { (s.dev.port p.val) with ready := true } ∧ t.dev.f ⟨0x43000004 + 0x100 * p.val, 0, 3⟩ = 1 ∧
      (∀ q : Fin 4, q ≠ p → t.dev.port q.val = s.dev.port q.val ∧ t.dev.f ⟨0x43000004 + 0x100 * q.val, 0, 3⟩ = s.dev.f ⟨0x43000004 + 0x100 * q.val, 0, 3⟩)) ∧
  (∀ (s : State) (p : Fin 4) (elapsed : Nat),
      s.dev.coreOn = true → s.dev.f ⟨0x43000004 + 0x100 * p.val, 0, 3⟩ = 1 → (s.dev.port p.val).ready = false →
      s.dev.f ⟨0x43000020 + 0x100 * p.val, 0, 10⟩ ≤ elapsed →
    ∃ t, exec (.readyTimeout p elapsed) s = .next t ∧
      t.dev.f ⟨0x43000004 + 0x100 * p.val, 0, 3⟩ = 4 ∧ t.dev.f ⟨0x43000004 + 0x100 * p.val, 4, 4⟩ = 5 ∧
      t.dev.f ⟨0x43000004 + 0x100 * p.val, 23, 1⟩ = 1 ∧ (t.dev.port p.val).phases = [] ∧ (t.dev.port p.val).ready = false ∧
      (∀ q : Fin 4, q ≠ p → t.dev.port q.val = s.dev.port q.val ∧ t.dev.f ⟨0x43000004 + 0x100 * q.val, 0, 3⟩ = s.dev.f ⟨0x43000004 + 0x100 * q.val, 0, 3⟩) ∧
      t.dev.isles = s.dev.isles) ∧
  (∀ (s : State) (p : Fin 4) (elapsed : Nat),
      s.dev.coreOn = true →
      (s.dev.f ⟨0x43000004 + 0x100 * p.val, 0, 3⟩ ≠ 1 ∨ (s.dev.port p.val).ready = true ∨ elapsed < s.dev.f ⟨0x43000020 + 0x100 * p.val, 0, 10⟩) →
    ∃ t, exec (.readyTimeout p elapsed) s = .next t ∧
      Unmoved s.dev t.dev) ∧
  (∀ (s : State) (p : Fin 4) (elapsed : Nat),
      s.dev.coreOn = true → s.dev.f ⟨0x43000004 + 0x100 * p.val, 0, 3⟩ = 2 → s.dev.f ⟨0x43000014 + 0x100 * p.val, 18, 10⟩ ≤ elapsed →
    ∃ t, exec (.tBscExpiry p elapsed) s = .next t ∧
      (t.dev.port p.val) = { (s.dev.port p.val) with bscDone := true } ∧ t.dev.regs = s.dev.regs ∧
      (∀ q : Fin 4, q ≠ p → t.dev.port q.val = s.dev.port q.val ∧ t.dev.f ⟨0x43000004 + 0x100 * q.val, 0, 3⟩ = s.dev.f ⟨0x43000004 + 0x100 * q.val, 0, 3⟩)) ∧
  (∀ (s : State) (p : Fin 4) (elapsed n : Nat),
      s.dev.coreOn = true → s.dev.f ⟨0x43000004 + 0x100 * p.val, 0, 3⟩ = 4 → (s.dev.port p.val).toggle = 2 →
      s.dev.f ⟨0x43000020 + 0x100 * p.val, 10, 10⟩ ≤ elapsed → s.dev.mode = 4 → s.dev.f ⟨0x43000004 + 0x100 * p.val, 3, 1⟩ = 0 →
      s.dev.f ⟨0x43000000 + 0x100 * p.val, 0, 1⟩ = 1 → portIsle p.val s.dev = some n → (s.dev.isle n).istate ≠ 0 → portRun p.val s.dev = false →
      tripActive p.val 0 s.dev = false → tripActive p.val 1 s.dev = false →
    ∃ t, exec (.toggleComplete p elapsed) s = .next t ∧
      t.dev.f ⟨0x43000004 + 0x100 * p.val, 0, 3⟩ = 1 ∧ t.dev.f ⟨0x43000004 + 0x100 * p.val, 4, 4⟩ = 0 ∧ (t.dev.port p.val).toggle = 0 ∧
      t.dev.f ⟨0x43000048 + 0x100 * p.val, 24, 8⟩ = min (s.dev.f ⟨0x43000048 + 0x100 * p.val, 24, 8⟩ + 1) 255 ∧
      (∀ q : Fin 4, q ≠ p → t.dev.port q.val = s.dev.port q.val ∧ t.dev.f ⟨0x43000004 + 0x100 * q.val, 0, 3⟩ = s.dev.f ⟨0x43000004 + 0x100 * q.val, 0, 3⟩)) ∧
  (∀ (s : State) (p : Fin 4) (elapsed : Nat),
      s.dev.coreOn = true →
      ((s.dev.port p.val).toggle = 0 ∨ s.dev.f ⟨0x43000004 + 0x100 * p.val, 0, 3⟩ ≠ 4 ∨ elapsed < s.dev.f ⟨0x43000020 + 0x100 * p.val, 10, 10⟩) →
    ∃ t, exec (.toggleComplete p elapsed) s = .next t ∧
      Unmoved s.dev t.dev)

/-- Settings change only while the port is OFF; the latch takes the newest values handed before it; a reload point puts the latch and a measured
tap table in force; a refresh is forced at the valley with DUTY_CLAMP; the wake fills the isle's slot.
a refused setting leaves its register and sets CFG_REJ, the host command word is always taken; the latch event of a reload point leaves the
slot values handed before it and moves no pin; at the reload point the latched compares govern; a calibration that covers a count waits for
the reload point, one that cannot sets DL_ERR; the wake marks the slot of the tick VALID with zero channels; outside the port's own instants
nothing happens.
Rules: R409, R412, R419, R421, R428. -/
def Obligations.PortsLatchReloadAndRefresh : Prop :=
  (∀ (s : State) (p : Fin 4) (off : Fin 76) (v : Word),
      s.dev.coreOn = true → off.val ∈ [8, 0xC, 0x10, 0x14, 0x18, 0x1C, 0x20, 0x24, 0x28] → s.dev.f ⟨0x43000004 + 0x100 * p.val, 0, 3⟩ ≠ 0 →
    ∃ t, exec (.portSettingWrite p off v) s = .next t ∧
      t.dev.f ⟨0x43000004 + 0x100 * p.val, 22, 1⟩ = 1 ∧ OnlyRegs [0x43000004 + 0x100 * p.val] s.dev t.dev) ∧
  (∀ (s : State) (p : Fin 4) (off : Fin 76) (v : Word),
      s.dev.coreOn = true → off.val ∈ [8, 0xC, 0x10, 0x14, 0x18, 0x1C, 0x20, 0x24, 0x28] → s.dev.f ⟨0x43000004 + 0x100 * p.val, 0, 3⟩ = 0 →
      mpoLegal p.val off.val v s.dev = true →
    ∃ t, exec (.portSettingWrite p off v) s = .next t ∧
      t.dev = { s.dev.store (0x43000000 + 0x100 * p.val + off.val) v with out := [] }) ∧
  (∀ (s : State) (p : Fin 4) (v : Word),
      s.dev.coreOn = true →
    ∃ t, exec (.portSettingWrite p 0x2C v) s = .next t ∧
      t.dev.rd (0x4300002C + 0x100 * p.val) = v ∧ OnlyRegs [0x4300002C + 0x100 * p.val] s.dev t.dev) ∧
  (∀ (s : State) (p : Fin 4) (n at_ : Nat),
      s.dev.coreOn = true → portIsle p.val s.dev = some n → isReload p.val (((s.dev.tide.k * s.dev.tc + at_ : Nat) : Int) + 64) s.dev = true →
    ∃ t, exec (.latchEvent p at_) s = .next t ∧
      (t.dev.port p.val).vals = portSlots n (s.dev.tide.k * s.dev.tc + at_ : Nat) s.dev ∧ (t.dev.port p.val).phases = (s.dev.port p.val).phases ∧
      (t.dev.port p.val).cur = (s.dev.port p.val).cur ∧
      ((t.dev.port p.val).pend.map fun l => l.r) = some (((s.dev.tide.k * s.dev.tc + at_ : Nat) : Int) + 64) ∧ t.dev.isles = s.dev.isles ∧
      t.dev.f ⟨0x43000004 + 0x100 * p.val, 0, 3⟩ = s.dev.f ⟨0x43000004 + 0x100 * p.val, 0, 3⟩) ∧
  (∀ (s : State) (p : Fin 4) (at_ : Nat),
      s.dev.coreOn = true → (isReload p.val (((s.dev.tide.k * s.dev.tc + at_ : Nat) : Int) + 64) s.dev = false ∨ portIsle p.val s.dev = none) →
    ∃ t, exec (.latchEvent p at_) s = .next t ∧
      Unmoved s.dev t.dev) ∧
  (∀ (s : State) (p : Fin 4) (at_ : Nat) (l : Latch),
      s.dev.coreOn = true → isReload p.val (s.dev.tide.k * s.dev.tc + at_ : Nat) s.dev = true → (s.dev.port p.val).pend = some l →
      l.r = (s.dev.tide.k * s.dev.tc + at_ : Nat) →
      (s.dev.f ⟨0x43000004 + 0x100 * p.val, 0, 3⟩ = 4 ∨ s.dev.f ⟨0x43000004 + 0x100 * p.val, 0, 3⟩ = 0) →
    ∃ t, exec (.reloadPoint p at_) s = .next t ∧
      (t.dev.port p.val) = { (s.dev.port p.val) with tap := (s.dev.port p.val).tapPend.getD (s.dev.port p.val).tap, tapPend := none, cur := some l, pend := none } ∧
      t.dev.regs = s.dev.regs ∧
      (∀ q : Fin 4, q ≠ p → t.dev.port q.val = s.dev.port q.val ∧ t.dev.f ⟨0x43000004 + 0x100 * q.val, 0, 3⟩ = s.dev.f ⟨0x43000004 + 0x100 * q.val, 0, 3⟩)) ∧
  (∀ (s : State) (p : Fin 4) (at_ : Nat),
      s.dev.coreOn = true → isReload p.val (s.dev.tide.k * s.dev.tc + at_ : Nat) s.dev = true → s.dev.f ⟨0x43000004 + 0x100 * p.val, 0, 3⟩ = 2 →
      (s.dev.port p.val).bscDone = true →
    ∃ t, exec (.reloadPoint p at_) s = .next t ∧
      t.dev.f ⟨0x43000004 + 0x100 * p.val, 0, 3⟩ = 3 ∧
      (∀ q : Fin 4, q ≠ p → t.dev.port q.val = s.dev.port q.val ∧ t.dev.f ⟨0x43000004 + 0x100 * q.val, 0, 3⟩ = s.dev.f ⟨0x43000004 + 0x100 * q.val, 0, 3⟩) ∧
      t.dev.isles = s.dev.isles) ∧
  (∀ (s : State) (p : Fin 4) (at_ : Nat),
      s.dev.coreOn = true → isReload p.val (s.dev.tide.k * s.dev.tc + at_ : Nat) s.dev = false →
    ∃ t, exec (.reloadPoint p at_) s = .next t ∧
      Unmoved s.dev t.dev) ∧
  (∀ (s : State) (p : Fin 4) (x : Fin 3) (at_ : Nat),
      s.dev.coreOn = true → s.dev.f ⟨0x43000004 + 0x100 * p.val, 0, 3⟩ = 3 → s.dev.f ⟨0x43000000 + 0x100 * p.val, 5, 1⟩ = 1 →
      (((s.dev.tide.k * s.dev.tc + at_ : Nat) : Int) - s.dev.f ⟨0x4300000C + 0x100 * p.val, 0, 20⟩) % max (s.dev.f ⟨0x43000008 + 0x100 * p.val, 0, 20⟩ : Int) 2 = 0 →
      s.dev.f ⟨0x43000014 + 0x100 * p.val, 0, 8⟩ ≤ (bsAccount (s.dev.f ⟨0x4300000C + 0x100 * p.val, 0, 20⟩) (max (s.dev.f ⟨0x43000008 + 0x100 * p.val, 0, 20⟩) 2) (bsNeed p.val s.dev) (32 * (s.dev.tide.k * s.dev.tc + at_ : Nat)) (tget (fun _ => {}) (s.dev.port p.val).phases x.val)).periods →
    ∃ t, exec (.bootstrapRefresh p x at_) s = .next t ∧
      t.dev.f ⟨0x43000004 + 0x100 * p.val, 18, 1⟩ = 1 ∧
      t.dev.f ⟨0x43000044 + 0x100 * p.val, 8, 8⟩ = min (s.dev.f ⟨0x43000044 + 0x100 * p.val, 8, 8⟩ + 1) 255 ∧
      (t.dev.port p.val).lastRefresh = some ((s.dev.tide.k * s.dev.tc + at_ : Nat) : Int) ∧ (t.dev.port p.val).refreshed = true ∧
      (tget (fun _ => ({} : PhaseU)) (t.dev.port p.val).phases x.val).periods = 0 ∧
      (tget (fun _ => ({} : PhaseU)) (t.dev.port p.val).phases x.val).notchEnd = some (32 * ((s.dev.tide.k * s.dev.tc + at_ : Nat) : Int) + bsNeed p.val s.dev) ∧
      OnlyRegs [0x43000004 + 0x100 * p.val, 0x43000044 + 0x100 * p.val] s.dev { t.dev with ports := s.dev.ports }) ∧
  (∀ (s : State) (p : Fin 4) (x : Fin 3) (at_ : Nat),
      s.dev.coreOn = true → (s.dev.f ⟨0x43000004 + 0x100 * p.val, 0, 3⟩ ≠ 3 ∨ s.dev.f ⟨0x43000000 + 0x100 * p.val, 5, 1⟩ = 0) →
    ∃ t, exec (.bootstrapRefresh p x at_) s = .next t ∧
      Unmoved s.dev t.dev) ∧
  (∀ (s : State) (p : Fin 4) (span : Nat),
      s.dev.coreOn = true → 2500 ≤ span →
    ∃ t, exec (.delayLineCalibration p span) s = .next t ∧
      t.dev.f ⟨0x43000004 + 0x100 * p.val, 11, 1⟩ = 0 ∧ (t.dev.port p.val) = { (s.dev.port p.val) with tapPend := some span } ∧
      OnlyRegs [0x43000004 + 0x100 * p.val] s.dev { t.dev with ports := s.dev.ports } ∧
      (∀ q : Fin 4, q ≠ p → t.dev.port q.val = s.dev.port q.val ∧ t.dev.f ⟨0x43000004 + 0x100 * q.val, 0, 3⟩ = s.dev.f ⟨0x43000004 + 0x100 * q.val, 0, 3⟩)) ∧
  (∀ (s : State) (p : Fin 4) (span : Nat),
      s.dev.coreOn = true → span < 2500 →
    ∃ t, exec (.delayLineCalibration p span) s = .next t ∧
      t.dev.f ⟨0x43000004 + 0x100 * p.val, 11, 1⟩ = 1 ∧
      t.dev.f ⟨0x43000044 + 0x100 * p.val, 24, 8⟩ = min (s.dev.f ⟨0x43000044 + 0x100 * p.val, 24, 8⟩ + 1) 255 ∧
      OnlyRegs [0x43000004 + 0x100 * p.val, 0x43000044 + 0x100 * p.val] s.dev t.dev) ∧
  (∀ (s : State) (p : Fin 4) (n : Nat),
      s.dev.coreOn = true → portIsle p.val s.dev = some n →
    ∃ t, exec (.portWake p) s = .next t ∧
      (curSlot t.dev (t.dev.isle n)) = { valid := true, tick := s.dev.tide.k, smp := ⟨List.replicate 8 0, List.replicate 8 0, 0⟩, stamp := s.dev.f ⟨0x43000028 + 0x100 * p.val, 0, 15⟩ } ∧
      (t.dev.port p.val).inputs.getD 9 0 = s.dev.f ⟨0x43000004 + 0x100 * p.val, 0, 3⟩ ∧ (t.dev.port p.val).refreshed = false ∧ t.dev.regs = s.dev.regs) ∧
  (∀ (s : State) (p : Fin 4),
      s.dev.coreOn = true → portIsle p.val s.dev = none →
    ∃ t, exec (.portWake p) s = .next t ∧
      Unmoved s.dev t.dev)

/-- A counting edge moves position and accumulator by one within the soft limits; both contacts at once are a quadrature error; frames, index
events, SET and standstill act as their rules say.
an edge of the sequence counts one; both levels changed at once make no count, are counted as an error and clear REF_OK; an amplitude out of
its window for 4 samples sets AMP_ERR, 500 inside clear it; a cable fault and three bad frames latch and clear REF_OK until FLT_CLR; a frame
that fails its checks leaves the position; the first valid frame of SSI loads it; REF_ARM is pending until the index, which loads REF_VAL;
an index off by d takes d as pending or clears REF_OK; SET loads the position; a MODE accepted clears REF_OK and starts in standstill, one
refused only sets CFG_REJ; standstill makes the speed 0.
Rules: R437, R438, R449, R451, R452, R457. -/
def Obligations.ShaftsAreMeasured : Prop :=
  (∀ (s : State) (f : Fin 4) (a b : Bool) (at_ : Nat),
      s.dev.coreOn = true → (s.dev.f ⟨0x43100000 + 0x100 * f.val, 0, 3⟩ = 1 ∨ s.dev.f ⟨0x43100000 + 0x100 * f.val, 0, 3⟩ = 4) →
      (s.dev.enc f.val).a = false → (s.dev.enc f.val).b = false → a ≠ b → s.dev.f ⟨0x43100000 + 0x100 * f.val, 3, 1⟩ = 0 →
      (s.dev.rd (0x43100014 + 0x100 * f.val)).toInt < (s.dev.enc f.val).pos → (s.dev.enc f.val).pos < (s.dev.rd (0x43100018 + 0x100 * f.val)).toInt →
    ∃ t, exec (.quadEdge f a b at_) s = .next t ∧
      (t.dev.enc f.val).pos = (s.dev.enc f.val).pos + (if a then 1 else -1) ∧ (t.dev.enc f.val).a = a ∧ (t.dev.enc f.val).b = b ∧
      (t.dev.enc f.val).edges = min ((s.dev.enc f.val).edges + 1) 32767 ∧
      t.dev.f ⟨0x43100004 + 0x100 * f.val, 4, 1⟩ = s.dev.f ⟨0x43100004 + 0x100 * f.val, 4, 1⟩ ∧
      (∀ g : Fin 4, g ≠ f → t.dev.enc g.val = s.dev.enc g.val) ∧ t.dev.ports = s.dev.ports ∧ t.dev.saf = s.dev.saf) ∧
  (∀ (s : State) (f : Fin 4) (at_ : Nat),
      s.dev.coreOn = true → s.dev.f ⟨0x43100000 + 0x100 * f.val, 0, 3⟩ = 1 → s.dev.f ⟨0x43100000 + 0x100 * f.val, 3, 1⟩ = 0 →
      (s.dev.enc f.val).a = false → (s.dev.enc f.val).b = true → (s.dev.enc f.val).pos = (s.dev.rd (0x43100014 + 0x100 * f.val)).toInt →
    ∃ t, exec (.quadEdge f true true at_) s = .next t ∧
      (t.dev.enc f.val).pos = (s.dev.enc f.val).pos ∧ t.dev.f ⟨0x43100004 + 0x100 * f.val, 4, 1⟩ = 0 ∧
      t.dev.f ⟨0x43100074 + 0x100 * f.val, 0, 16⟩ = min (s.dev.f ⟨0x43100074 + 0x100 * f.val, 0, 16⟩ + 1) 65535) ∧
  (∀ (s : State) (f : Fin 4) (a b : Bool) (at_ : Nat),
      s.dev.coreOn = true → (s.dev.f ⟨0x43100000 + 0x100 * f.val, 0, 3⟩ = 1 ∨ s.dev.f ⟨0x43100000 + 0x100 * f.val, 0, 3⟩ = 4) →
      (s.dev.enc f.val).a ≠ a → (s.dev.enc f.val).b ≠ b →
    ∃ t, exec (.quadEdge f a b at_) s = .next t ∧
      (t.dev.enc f.val).pos = (s.dev.enc f.val).pos ∧ (t.dev.enc f.val).acc = (s.dev.enc f.val).acc ∧
      t.dev.f ⟨0x43100004 + 0x100 * f.val, 10, 1⟩ = 1 ∧
      t.dev.f ⟨0x43100070 + 0x100 * f.val, 0, 8⟩ = min (s.dev.f ⟨0x43100070 + 0x100 * f.val, 0, 8⟩ + 1) 255 ∧
      t.dev.f ⟨0x43100004 + 0x100 * f.val, 4, 1⟩ = 0 ∧ encValid f.val t.dev = false ∧ (∀ g : Fin 4, g ≠ f → t.dev.enc g.val = s.dev.enc g.val) ∧
      t.dev.ports = s.dev.ports ∧ t.dev.saf = s.dev.saf) ∧
  (∀ (s : State) (f : Fin 4) (sn cs : BitVec 16) (at_ : Nat),
      s.dev.coreOn = true → (s.dev.f ⟨0x43100000 + 0x100 * f.val, 0, 3⟩ = 2 ∨ s.dev.f ⟨0x43100000 + 0x100 * f.val, 0, 3⟩ = 5) →
      s.dev.domOn 11 = true → at_ % 800 = 0 → (s.dev.f ⟨0x43100004 + 0x100 * f.val, 11, 1⟩ = 1 ∨ s.dev.f ⟨0x43100004 + 0x100 * f.val, 12, 1⟩ = 1) →
    ∃ t, exec (.sincosSample f sn cs at_) s = .next t ∧
      (t.dev.enc f.val).phi = (if s.dev.f ⟨0x43100004 + 0x100 * f.val, 12, 1⟩ = 1 then none else (s.dev.enc f.val).phi) ∧
      (t.dev.enc f.val).pos = (s.dev.enc f.val).pos ∧ OnlyRegs [0x43100054 + 0x100 * f.val] s.dev { t.dev with encs := s.dev.encs } ∧
      (∀ g : Fin 4, g ≠ f → t.dev.enc g.val = s.dev.enc g.val)) ∧
  (∀ (s : State) (f : Fin 4) (sn cs : BitVec 16) (at_ φ : Nat),
      s.dev.coreOn = true → (s.dev.f ⟨0x43100000 + 0x100 * f.val, 0, 3⟩ = 2 ∨ s.dev.f ⟨0x43100000 + 0x100 * f.val, 0, 3⟩ = 5) →
      s.dev.domOn 11 = true → at_ % 800 = 0 → s.dev.f ⟨0x43100004 + 0x100 * f.val, 11, 1⟩ = 0 → s.dev.f ⟨0x43100004 + 0x100 * f.val, 12, 1⟩ = 0 →
      (s.dev.enc f.val).phi = none →
      φ = (encAngle (scCorrect (sn).toInt (s.dev.sf ⟨0x43100048 + 0x100 * f.val, 0, 16⟩) (s.dev.f ⟨0x4310004C + 0x100 * f.val, 0, 16⟩)) (scCorrect (cs).toInt (s.dev.sf ⟨0x43100048 + 0x100 * f.val, 16, 16⟩) (s.dev.f ⟨0x4310004C + 0x100 * f.val, 16, 16⟩))) →
    ∃ t, exec (.sincosSample f sn cs at_) s = .next t ∧
      (t.dev.enc f.val).phi = some φ ∧ (t.dev.enc f.val).quad = (s.dev.enc f.val).quad + quadStep (s.dev.enc f.val).quad ((φ / 1024 : Nat) : Int) ∧
      (t.dev.enc f.val).pos = (s.dev.enc f.val).pos ∧ (t.dev.enc f.val).acc = (s.dev.enc f.val).acc ∧
      OnlyRegs [0x43100054 + 0x100 * f.val] s.dev { t.dev with encs := s.dev.encs } ∧ (∀ g : Fin 4, g ≠ f → t.dev.enc g.val = s.dev.enc g.val)) ∧
  (∀ (s : State) (f : Fin 4) (sn cs : BitVec 16) (at_ φ p : Nat) (st dq n : Int),
      s.dev.coreOn = true → (s.dev.f ⟨0x43100000 + 0x100 * f.val, 0, 3⟩ = 2 ∨ s.dev.f ⟨0x43100000 + 0x100 * f.val, 0, 3⟩ = 5) →
      s.dev.domOn 11 = true → at_ % 800 = 0 → s.dev.f ⟨0x43100004 + 0x100 * f.val, 11, 1⟩ = 0 → s.dev.f ⟨0x43100004 + 0x100 * f.val, 12, 1⟩ = 0 →
      s.dev.f ⟨0x43100000 + 0x100 * f.val, 3, 1⟩ = 0 → (s.dev.enc f.val).phi = some p →
      φ = (encAngle (scCorrect (sn).toInt (s.dev.sf ⟨0x43100048 + 0x100 * f.val, 0, 16⟩) (s.dev.f ⟨0x4310004C + 0x100 * f.val, 0, 16⟩)) (scCorrect (cs).toInt (s.dev.sf ⟨0x43100048 + 0x100 * f.val, 16, 16⟩) (s.dev.f ⟨0x4310004C + 0x100 * f.val, 16, 16⟩))) →
      st = signed 12 ((φ + 4096 - p) % 4096) → dq = quadStep (s.dev.enc f.val).quad ((φ / 1024 : Nat) : Int) →
      n = (p + st) / 2 ^ (10 - min (s.dev.f ⟨0x43100050 + 0x100 * f.val, 16, 4⟩) 10) - (p : Int) / 2 ^ (10 - min (s.dev.f ⟨0x43100050 + 0x100 * f.val, 16, 4⟩) 10) →
    ∃ t, exec (.sincosSample f sn cs at_) s = .next t ∧
      (t.dev.enc f.val).phi = some φ ∧ (t.dev.enc f.val).quad = (s.dev.enc f.val).quad + dq ∧
      (dq = 2 ∨ 1024 < st.natAbs → t.dev.f ⟨0x43100004 + 0x100 * f.val, 10, 1⟩ = 1 ∧ t.dev.f ⟨0x43100004 + 0x100 * f.val, 4, 1⟩ = 0 ∧ (t.dev.enc f.val).pos = (s.dev.enc f.val).pos ∧ (t.dev.enc f.val).acc = (s.dev.enc f.val).acc) ∧
      (dq ≠ 2 → st.natAbs ≤ 1024 → t.dev.f ⟨0x43100004 + 0x100 * f.val, 10, 1⟩ = s.dev.f ⟨0x43100004 + 0x100 * f.val, 10, 1⟩ ∧ ((s.dev.rd (0x43100014 + 0x100 * f.val)).toInt ≤ (s.dev.enc f.val).pos + n → (s.dev.enc f.val).pos + n ≤ (s.dev.rd (0x43100018 + 0x100 * f.val)).toInt → (t.dev.enc f.val).pos = (s.dev.enc f.val).pos + n)) ∧
      (∀ g : Fin 4, g ≠ f → t.dev.enc g.val = s.dev.enc g.val) ∧ t.dev.ports = s.dev.ports ∧ t.dev.saf = s.dev.saf) ∧
  (∀ (s : State) (f : Fin 4) (sn cs : BitVec 16) (at_ : Nat),
      s.dev.coreOn = true →
      ((s.dev.f ⟨0x43100000 + 0x100 * f.val, 0, 3⟩ ≠ 2 ∧ s.dev.f ⟨0x43100000 + 0x100 * f.val, 0, 3⟩ ≠ 5) ∨ s.dev.domOn 11 = false ∨ at_ % 800 ≠ 0) →
    ∃ t, exec (.sincosSample f sn cs at_) s = .next t ∧
      Unmoved s.dev t.dev) ∧
  (∀ (s : State) (f : Fin 4),
      s.dev.coreOn = true → (s.dev.f ⟨0x43100000 + 0x100 * f.val, 0, 3⟩ = 2 ∨ s.dev.f ⟨0x43100000 + 0x100 * f.val, 0, 3⟩ = 5) →
      4 ≤ (s.dev.enc f.val).ampOut → s.dev.f ⟨0x43100004 + 0x100 * f.val, 11, 1⟩ = 0 →
    ∃ t, exec (.ampErr f) s = .next t ∧
      t.dev.f ⟨0x43100004 + 0x100 * f.val, 11, 1⟩ = 1 ∧
      t.dev.f ⟨0x43100074 + 0x100 * f.val, 16, 8⟩ = min (s.dev.f ⟨0x43100074 + 0x100 * f.val, 16, 8⟩ + 1) 255 ∧ encValid f.val t.dev = false ∧
      OnlyRegs [0x43100004 + 0x100 * f.val, 0x43100074 + 0x100 * f.val] s.dev t.dev) ∧
  (∀ (s : State) (f : Fin 4),
      s.dev.coreOn = true → 500 ≤ (s.dev.enc f.val).ampIn →
    ∃ t, exec (.ampErrClear f) s = .next t ∧
      t.dev.f ⟨0x43100004 + 0x100 * f.val, 11, 1⟩ = 0 ∧ OnlyRegs [0x43100004 + 0x100 * f.val] s.dev t.dev) ∧
  (∀ (s : State) (f : Fin 4) (elapsed : Nat),
      s.dev.coreOn = true → (s.dev.f ⟨0x43100000 + 0x100 * f.val, 0, 3⟩ = 1 ∨ s.dev.f ⟨0x43100000 + 0x100 * f.val, 0, 3⟩ = 4) → 400 ≤ elapsed →
      s.dev.f ⟨0x43100004 + 0x100 * f.val, 12, 1⟩ = 0 →
    ∃ t, exec (.cableFlt f elapsed) s = .next t ∧
      t.dev.f ⟨0x43100004 + 0x100 * f.val, 12, 1⟩ = 1 ∧ t.dev.f ⟨0x43100004 + 0x100 * f.val, 4, 1⟩ = 0 ∧ encValid f.val t.dev = false ∧
      (t.dev.enc f.val).pos = (s.dev.enc f.val).pos ∧
      t.dev.f ⟨0x43100074 + 0x100 * f.val, 24, 8⟩ = min (s.dev.f ⟨0x43100074 + 0x100 * f.val, 24, 8⟩ + 1) 255 ∧
      OnlyRegs [0x43100004 + 0x100 * f.val, 0x43100074 + 0x100 * f.val] s.dev t.dev) ∧
  (∀ (s : State) (f : Fin 4) (at_ : Nat),
      s.dev.coreOn = true → 3 ≤ s.dev.f ⟨0x43100000 + 0x100 * f.val, 0, 3⟩ → s.dev.f ⟨0x43100000 + 0x100 * f.val, 0, 3⟩ ≤ 5 →
      at_ + s.dev.f ⟨0x4310005C + 0x100 * f.val, 8, 16⟩ = s.dev.tc → 0 < s.dev.tc →
      (s.dev.tide.k + 1) % (s.dev.f ⟨0x4310005C + 0x100 * f.val, 0, 8⟩ + 1) = 0 →
    ∃ t, exec (.ssiFrameStart f at_) s = .next t ∧
      (t.dev.enc f.val) = { (s.dev.enc f.val) with ssi := some ⟨(s.dev.enc f.val).acc, (s.dev.enc f.val).pos, s.dev.tide.k + 1⟩ } ∧
      t.dev.out = [.ssiClock f.val (1 + s.dev.f ⟨0x43100058 + 0x100 * f.val, 0, 6⟩ + s.dev.f ⟨0x43100058 + 0x100 * f.val, 7, 1⟩ + s.dev.f ⟨0x43100058 + 0x100 * f.val, 8, 1⟩) (s.dev.f ⟨0x43100058 + 0x100 * f.val, 16, 7⟩)] ∧
      t.dev.regs = s.dev.regs ∧ (∀ g : Fin 4, g ≠ f → t.dev.enc g.val = s.dev.enc g.val)) ∧
  (∀ (s : State) (f : Fin 4) (st : SsiStart) (before low : Bool) (data : BitVec 32) (errBit parBit high : Bool),
      s.dev.coreOn = true → 3 ≤ s.dev.f ⟨0x43100000 + 0x100 * f.val, 0, 3⟩ → s.dev.f ⟨0x43100000 + 0x100 * f.val, 0, 3⟩ ≤ 5 →
      (s.dev.enc f.val).ssi = some st → (before = false ∨ low = false ∨ high = false) →
    ∃ t, exec (.ssiFrameEnd f before low data errBit parBit high) s = .next t ∧
      (t.dev.enc f.val).pos = (s.dev.enc f.val).pos ∧ (t.dev.enc f.val).speed = (s.dev.enc f.val).speed ∧ (t.dev.enc f.val).ssiGood = 0 ∧
      (t.dev.enc f.val).ssiBad = min ((s.dev.enc f.val).ssiBad + 1) 3 ∧ t.dev.f ⟨0x43100004 + 0x100 * f.val, 13, 1⟩ = 1 ∧
      t.dev.f ⟨0x43100070 + 0x100 * f.val, 24, 8⟩ = min (s.dev.f ⟨0x43100070 + 0x100 * f.val, 24, 8⟩ + 1) 255 ∧
      (∀ g : Fin 4, g ≠ f → t.dev.enc g.val = s.dev.enc g.val)) ∧
  (∀ (s : State) (f : Fin 4) (st : SsiStart) (data : BitVec 32) (errBit parBit : Bool),
      s.dev.coreOn = true → s.dev.f ⟨0x43100000 + 0x100 * f.val, 0, 3⟩ = 3 → (s.dev.enc f.val).ssi = some st → (s.dev.enc f.val).ssiLoad = true →
      s.dev.f ⟨0x43100004 + 0x100 * f.val, 14, 1⟩ = 0 → s.dev.f ⟨0x43100058 + 0x100 * f.val, 6, 3⟩ = 0 → s.dev.rd (0x43100064 + 0x100 * f.val) = 0 →
    ∃ t, exec (.ssiFrameEnd f true true data errBit parBit true) s = .next t ∧
      (t.dev.enc f.val).pos = signed 32 (data.toNat % 2 ^ s.dev.f ⟨0x43100058 + 0x100 * f.val, 0, 6⟩ % 2 ^ 32) ∧
      t.dev.f ⟨0x43100004 + 0x100 * f.val, 4, 1⟩ = 1 ∧ t.dev.f ⟨0x43100004 + 0x100 * f.val, 6, 1⟩ = 0 ∧ (t.dev.enc f.val).ssiLoad = false ∧
      t.dev.rd (0x43100060 + 0x100 * f.val) = BitVec.ofNat 32 (data.toNat % 2 ^ s.dev.f ⟨0x43100058 + 0x100 * f.val, 0, 6⟩) ∧
      (∀ g : Fin 4, g ≠ f → t.dev.enc g.val = s.dev.enc g.val)) ∧
  (∀ (s : State) (f : Fin 4),
      s.dev.coreOn = true → 3 ≤ (s.dev.enc f.val).ssiBad →
    ∃ t, exec (.ssiFlt f) s = .next t ∧
      t.dev.f ⟨0x43100004 + 0x100 * f.val, 14, 1⟩ = 1 ∧ t.dev.f ⟨0x43100004 + 0x100 * f.val, 4, 1⟩ = 0 ∧
      OnlyRegs [0x43100004 + 0x100 * f.val] s.dev t.dev) ∧
  (∀ (s : State) (f : Fin 4),
      s.dev.coreOn = true → (s.dev.enc f.val).ssiBad < 3 →
    ∃ t, exec (.ssiFlt f) s = .next t ∧
      Unmoved s.dev t.dev) ∧
  (∀ (s : State) (f : Fin 4) (z : Bool),
      s.dev.coreOn = true → s.dev.f ⟨0x43100000 + 0x100 * f.val, 0, 3⟩ = 1 → s.dev.f ⟨0x4310002C + 0x100 * f.val, 9, 2⟩ = 0 →
      s.dev.f ⟨0x43100004 + 0x100 * f.val, 6, 1⟩ = 1 → atIndex f.val s.dev = false →
      atIndex f.val (s.dev.modEnc f.val fun u => { u with z := z }) = true →
    ∃ t, exec (.indexEvent f z) s = .next t ∧
      (t.dev.enc f.val) = { (s.dev.enc f.val) with z := z, pos := (s.dev.rd (0x43100020 + 0x100 * f.val)).toInt, pIdx := some (s.dev.rd (0x43100020 + 0x100 * f.val)).toInt, pIdxNext := false, corr := none } ∧
      t.dev.f ⟨0x43100004 + 0x100 * f.val, 4, 1⟩ = 1 ∧ t.dev.f ⟨0x43100004 + 0x100 * f.val, 6, 1⟩ = 0 ∧
      t.dev.f ⟨0x43100004 + 0x100 * f.val, 8, 1⟩ = 0 ∧ (∀ g : Fin 4, g ≠ f → t.dev.enc g.val = s.dev.enc g.val)) ∧
  (∀ (s : State) (f : Fin 4) (z : Bool) (p e : Int),
      s.dev.coreOn = true → s.dev.f ⟨0x43100000 + 0x100 * f.val, 0, 3⟩ = 1 → s.dev.f ⟨0x4310002C + 0x100 * f.val, 9, 2⟩ = 0 →
      s.dev.f ⟨0x43100004 + 0x100 * f.val, 6, 1⟩ = 0 → s.dev.f ⟨0x43100004 + 0x100 * f.val, 4, 1⟩ = 1 → (s.dev.enc f.val).pIdxNext = false →
      (s.dev.enc f.val).pIdx = some p → s.dev.f ⟨0x4310001C + 0x100 * f.val, 0, 31⟩ ≠ 0 →
      e = (s.dev.enc f.val).pos - nearestIndex p (s.dev.f ⟨0x4310001C + 0x100 * f.val, 0, 31⟩) (s.dev.enc f.val).pos → e ≠ 0 →
      (s.dev.enc f.val).corr ≠ some e → s.dev.f ⟨0x4310002C + 0x100 * f.val, 8, 1⟩ = 1 → e.natAbs ≤ s.dev.f ⟨0x4310002C + 0x100 * f.val, 0, 8⟩ →
      atIndex f.val s.dev = false → atIndex f.val (s.dev.modEnc f.val fun u => { u with z := z }) = true →
    ∃ t, exec (.indexEvent f z) s = .next t ∧
      (t.dev.enc f.val) = { (s.dev.enc f.val) with z := z, corr := some e } ∧ t.dev.f ⟨0x43100004 + 0x100 * f.val, 8, 1⟩ = 1 ∧
      t.dev.f ⟨0x43100004 + 0x100 * f.val, 4, 1⟩ = 1 ∧
      t.dev.f ⟨0x43100070 + 0x100 * f.val, 8, 8⟩ = min (s.dev.f ⟨0x43100070 + 0x100 * f.val, 8, 8⟩ + 1) 255) ∧
  (∀ (s : State) (f : Fin 4),
      s.dev.coreOn = true → s.dev.f ⟨0x43100000 + 0x100 * f.val, 0, 3⟩ = 1 →
    ∃ t, exec (.refArm f) s = .next t ∧
      t.dev.f ⟨0x43100004 + 0x100 * f.val, 6, 1⟩ = 1 ∧ (t.dev.enc f.val) = (s.dev.enc f.val) ∧
      OnlyRegs [0x43100004 + 0x100 * f.val] s.dev { t.dev with encs := s.dev.encs }) ∧
  (∀ (s : State) (f : Fin 4),
      s.dev.coreOn = true →
    ∃ t, exec (.set f) s = .next t ∧
      (t.dev.enc f.val) = { (s.dev.enc f.val) with pos := (s.dev.rd (0x43100010 + 0x100 * f.val)).toInt, corr := none, pIdxNext := true } ∧
      t.dev.f ⟨0x43100004 + 0x100 * f.val, 4, 1⟩ = 1 ∧ t.dev.f ⟨0x43100004 + 0x100 * f.val, 9, 1⟩ = 1 ∧
      (∀ g : Fin 4, g ≠ f → t.dev.enc g.val = s.dev.enc g.val) ∧ OnlyRegs [0x43100004 + 0x100 * f.val] s.dev { t.dev with encs := s.dev.encs }) ∧
  (∀ (s : State) (f : Fin 4),
      s.dev.coreOn = true → s.dev.f ⟨0x43100000 + 0x100 * f.val, 0, 3⟩ = 1 →
    ∃ t, exec (.encFltClr f false) s = .next t ∧
      t.dev.f ⟨0x43100004 + 0x100 * f.val, 12, 1⟩ = 0 ∧ t.dev.f ⟨0x43100004 + 0x100 * f.val, 14, 1⟩ = 0 ∧
      (t.dev.enc f.val).pos = (s.dev.enc f.val).pos ∧ OnlyRegs [0x43100004 + 0x100 * f.val] s.dev { t.dev with encs := s.dev.encs }) ∧
  (∀ (s : State) (f : Fin 4),
      s.dev.coreOn = true → s.dev.f ⟨0x43100000 + 0x100 * f.val, 0, 3⟩ = 1 → s.dev.f ⟨0x43100004 + 0x100 * f.val, 12, 1⟩ = 1 →
    ∃ t, exec (.encFltClr f true) s = .next t ∧
      t.dev.f ⟨0x43100004 + 0x100 * f.val, 12, 1⟩ = 1) ∧
  (∀ (s : State) (f : Fin 4) (m : Fin 8),
      s.dev.coreOn = true → m.val ≤ 5 → encIdle f.val s.dev = true → encModeLocked f.val m.val s.dev = false →
    ∃ t, exec (.encModeWrite f m) s = .next t ∧
      t.dev.f ⟨0x43100000 + 0x100 * f.val, 0, 3⟩ = m.val ∧ t.dev.f ⟨0x43100004 + 0x100 * f.val, 4, 1⟩ = 0 ∧
      t.dev.f ⟨0x43100004 + 0x100 * f.val, 2, 1⟩ = 1 ∧ (t.dev.enc f.val).hist = [] ∧ (t.dev.enc f.val).speed = 0 ∧
      (t.dev.enc f.val).pos = (s.dev.enc f.val).pos ∧ (∀ g : Fin 4, g ≠ f → t.dev.enc g.val = s.dev.enc g.val)) ∧
  (∀ (s : State) (f : Fin 4) (m : Fin 8),
      s.dev.coreOn = true → (5 < m.val ∨ encIdle f.val s.dev = false ∨ encModeLocked f.val m.val s.dev = true) →
    ∃ t, exec (.encModeWrite f m) s = .next t ∧
      t.dev.f ⟨0x43100004 + 0x100 * f.val, 16, 1⟩ = 1 ∧ OnlyRegs [0x43100004 + 0x100 * f.val] s.dev t.dev) ∧
  (∀ (s : State) (f : Fin 4) (at_ t0 : Nat),
      s.dev.coreOn = true → (s.dev.enc f.val).lastT = some t0 → s.dev.f ⟨0x43100004 + 0x100 * f.val, 2, 1⟩ = 0 →
      t0 + 400000 * s.dev.f ⟨0x43100034 + 0x100 * f.val, 0, 10⟩ ≤ s.dev.tide.abs + at_ →
    ∃ t, exec (.standstill f at_) s = .next t ∧
      (t.dev.enc f.val) = { (s.dev.enc f.val) with lastT := none, period := none, speed := 0, ssiSpeed := 0 } ∧
      t.dev.f ⟨0x43100004 + 0x100 * f.val, 2, 1⟩ = 1 ∧ t.dev.f ⟨0x43100004 + 0x100 * f.val, 3, 1⟩ = 0 ∧
      (∀ g : Fin 4, g ≠ f → t.dev.enc g.val = s.dev.enc g.val)) ∧
  (∀ (s : State) (f : Fin 4) (at_ t0 : Nat),
      s.dev.coreOn = true → (s.dev.enc f.val).lastT = some t0 → s.dev.tide.abs + at_ < t0 + 400000 * s.dev.f ⟨0x43100034 + 0x100 * f.val, 0, 10⟩ →
    ∃ t, exec (.standstill f at_) s = .next t ∧
      Unmoved s.dev t.dev)

/-- A sequence starts for the next tick with the settings that stand; conversions add up and their mean is the code; a timeout skips its
converter; calibration averages 64 sequences.
the start takes the settings and clears every slot's sum; the last conversion of a slot gives its rounded mean; a timeout leaves the slot
without a code, skips the converter and latches CONV_FLT at the third in a row; STALE is set at AGE_LIM; a calibration command on a slot
that is not locked begins one, on a locked slot it sets CAL_REJ; the zero calibration done sets Z, or CAL_ERR beyond 4,096; 256 ticks
without 64 sequences end it; FLT_CLR clears the converter named; REF_SEL 3 is refused; a settled reference that leaves its window sets
REF_ERR.
Rules: R470, R472, R476, R478, R481. -/
def Obligations.TheStationAdcMeasures : Prop :=
  (∀ (s : State) (at_ : Nat),
      s.dev.coreOn = true → s.dev.f ⟨0x43200004, 7, 1⟩ = 0 → s.dev.adc.running = false → at_ + s.dev.f ⟨0x43200008, 0, 16⟩ = s.dev.tc →
    ∃ t, exec (.sequenceStart at_) s = .next t ∧
      t.dev.adc.running = true ∧ t.dev.adc.tick = s.dev.tide.k + 1 ∧ t.dev.adc.skip0 = false ∧ t.dev.adc.skip1 = false ∧
      (∀ n : Fin 32, (t.dev.slot n.val).sum = 0 ∧ (t.dev.slot n.val).n = 0 ∧ (t.dev.slot n.val).x = none) ∧
      (∀ a, 0x43200000 ≤ a → a < 0x43210000 → t.dev.adcCfg a = s.dev.rd a) ∧ RegsKept [0x43200004] s.dev t.dev) ∧
  (∀ (s : State) (at_ : Nat),
      s.dev.coreOn = true → (s.dev.f ⟨0x43200004, 7, 1⟩ = 1 ∨ at_ + s.dev.f ⟨0x43200008, 0, 16⟩ ≠ s.dev.tc) →
    ∃ t, exec (.sequenceStart at_) s = .next t ∧
      Unmoved s.dev t.dev) ∧
  (∀ (s : State) (n : Fin 32) (code : BitVec 16),
      s.dev.coreOn = true → s.dev.adc.running = true → s.dev.domOn 11 = true → s.dev.slotOn n.val = true →
      (if n.val < 16 then s.dev.adc.skip0 else s.dev.adc.skip1) = false → (s.dev.slot n.val).n + 1 = 2 ^ s.dev.scfg n.val 0 8 3 →
      s.dev.scfg n.val 0 5 1 = 0 →
    ∃ t, exec (.conversionEnd n code) s = .next t ∧
      (t.dev.slot n.val).x = some (((s.dev.slot n.val).sum + code.toNat + (2 ^ s.dev.scfg n.val 0 8 3 / 2 : Nat)) / (2 ^ s.dev.scfg n.val 0 8 3 : Nat)) ∧
      (t.dev.slot n.val).n = (s.dev.slot n.val).n + 1 ∧ OnlyRegs [0x43200114 + 0x20 * n.val] s.dev { t.dev with adc := s.dev.adc } ∧
      (∀ m : Fin 32, m ≠ n → t.dev.slot m.val = s.dev.slot m.val)) ∧
  (∀ (s : State) (n : Fin 32) (code : BitVec 16),
      s.dev.coreOn = true → s.dev.adc.running = true → s.dev.domOn 11 = true → s.dev.slotOn n.val = true →
      (if n.val < 16 then s.dev.adc.skip0 else s.dev.adc.skip1) = false → (s.dev.slot n.val).n + 1 < 2 ^ s.dev.scfg n.val 0 8 3 →
      s.dev.scfg n.val 0 5 1 = 1 →
    ∃ t, exec (.conversionEnd n code) s = .next t ∧
      (t.dev.slot n.val).sum = (s.dev.slot n.val).sum + code.toInt ∧ (t.dev.slot n.val).n = (s.dev.slot n.val).n + 1 ∧
      (t.dev.slot n.val).x = (s.dev.slot n.val).x ∧ t.dev.regs = s.dev.regs ∧ (∀ m : Fin 32, m ≠ n → t.dev.slot m.val = s.dev.slot m.val)) ∧
  (∀ (s : State) (n : Fin 32) (code : BitVec 16),
      s.dev.coreOn = true → (s.dev.adc.running = false ∨ s.dev.domOn 11 = false ∨ s.dev.slotOn n.val = false) →
    ∃ t, exec (.conversionEnd n code) s = .next t ∧
      Unmoved s.dev t.dev) ∧
  (∀ (s : State) (n : Fin 32) (at_ : Nat),
      s.dev.coreOn = true → s.dev.adc.running = true → s.dev.domOn 11 = true → s.dev.slotOn n.val = true →
      (if n.val < 16 then s.dev.adc.skip0 else s.dev.adc.skip1) = false → conversionDue n s.dev + 40 ≤ at_ →
    ∃ t, exec (.conversionTimeout n at_) s = .next t ∧
      (t.dev.slot n.val).x = none ∧ (if n.val < 16 then t.dev.adc.skip0 else t.dev.adc.skip1) = true ∧ t.dev.f ⟨0x43200004, 4, 1⟩ = 1 ∧
      t.dev.f ⟨0x43200014, 8 * (n.val / 16), 8⟩ = min (s.dev.f ⟨0x43200014, 8 * (n.val / 16), 8⟩ + 1) 255 ∧
      (2 ≤ (if n.val < 16 then s.dev.adc.tmo0 else s.dev.adc.tmo1) → t.dev.f ⟨0x43200004, 2 + n.val / 16, 1⟩ = 1) ∧
      ((if n.val < 16 then s.dev.adc.tmo0 else s.dev.adc.tmo1) < 2 → t.dev.f ⟨0x43200004, 2 + n.val / 16, 1⟩ = s.dev.f ⟨0x43200004, 2 + n.val / 16, 1⟩) ∧
      (∀ m : Fin 32, m ≠ n → t.dev.slot m.val = s.dev.slot m.val) ∧ RegsKept [0x43200004, 0x43200014] s.dev t.dev) ∧
  (∀ (s : State) (n : Fin 32),
      s.dev.coreOn = true → s.dev.f ⟨0x43200008, 24, 8⟩ ≤ s.dev.f ⟨0x43200118 + 0x20 * n.val, 16, 8⟩ →
      s.dev.f ⟨0x43200118 + 0x20 * n.val, 24, 1⟩ = 1 → s.dev.f ⟨0x43200118 + 0x20 * n.val, 25, 1⟩ = 0 →
    ∃ t, exec (.adcStale n) s = .next t ∧
      t.dev.f ⟨0x43200118 + 0x20 * n.val, 25, 1⟩ = 1 ∧ t.dev.f ⟨0x43200004, 6, 1⟩ = 1 ∧ OnlyRegs [0x43200118 + 0x20 * n.val, 0x43200004] s.dev t.dev) ∧
  (∀ (s : State) (n : Fin 32),
      s.dev.coreOn = true →
      (s.dev.f ⟨0x43200118 + 0x20 * n.val, 16, 8⟩ < s.dev.f ⟨0x43200008, 24, 8⟩ ∨ s.dev.f ⟨0x43200118 + 0x20 * n.val, 24, 1⟩ = 0) →
    ∃ t, exec (.adcStale n) s = .next t ∧
      Unmoved s.dev t.dev) ∧
  (∀ (s : State) (n : Fin 32),
      s.dev.coreOn = true → adcLocked s.dev n.val = false →
    ∃ t, exec (.calZero n) s = .next t ∧
      (t.dev.slot n.val).cal = some { fs := false, vfs := 0 } ∧ t.dev.f ⟨0x4320011C + 0x20 * n.val, 3, 1⟩ = 1 ∧
      t.dev.f ⟨0x43200118 + 0x20 * n.val, 27, 1⟩ = 1 ∧ t.dev.f ⟨0x43200118 + 0x20 * n.val, 0, 16⟩ = s.dev.f ⟨0x43200118 + 0x20 * n.val, 0, 16⟩ ∧
      (∀ m : Fin 32, m ≠ n → t.dev.slot m.val = s.dev.slot m.val)) ∧
  (∀ (s : State) (n : Fin 32) (vfs : BitVec 16),
      s.dev.coreOn = true → adcLocked s.dev n.val = false →
    ∃ t, exec (.calFs n vfs) s = .next t ∧
      (t.dev.slot n.val).cal = some { fs := true, vfs := vfs.toInt } ∧ t.dev.f ⟨0x4320011C + 0x20 * n.val, 16, 16⟩ = vfs.toNat ∧
      t.dev.f ⟨0x4320011C + 0x20 * n.val, 3, 1⟩ = 1 ∧ (∀ m : Fin 32, m ≠ n → t.dev.slot m.val = s.dev.slot m.val)) ∧
  (∀ (s : State) (n : Fin 32),
      s.dev.coreOn = true → adcLocked s.dev n.val = true →
    ∃ t, exec (.calZero n) s = .next t ∧
      t.dev.f ⟨0x43200004, 9, 1⟩ = 1 ∧ OnlyRegs [0x43200004] s.dev t.dev) ∧
  (∀ (s : State) (n : Fin 32),
      s.dev.coreOn = true → adcLocked s.dev n.val = false →
    ∃ t, exec (.calAbort n) s = .next t ∧
      (t.dev.slot n.val) = { (s.dev.slot n.val) with cal := none } ∧ t.dev.f ⟨0x4320011C + 0x20 * n.val, 3, 1⟩ = 0 ∧
      t.dev.f ⟨0x43200118 + 0x20 * n.val, 27, 1⟩ = 0 ∧
      OnlyRegs [0x43200118 + 0x20 * n.val, 0x4320011C + 0x20 * n.val] s.dev { t.dev with adc := s.dev.adc }) ∧
  (∀ (s : State) (n : Fin 32) (c : CalU),
      s.dev.coreOn = true → (s.dev.slot n.val).cal = some c → 64 ≤ c.cnt → c.fs = false → ((c.sum + 32) / 64).natAbs ≤ 4096 → s.dev.mode = 1 →
    ∃ t, exec (.calDone n) s = .next t ∧
      t.dev.f ⟨0x4320010C + 0x20 * n.val, 0, 17⟩ = unsigned 17 ((c.sum + 32) / 64) ∧ t.dev.f ⟨0x4320011C + 0x20 * n.val, 5, 1⟩ = 1 ∧
      t.dev.f ⟨0x4320011C + 0x20 * n.val, 3, 1⟩ = 0 ∧ (t.dev.slot n.val).cal = none) ∧
  (∀ (s : State) (n : Fin 32) (c : CalU),
      s.dev.coreOn = true → (s.dev.slot n.val).cal = some c → 64 ≤ c.cnt → c.fs = false → 4096 < ((c.sum + 32) / 64).natAbs →
    ∃ t, exec (.calDone n) s = .next t ∧
      t.dev.f ⟨0x4320010C + 0x20 * n.val, 0, 17⟩ = s.dev.f ⟨0x4320010C + 0x20 * n.val, 0, 17⟩ ∧ t.dev.f ⟨0x4320011C + 0x20 * n.val, 4, 1⟩ = 1 ∧
      (t.dev.slot n.val).cal = none) ∧
  (∀ (s : State) (n : Fin 32) (c : CalU),
      s.dev.coreOn = true → (s.dev.slot n.val).cal = some c → c.cnt < 64 →
    ∃ t, exec (.calDone n) s = .next t ∧
      Unmoved s.dev t.dev) ∧
  (∀ (s : State) (n : Fin 32) (c : CalU),
      s.dev.coreOn = true → (s.dev.slot n.val).cal = some c → 256 ≤ c.ticks → c.cnt < 64 →
    ∃ t, exec (.calTimeout n) s = .next t ∧
      (t.dev.slot n.val).cal = none ∧ t.dev.f ⟨0x4320011C + 0x20 * n.val, 4, 1⟩ = 1 ∧
      t.dev.f ⟨0x4320010C + 0x20 * n.val, 0, 17⟩ = s.dev.f ⟨0x4320010C + 0x20 * n.val, 0, 17⟩ ∧
      t.dev.f ⟨0x43200110 + 0x20 * n.val, 0, 20⟩ = s.dev.f ⟨0x43200110 + 0x20 * n.val, 0, 20⟩ ∧
      (∀ m : Fin 32, m ≠ n → t.dev.slot m.val = s.dev.slot m.val)) ∧
  (∀ (s : State) (c0 c1 : Bool),
      s.dev.coreOn = true →
    ∃ t, exec (.adcFltClr c0 c1) s = .next t ∧
      t.dev.f ⟨0x43200004, 2, 1⟩ = (if c0 then 0 else s.dev.f ⟨0x43200004, 2, 1⟩) ∧
      t.dev.f ⟨0x43200004, 3, 1⟩ = (if c1 then 0 else s.dev.f ⟨0x43200004, 3, 1⟩) ∧
      t.dev.adc = { s.dev.adc with tmo0 := if c0 then 0 else s.dev.adc.tmo0, tmo1 := if c1 then 0 else s.dev.adc.tmo1 } ∧
      RegsKept [0x43200004] s.dev t.dev) ∧
  (∀ (s : State) (v : Fin 4),
      s.dev.coreOn = true → v.val ≠ 3 → adcDuration s.dev ≤ s.dev.f ⟨0x43200008, 0, 16⟩ → s.dev.f ⟨0x43200000, 0, 2⟩ ≠ v.val →
    ∃ t, exec (.refSelWrite v) s = .next t ∧
      t.dev.f ⟨0x43200000, 0, 2⟩ = v.val ∧ t.dev.adc = s.dev.adc ∧ t.dev.f ⟨0x43200004, 0, 1⟩ = s.dev.f ⟨0x43200004, 0, 1⟩) ∧
  (∀ (s : State),
      s.dev.coreOn = true → adcDuration s.dev ≤ s.dev.f ⟨0x43200008, 0, 16⟩ →
    ∃ t, exec (.refSelWrite 3) s = .next t ∧
      t.dev.f ⟨0x43200000, 0, 2⟩ = s.dev.f ⟨0x43200000, 0, 2⟩ ∧ t.dev.f ⟨0x43200004, 8, 1⟩ = 1) ∧
  (∀ (s : State) (elapsed : Nat),
      s.dev.coreOn = true → s.dev.domOn 11 = true → 400000 ≤ elapsed →
    ∃ t, exec (.refSettled elapsed) s = .next t ∧
      t.dev.f ⟨0x43200004, 0, 1⟩ = 1 ∧ OnlyRegs [0x43200004] s.dev t.dev) ∧
  (∀ (s : State),
      s.dev.coreOn = true → s.dev.f ⟨0x43200004, 0, 1⟩ = 1 →
    ∃ t, exec .refErr s = .next t ∧
      t.dev.f ⟨0x43200004, 0, 1⟩ = 0 ∧ t.dev.f ⟨0x43200004, 1, 1⟩ = 1 ∧ t.dev.f ⟨0x43200014, 24, 8⟩ = min (s.dev.f ⟨0x43200014, 24, 8⟩ + 1) 255 ∧
      OnlyRegs [0x43200004, 0x43200014] s.dev t.dev) ∧
  (∀ (s : State),
      s.dev.coreOn = true → s.dev.f ⟨0x43200004, 0, 1⟩ = 0 →
    ∃ t, exec .refErr s = .next t ∧
      Unmoved s.dev t.dev)

/-- A session message is answered only if its tag is valid and its sequence new; what it asks is done once; transactions apply together at their
commit.
SESSION_OPEN under the right tag adds a session with an ID no other has, a ninth is refused; a bad tag or an old sequence gets no answer and
is counted; KEEPALIVE gives the tick time, SESSION_CLOSE ends session and transaction, READ gives the mode, WRITE stores the host command of
port 0 and is journalled; TX_OPEN gives the next ID, TX_WRITE buffers without effect, TX_COMMIT applies, TX_ABORT discards; a request whose
ID is held gets its response again and changes nothing; idle time, transaction timeout, part timeout, remote timeout, lockout and its expiry
act as their rules say.
Rules: R498, R501, R502, R505, R506, R507, R508. -/
def Obligations.SessionsCarryRequests : Prop :=
  (∀ (s : State) (m : HbMsg) (at_ : Nat),
      s.dev.coreOn = true → ethUp s.dev = true → lenOk m = true → s.dev.host.bans.contains m.ip = false → m.session = 0 → m.body.length = 20 →
      tagOk (keyInForce s.dev) 1 m = true → ((keyInForce s.dev).all (· = 0) = false ∨ s.dev.mode = 2) → s.dev.host.sessions.length < 8 →
    ∃ t, exec (.sessionOpen m at_) s = .next t ∧
      (∃ x : Session, t.dev.host.sessions = s.dev.host.sessions ++ [x] ∧ x.ip = m.ip ∧ x.client = leAt m.body 16 4 ∧ x.last = 0 ∧ ∀ y ∈ s.dev.host.sessions, y.id ≠ x.id) ∧
      t.dev.regs = s.dev.regs ∧ t.dev.strings = s.dev.strings ∧ t.dev.isles = s.dev.isles) ∧
  (∀ (s : State) (m : HbMsg) (at_ : Nat),
      s.dev.coreOn = true → ethUp s.dev = true → lenOk m = true → s.dev.host.bans.contains m.ip = false → m.session = 0 → m.body.length = 20 →
      tagOk (keyInForce s.dev) 1 m = true → (keyInForce s.dev).all (· = 0) = true → s.dev.mode ≠ 2 →
    ∃ t, exec (.sessionOpen m at_) s = .next t ∧
      t.dev.host.sessions = s.dev.host.sessions ∧
      t.dev.out = [.harbour m.ip 47130 (hbMessage (keyInForce s.dev) 1 0 0 m.req 0 7 (leBytes 4 0x0A100001 ++ List.replicate 16 0 ++ leBytes 4 0 ++ leBytes 2 0 ++ leBytes 2 0))]) ∧
  (∀ (s : State) (x : Session) (m : HbMsg) (at_ : Nat),
      s.dev.coreOn = true → ethUp s.dev = true → lenOk m = true → sessionOf m.session s.dev = some x → tagOk x.key 3 m = false →
    ∃ t, exec (.keepalive m at_) s = .next t ∧
      t.dev.out = [] ∧ t.dev.host.sessions = s.dev.host.sessions ∧ t.dev.f ⟨0x46000004, 2, 1⟩ = 1 ∧
      t.dev.f ⟨0x4600001C, 0, 8⟩ = min (s.dev.f ⟨0x4600001C, 0, 8⟩ + 1) 255 ∧ t.dev.strings = s.dev.strings ∧ t.dev.isles = s.dev.isles) ∧
  (∀ (s : State) (x : Session) (m : HbMsg) (at_ : Nat),
      s.dev.coreOn = true → ethUp s.dev = true → lenOk m = true → sessionOf m.session s.dev = some x → tagOk x.key 3 m = true → m.seq ≤ x.last →
    ∃ t, exec (.keepalive m at_) s = .next t ∧
      t.dev.out = [] ∧ t.dev.host = s.dev.host ∧ t.dev.f ⟨0x46000004, 3, 1⟩ = 1 ∧
      t.dev.f ⟨0x4600001C, 8, 8⟩ = min (s.dev.f ⟨0x4600001C, 8, 8⟩ + 1) 255 ∧ t.dev.strings = s.dev.strings ∧ t.dev.isles = s.dev.isles) ∧
  (∀ (s : State) (x : Session) (m : HbMsg) (at_ : Nat),
      s.dev.coreOn = true → ethUp s.dev = true → lenOk m = true → sessionOf m.session s.dev = some x → tagOk x.key 3 m = true → x.last < m.seq →
      x.kept = [] → x.part = none → underWay x m.req s.dev = false → m.first = true → m.last = true → m.target = 0 → s.dev.pow.after = 0 →
    ∃ t, exec (.keepalive m at_) s = .next t ∧
      t.dev.out = [.harbour x.ip 47130 (hbMessage x.key 3 m.session (x.sent + 1) m.req m.tx 7 (leBytes 4 0 ++ leBytes 8 s.dev.tide.time))] ∧
      (sessionOf m.session t.dev).map (·.last) = some m.seq ∧ t.dev.regs = s.dev.regs ∧ t.dev.strings = s.dev.strings ∧ t.dev.isles = s.dev.isles) ∧
  (∀ (s : State) (x : Session) (m : HbMsg) (at_ : Nat),
      s.dev.coreOn = true → ethUp s.dev = true → lenOk m = true → sessionOf m.session s.dev = some x → tagOk x.key 2 m = true → x.last < m.seq →
      x.kept = [] → x.part = none → underWay x m.req s.dev = false → m.first = true → m.last = true → m.target = 0 → s.dev.pow.after = 0 →
    ∃ t, exec (.sessionClose m at_) s = .next t ∧
      t.dev.out = [.harbour x.ip 47130 (hbMessage x.key 2 m.session (x.sent + 1) m.req m.tx 7 (leBytes 4 0))] ∧ sessionOf m.session t.dev = none ∧
      (∀ u ∈ t.dev.host.txs, u.session ≠ m.session) ∧ t.dev.regs = s.dev.regs) ∧
  (∀ (s : State) (x : Session) (m : HbMsg) (at_ : Nat),
      s.dev.coreOn = true → ethUp s.dev = true → lenOk m = true → sessionOf m.session s.dev = some x → tagOk x.key 0x10 m = true → x.last < m.seq →
      x.kept = [] → x.part = none → underWay x m.req s.dev = false → m.first = true → m.last = true → m.target = 0 → s.dev.pow.after = 0 →
      m.body = entBytes 0x2000 1 2 [] →
    ∃ t, exec (.read m at_) s = .next t ∧
      t.dev.out = [.harbour x.ip 47130 (hbMessage x.key 0x10 m.session (x.sent + 1) m.req m.tx 7 (leBytes 4 0 ++ entBytes 0x2000 1 2 (leBytes 1 s.dev.mode)))] ∧
      t.dev.regs = s.dev.regs ∧ t.dev.jrn = { s.dev.jrn with at_ := t.dev.jrn.at_ }) ∧
  (∀ (s : State) (x : Session) (m : HbMsg) (at_ : Nat) (v : Word),
      s.dev.coreOn = true → ethUp s.dev = true → lenOk m = true → sessionOf m.session s.dev = some x → tagOk x.key 0x11 m = true → x.last < m.seq →
      x.kept = [] → x.part = none → underWay x m.req s.dev = false → m.first = true → m.last = true → m.target = 0 → s.dev.pow.after = 0 →
      s.dev.red.paired = false → m.body = entBytes 0x5300 9 4 (leBytes 4 v.toNat) →
    ∃ t, exec (.write m at_) s = .next t ∧
      t.dev.out = [.harbour x.ip 47130 (hbMessage x.key 0x11 m.session (x.sent + 1) m.req m.tx 7 (leBytes 4 0))] ∧ t.dev.rd 0x4300002C = v ∧
      t.dev.jrn.seq = s.dev.jrn.seq + 1 ∧ (t.dev.jslot (s.dev.jrn.seq + 1)).st = 1 ∧ (t.dev.jslot (s.dev.jrn.seq + 1)).result = 0) ∧
  (∀ (s : State) (x : Session) (m : HbMsg) (at_ : Nat),
      s.dev.coreOn = true → ethUp s.dev = true → lenOk m = true → sessionOf m.session s.dev = some x → tagOk x.key 0x11 m = true → x.last < m.seq →
      x.kept = [] → x.part = none → underWay x m.req s.dev = false → m.first = true → m.last = true → m.target = 0 → s.dev.pow.after = 0 →
      s.dev.red.paired = false → m.body = entBytes 0x7000 1 4 (leBytes 4 0) →
    ∃ t, exec (.write m at_) s = .next t ∧
      t.dev.out = [.harbour x.ip 47130 (hbMessage x.key 0x11 m.session (x.sent + 1) m.req m.tx 7 (leBytes 4 0x06020000))] ∧
      (t.dev.jslot (s.dev.jrn.seq + 1)).result = 0x06020000 ∧ t.dev.ports = s.dev.ports ∧ t.dev.strings = s.dev.strings ∧ t.dev.isles = s.dev.isles) ∧
  (∀ (s : State) (x : Session) (m : HbMsg) (at_ : Nat) (k : Kept),
      s.dev.coreOn = true → ethUp s.dev = true → lenOk m = true → sessionOf m.session s.dev = some x → tagOk x.key 0x11 m = true → x.last < m.seq →
      x.kept = [k] → k.req = m.req → s.dev.tide.abs + at_ < k.at_ + 4000000000 → k.body.length ≤ 1400 →
    ∃ t, exec (.write m at_) s = .next t ∧
      t.dev.out = [.harbour x.ip 47130 (hbMessage x.key k.typ m.session (x.sent + 1) m.req m.tx 7 k.body)] ∧ t.dev.regs = s.dev.regs ∧
      t.dev.jrn = { s.dev.jrn with at_ := t.dev.jrn.at_ }) ∧
  (∀ (s : State) (x : Session) (m : HbMsg) (at_ : Nat),
      s.dev.coreOn = true → ethUp s.dev = true → lenOk m = true → sessionOf m.session s.dev = some x → tagOk x.key 0x20 m = true → x.last < m.seq →
      x.kept = [] → x.part = none → underWay x m.req s.dev = false → m.first = true → m.last = true → m.target = 0 → s.dev.pow.after = 0 →
      (s.dev.host.txs.any fun u => u.session = m.session) = false → s.dev.host.txs.length < 4 →
    ∃ t, exec (.txOpen m at_) s = .next t ∧
      t.dev.out = [.harbour x.ip 47130 (hbMessage x.key 0x20 m.session (x.sent + 1) m.req m.tx 7 (leBytes 4 0 ++ leBytes 4 s.dev.jrn.nextTx))] ∧
      t.dev.host.txs = s.dev.host.txs ++ [⟨s.dev.jrn.nextTx, m.session, []⟩] ∧ t.dev.jrn.nextTx = s.dev.jrn.nextTx + 1 ∧ t.dev.regs = s.dev.regs) ∧
  (∀ (s : State) (x : Session) (m : HbMsg) (at_ : Nat),
      s.dev.coreOn = true → ethUp s.dev = true → lenOk m = true → sessionOf m.session s.dev = some x → tagOk x.key 0x20 m = true → x.last < m.seq →
      x.kept = [] → x.part = none → underWay x m.req s.dev = false → m.first = true → m.last = true → m.target = 0 → s.dev.pow.after = 0 →
      (s.dev.host.txs.any fun u => u.session = m.session) = true →
    ∃ t, exec (.txOpen m at_) s = .next t ∧
      t.dev.out = [.harbour x.ip 47130 (hbMessage x.key 0x20 m.session (x.sent + 1) m.req m.tx 7 (leBytes 4 0x0A100005 ++ leBytes 4 0))] ∧
      t.dev.host.txs = s.dev.host.txs ∧ t.dev.jrn = { s.dev.jrn with at_ := t.dev.jrn.at_ }) ∧
  (∀ (s : State) (x : Session) (m : HbMsg) (at_ : Nat) (v : Word) (u : TxU),
      s.dev.coreOn = true → ethUp s.dev = true → lenOk m = true → sessionOf m.session s.dev = some x → tagOk x.key 0x21 m = true → x.last < m.seq →
      x.kept = [] → x.part = none → underWay x m.req s.dev = false → m.first = true → m.last = true → m.target = 0 → s.dev.pow.after = 0 →
      findTx m.tx m.session s.dev = some u → m.body = entBytes 0x5300 9 4 (leBytes 4 v.toNat) → s.dev.host.txs = [u] → u.ents = [] →
    ∃ t, exec (.txWrite m none at_) s = .next t ∧
      t.dev.out = [.harbour x.ip 47130 (hbMessage x.key 0x21 m.session (x.sent + 1) m.req m.tx 7 (leBytes 4 0))] ∧
      t.dev.host.txs = [{ u with ents := [⟨0x5300, 9, 4, leBytes 4 v.toNat, none⟩] }] ∧ t.dev.regs = s.dev.regs ∧
      t.dev.jrn = { s.dev.jrn with at_ := t.dev.jrn.at_ }) ∧
  (∀ (s : State) (x : Session) (m : HbMsg) (at_ : Nat),
      s.dev.coreOn = true → ethUp s.dev = true → lenOk m = true → sessionOf m.session s.dev = some x → tagOk x.key 0x22 m = true → x.last < m.seq →
      x.kept = [] → x.part = none → underWay x m.req s.dev = false → m.first = true → m.last = true → m.target = 0 → s.dev.pow.after = 0 →
      findTx m.tx m.session s.dev = none → s.dev.host.tmoTx = [] →
    ∃ t, exec (.txCommit m at_) s = .next t ∧
      t.dev.out = [.harbour x.ip 47130 (hbMessage x.key 0x22 m.session (x.sent + 1) m.req m.tx 7 (leBytes 4 0x0A100004 ++ leBytes 2 0xFFFF ++ leBytes 2 0))] ∧
      t.dev.regs = s.dev.regs ∧ t.dev.jrn = { s.dev.jrn with at_ := t.dev.jrn.at_ }) ∧
  (∀ (s : State) (x : Session) (m : HbMsg) (at_ : Nat) (v : Word) (u : TxU),
      s.dev.coreOn = true → ethUp s.dev = true → lenOk m = true → sessionOf m.session s.dev = some x → tagOk x.key 0x22 m = true → x.last < m.seq →
      x.kept = [] → x.part = none → underWay x m.req s.dev = false → m.first = true → m.last = true → m.target = 0 → s.dev.pow.after = 0 →
      s.dev.red.paired = false → findTx m.tx m.session s.dev = some u → u.ents = [⟨0x5300, 9, 4, leBytes 4 v.toNat, none⟩] →
    ∃ t, exec (.txCommit m at_) s = .next t ∧
      t.dev.out = [.harbour x.ip 47130 (hbMessage x.key 0x22 m.session (x.sent + 1) m.req m.tx 7 (leBytes 4 0 ++ leBytes 2 0xFFFF ++ leBytes 2 0))] ∧
      t.dev.rd 0x4300002C = v ∧ findTx m.tx m.session t.dev = none ∧ (t.dev.jslot (s.dev.jrn.seq + 1)).kind = 2 ∧
      (t.dev.jslot (s.dev.jrn.seq + 1)).result = 0) ∧
  (∀ (s : State) (x : Session) (m : HbMsg) (at_ : Nat) (u : TxU),
      s.dev.coreOn = true → ethUp s.dev = true → lenOk m = true → sessionOf m.session s.dev = some x → tagOk x.key 0x23 m = true → x.last < m.seq →
      x.kept = [] → x.part = none → underWay x m.req s.dev = false → m.first = true → m.last = true → m.target = 0 → s.dev.pow.after = 0 →
      findTx m.tx m.session s.dev = some u →
    ∃ t, exec (.txAbort m at_) s = .next t ∧
      t.dev.out = [.harbour x.ip 47130 (hbMessage x.key 0x23 m.session (x.sent + 1) m.req m.tx 7 (leBytes 4 0))] ∧
      findTx m.tx m.session t.dev = none ∧ t.dev.regs = s.dev.regs ∧ t.dev.jrn = { s.dev.jrn with at_ := t.dev.jrn.at_ }) ∧
  (∀ (s : State) (sid elapsed : Nat),
      s.dev.coreOn = true → (sessionOf sid s.dev).isSome = true → s.dev.f ⟨0x46000014, 0, 10⟩ ≤ elapsed →
    ∃ t, exec (.sessionIdleExpiry sid elapsed) s = .next t ∧
      sessionOf sid t.dev = none ∧ (∀ u ∈ t.dev.host.txs, u.session ≠ sid) ∧ t.dev.f ⟨0x46000004, 5, 1⟩ = 1 ∧
      t.dev.f ⟨0x4600001C, 24, 8⟩ = min (s.dev.f ⟨0x4600001C, 24, 8⟩ + 1) 255 ∧ t.dev.strings = s.dev.strings ∧ t.dev.isles = s.dev.isles) ∧
  (∀ (s : State) (sid elapsed : Nat),
      s.dev.coreOn = true → elapsed < s.dev.f ⟨0x46000014, 0, 10⟩ →
    ∃ t, exec (.sessionIdleExpiry sid elapsed) s = .next t ∧
      Unmoved s.dev t.dev) ∧
  (∀ (s : State) (tx elapsed : Nat),
      s.dev.coreOn = true → (s.dev.host.txs.any fun u => u.id = tx) = true → s.dev.f ⟨0x46000014, 16, 6⟩ ≤ elapsed →
    ∃ t, exec (.transactionTimeout tx elapsed) s = .next t ∧
      (t.dev.host.txs.any fun u => u.id = tx) = false ∧ t.dev.f ⟨0x46000004, 6, 1⟩ = 1 ∧ t.dev.host.sessions = s.dev.host.sessions ∧
      RegsKept [0x46000004] s.dev t.dev) ∧
  (∀ (s : State) (ip at_ : Nat),
      s.dev.coreOn = true → s.dev.domOn 2 = true → 16 ≤ recentFails ip at_ s.dev →
    ∃ t, exec (.lockout ip at_) s = .next t ∧
      ip ∈ t.dev.host.bans ∧ t.dev.regs = s.dev.regs ∧ t.dev.host.sessions = s.dev.host.sessions) ∧
  (∀ (s : State) (ip at_ : Nat),
      s.dev.coreOn = true → recentFails ip at_ s.dev < 16 →
    ∃ t, exec (.lockout ip at_) s = .next t ∧
      Unmoved s.dev t.dev) ∧
  (∀ (s : State) (ip elapsed : Nat),
      s.dev.coreOn = true → 10 ≤ elapsed →
    ∃ t, exec (.lockoutExpiry ip elapsed) s = .next t ∧
      ip ∉ t.dev.host.bans ∧ t.dev.regs = s.dev.regs ∧ t.dev.host.sessions = s.dev.host.sessions) ∧
  (∀ (s : State) (sid elapsed : Nat) (x : Session) (p : PartIn),
      s.dev.coreOn = true → sessionOf sid s.dev = some x → x.part = some p → 100 < elapsed →
    ∃ t, exec (.harbourPartTimeout sid elapsed) s = .next t ∧
      t.dev.out = [.harbour x.ip 47130 (hbMessage x.key p.typ sid (x.sent + 1) p.req p.tx 7 (leBytes 4 0x08000020))] ∧
      (sessionOf sid t.dev).map (·.part) = some none ∧ t.dev.f ⟨0x4600001C, 16, 8⟩ = min (s.dev.f ⟨0x4600001C, 16, 8⟩ + 1) 255) ∧
  (∀ (s : State) (id elapsed : Nat) (x : Session) (r : RemoteU),
      s.dev.coreOn = true → s.dev.host.remote = [r] → r.id = id → sessionOf r.session s.dev = some x → 1000 ≤ elapsed →
    ∃ t, exec (.remoteTimeout id elapsed) s = .next t ∧
      t.dev.out = [.harbour x.ip 47130 (hbMessage x.key r.typ r.session (x.sent + 1) r.req r.tx 7 (leBytes 4 0x0A100008))] ∧ t.dev.host.remote = [] ∧
      t.dev.regs = s.dev.regs) ∧
  (∀ (s : State) (id elapsed : Nat),
      s.dev.coreOn = true → elapsed < 1000 →
    ∃ t, exec (.remoteTimeout id elapsed) s = .next t ∧
      Unmoved s.dev t.dev)

/-- A publication goes out at its ticks; an accepted PUB ferry writes its targets; CANopen requests, PDOs, NMT and heartbeat act as their rules
say; the window reads and writes a register.
a publication that was sampled is sent once to its destination and counts; an ARP request for an own address is answered; a PUB ferry of
another definition only sets SUB_MIS, a new one writes the target and makes the subscription current; without ferries for the age limit it
is stale, and after the hold in droop; a frame of no listed protocol is discarded and counted; a USDO read gives the value, a write needs
CAN_WR_EN; an RPDO writes its object, is discarded while CAN_WR_EN is 0, and times out once; NMT start, stop and Pre-operational; TPDOs go
at SYNC or on their timer; the heartbeat; bus-off and its recovery; a window write stores in COMMISSION only, a window read changes nothing
of an ordinary register.
Rules: R497, R510, R512, R513, R515, R516, R517, R519. -/
def Obligations.HostsArePublishedToAndHeard : Prop :=
  (∀ (s : State) (p : Fin 64) (ip : Nat) (x : PubSample),
      s.dev.coreOn = true → ethUp s.dev = true → hostUp s.dev = true → (pubOf p.val s.dev).enable = true → (pubOf p.val s.dev).sample = some x →
      (pubOf p.val s.dev).dests = [(0, ip)] → ip ≠ 0 →
    ∃ t, exec (.publicationTx p) s = .next t ∧
      t.dev.out = [.harbour ip 47131 (hbMessage (pubKey s.dev) 0x40 0 (pubOf p.val s.dev).seq 0 0 3 (pubBody p.val (pubOf p.val s.dev) x))] ∧
      pubOf p.val t.dev = { pubOf p.val s.dev with seq := ((pubOf p.val s.dev).seq + 1) % 2 ^ 32, sample := none } ∧ t.dev.regs = s.dev.regs) ∧
  (∀ (s : State) (p : Fin 64),
      s.dev.coreOn = true → ((pubOf p.val s.dev).enable = false ∨ (pubOf p.val s.dev).sample = none) →
    ∃ t, exec (.publicationTx p) s = .next t ∧
      Unmoved s.dev t.dev) ∧
  (∀ (s : State) (src : BitVec 12) (v : Word) (at_ q : Nat) (u : SubU),
      s.dev.coreOn = true → hostUp s.dev = true → s.dev.fab.queue = [] → s.dev.host.subs = [(q, u)] → u.source = src.toNat → u.check = 7 →
      u.seq = none → u.targets = [(0x5300, 9)] →
    ∃ t, exec (.pubRx src (leBytes 2 0 ++ leBytes 4 7 ++ leBytes 8 0 ++ leBytes 4 1 ++ leBytes 4 v.toNat) true at_) s = .next t ∧
      t.dev.rd 0x4300002C = v ∧ (subU q t.dev).state = 1 ∧ (subU q t.dev).seq = some 1 ∧ t.dev.jrn = { s.dev.jrn with at_ := t.dev.jrn.at_ }) ∧
  (∀ (s : State) (src : BitVec 12) (body : List Byte) (at_ q : Nat) (u : SubU),
      s.dev.coreOn = true → hostUp s.dev = true → s.dev.fab.queue = [] → s.dev.host.subs = [(q, u)] → u.source = src.toNat → leAt body 0 2 = 0 →
      18 ≤ body.length → leAt body 2 4 ≠ u.check →
    ∃ t, exec (.pubRx src body true at_) s = .next t ∧
      t.dev.f ⟨0x46000004, 9, 1⟩ = 1 ∧ OnlyRegs [0x46000004] s.dev t.dev) ∧
  (∀ (s : State) (q : Fin 64) (periods : Nat),
      s.dev.coreOn = true → hostUp s.dev = true → (subU q.val s.dev).state = 1 → (subU q.val s.dev).ageLimit ≤ periods →
    ∃ t, exec (.subscriptionStale q periods) s = .next t ∧
      subU q.val t.dev = { subU q.val s.dev with state := 2 } ∧ t.dev.jrn.seq = s.dev.jrn.seq + 1 ∧ t.dev.ports = s.dev.ports ∧
      t.dev.strings = s.dev.strings ∧ t.dev.isles = s.dev.isles) ∧
  (∀ (s : State) (q : Fin 64) (periods : Nat),
      s.dev.coreOn = true → periods < (subU q.val s.dev).ageLimit →
      (unreachable ((subU q.val s.dev).source % 4096) s.dev = false ∨ (subU q.val s.dev).state ≠ 1) →
    ∃ t, exec (.subscriptionStale q periods) s = .next t ∧
      Unmoved s.dev t.dev) ∧
  (∀ (s : State) (q : Fin 64) (elapsed at_ : Nat) (v : Word),
      s.dev.coreOn = true → hostUp s.dev = true → partHold s.dev ≤ elapsed → (subU q.val s.dev).state = 2 →
      (subU q.val s.dev).targets = [(0x5300, 9)] → (subU q.val s.dev).droop = leBytes 4 v.toNat →
    ∃ t, exec (.subscriptionHoldEnd q elapsed at_) s = .next t ∧
      t.dev.rd 0x4300002C = v ∧ (subU q.val t.dev).state = 3 ∧ t.dev.jrn.seq = s.dev.jrn.seq + 1) ∧
  (∀ (s : State),
      s.dev.coreOn = true → ethUp s.dev = true →
    ∃ t, exec (.ethernetFrameRx .other) s = .next t ∧
      t.dev.f ⟨0x46000020, 0, 16⟩ = min (s.dev.f ⟨0x46000020, 0, 16⟩ + 1) 65535 ∧ t.dev.out = [] ∧ OnlyRegs [0x46000020] s.dev t.dev) ∧
  (∀ (s : State) (addr : BitVec 32),
      s.dev.coreOn = true → ethUp s.dev = true → isOwn4 addr s.dev = true →
    ∃ t, exec (.ethernetFrameRx (.arp addr)) s = .next t ∧
      t.dev.out = [.eth (.arp addr) macBytes] ∧ t.dev.regs = s.dev.regs ∧ t.dev.host = s.dev.host) ∧
  (∀ (s : State) (addr : BitVec 32),
      s.dev.coreOn = true → isOwn4 addr s.dev = false →
    ∃ t, exec (.ethernetFrameRx (.arp addr)) s = .next t ∧
      Unmoved s.dev t.dev) ∧
  (∀ (s : State) (up : Bool),
      s.dev.coreOn = true → s.dev.domOn 2 = true →
    ∃ t, exec (.ethernetLinkChange up) s = .next t ∧
      t.dev.f ⟨0x46000004, 0, 1⟩ = (if up then 1 else 0) ∧ OnlyRegs [0x46000004] s.dev t.dev) ∧
  (∀ (s : State) (cob at_ : Nat),
      s.dev.coreOn = true → canUp s.dev = true → s.dev.host.nmt = 2 →
    ∃ t, exec (.usdoRequest (canNode s.dev) cob false 0x2000 1 2 [] none at_) s = .next t ∧
      t.dev.out = [.usdo 0 (leBytes 1 s.dev.mode)] ∧ t.dev.regs = s.dev.regs ∧ t.dev.jrn = { s.dev.jrn with at_ := t.dev.jrn.at_ }) ∧
  (∀ (s : State) (cob ix sub typ at_ : Nat) (value : List Byte),
      s.dev.coreOn = true → canUp s.dev = true → s.dev.host.nmt = 2 → s.dev.f ⟨0x46000000, 2, 1⟩ = 0 →
    ∃ t, exec (.usdoRequest (canNode s.dev) cob true ix sub typ value none at_) s = .next t ∧
      t.dev.out = [.usdo 0x08000021 []] ∧ t.dev.regs = s.dev.regs ∧ t.dev.jrn = { s.dev.jrn with at_ := t.dev.jrn.at_ }) ∧
  (∀ (s : State) (cob at_ : Nat) (v : Word),
      s.dev.coreOn = true → canUp s.dev = true → s.dev.red.paired = false → s.dev.host.nmt = 2 → s.dev.f ⟨0x46000000, 2, 1⟩ = 1 →
      s.dev.pow.after = 0 →
    ∃ t, exec (.usdoRequest (canNode s.dev) cob true 0x5300 9 4 (leBytes 4 v.toNat) none at_) s = .next t ∧
      t.dev.out = [.usdo 0 []] ∧ t.dev.rd 0x4300002C = v ∧ t.dev.jrn.seq = s.dev.jrn.seq + 1) ∧
  (∀ (s : State) (n : Fin 8) (cob at_ : Nat) (v : Word),
      s.dev.coreOn = true → canUp s.dev = true → s.dev.red.paired = false → s.dev.host.nmt = 2 → s.dev.f ⟨0x46000000, 2, 1⟩ = 1 →
      s.dev.pow.after = 0 → (∀ i : Fin 8, (pdoValid false i.val s.dev = true ∧ pdoCob false i.val s.dev % 2 ^ 29 = cob) ↔ i = n) →
      pdoMap false n.val s.dev = [(0x5300, 9, 4)] →
    ∃ t, exec (.rpdoRx cob (leBytes 4 v.toNat) at_) s = .next t ∧
      t.dev.rd 0x4300002C = v ∧ (pdoOf false n.val t.dev).last = some (leBytes 4 v.toNat) ∧ (pdoOf false n.val t.dev).tmo = false) ∧
  (∀ (s : State) (n : Fin 8) (cob at_ : Nat) (data : List Byte),
      s.dev.coreOn = true → canUp s.dev = true → s.dev.host.nmt = 2 → s.dev.f ⟨0x46000000, 2, 1⟩ = 0 → pdoValid false n.val s.dev = true →
      pdoCob false n.val s.dev % 2 ^ 29 = cob →
    ∃ t, exec (.rpdoRx cob data at_) s = .next t ∧
      t.dev = { s.dev with out := [], host := { s.dev.host with rpdoLost := s.dev.host.rpdoLost + 1 } }) ∧
  (∀ (s : State) (n : Fin 8) (elapsed : Nat),
      s.dev.coreOn = true → canUp s.dev = true → s.dev.host.nmt = 2 → pdoValid false n.val s.dev = true → (pdoOf false n.val s.dev).event ≠ 0 →
      (pdoOf false n.val s.dev).event ≤ elapsed → (pdoOf false n.val s.dev).tmo = false →
    ∃ t, exec (.rpdoTmo n elapsed) s = .next t ∧
      (pdoOf false n.val t.dev).tmo = true ∧ t.dev.f ⟨0x46000004, 7, 1⟩ = 1 ∧ t.dev.out ≠ [] ∧ t.dev.ports = s.dev.ports) ∧
  (∀ (s : State) (n : Fin 8) (elapsed : Nat),
      s.dev.coreOn = true → ((pdoOf false n.val s.dev).event = 0 ∨ elapsed < (pdoOf false n.val s.dev).event ∨ (pdoOf false n.val s.dev).tmo = true) →
    ∃ t, exec (.rpdoTmo n elapsed) s = .next t ∧
      Unmoved s.dev t.dev) ∧
  (∀ (s : State) (cmd node : Nat),
      s.dev.coreOn = true → canUp s.dev = true → s.dev.host.nmt ≠ 0 → (node = 0 ∨ node = canNode s.dev) → (cmd = 1 ∨ cmd = 2 ∨ cmd = 0x80) →
    ∃ t, exec (.nmtCommand cmd node) s = .next t ∧
      t.dev = { s.dev with out := [], host := { s.dev.host with nmt := if cmd = 1 then 2 else if cmd = 2 then 3 else 1 } }) ∧
  (∀ (s : State) (cmd node : Nat),
      s.dev.coreOn = true → node ≠ 0 → node ≠ canNode s.dev →
    ∃ t, exec (.nmtCommand cmd node) s = .next t ∧
      Unmoved s.dev t.dev) ∧
  (∀ (s : State) (at_ : Nat) (n : Fin 8),
      s.dev.coreOn = true → (∀ i : Fin 8, tpdoOn i.val s.dev = true ↔ i = n) → pdoMap true n.val s.dev = [(0x2000, 1, 1)] →
      (pdoOf true n.val s.dev).typ = 1 →
    ∃ t, exec (.syncRx at_) s = .next t ∧
      t.dev.out = [.can (pdoCob true n.val s.dev % 2 ^ 29) (leBytes 1 s.dev.mode)] ∧ t.dev.regs = s.dev.regs ∧ (pdoOf true n.val t.dev).syncs = 0) ∧
  (∀ (s : State) (n : Fin 8) (elapsed at_ : Nat),
      s.dev.coreOn = true → tpdoOn n.val s.dev = true → (pdoOf true n.val s.dev).typ = 0xFE → pdoMap true n.val s.dev = [(0x2000, 1, 1)] →
      (pdoOf true n.val s.dev).event ≠ 0 → 10 * (pdoOf true n.val s.dev).event ≤ elapsed →
    ∃ t, exec (.tpdoEventTimer n elapsed at_) s = .next t ∧
      t.dev.out = [.can (pdoCob true n.val s.dev % 2 ^ 29) (leBytes 1 s.dev.mode)] ∧ t.dev.regs = s.dev.regs) ∧
  (∀ (s : State) (elapsed : Nat),
      s.dev.coreOn = true → canUp s.dev = true → s.dev.host.nmt = 2 → s.dev.host.heartbeat ≠ 0 → s.dev.host.heartbeat ≤ elapsed →
    ∃ t, exec (.heartbeatTx elapsed) s = .next t ∧
      t.dev.out = [.can (0x700 + canNode s.dev) [5]] ∧ t.dev.regs = s.dev.regs ∧ t.dev.host = s.dev.host) ∧
  (∀ (s : State),
      s.dev.coreOn = true → hostUp s.dev = true → s.dev.f ⟨0x46000000, 1, 1⟩ = 1 → s.dev.f ⟨0x46000004, 1, 1⟩ = 0 →
    ∃ t, exec .canBusOff s = .next t ∧
      t.dev.f ⟨0x46000004, 1, 1⟩ = 1 ∧ t.dev.f ⟨0x46000020, 24, 8⟩ = min (s.dev.f ⟨0x46000020, 24, 8⟩ + 1) 255 ∧
      OnlyRegs [0x46000004, 0x46000020] s.dev t.dev) ∧
  (∀ (s : State) (occurrences : Nat),
      s.dev.coreOn = true → 128 ≤ occurrences →
    ∃ t, exec (.busOffRecovery occurrences) s = .next t ∧
      t.dev.f ⟨0x46000004, 1, 1⟩ = 0 ∧ OnlyRegs [0x46000004] s.dev t.dev) ∧
  (∀ (s : State) (at_ : Nat),
      s.dev.coreOn = true → hostUp s.dev = true → s.dev.host.window = 0x4300002C →
    ∃ t, exec (.registerWindowRead at_) s = .next t ∧
      t.dev.out = [.window 0 (leBytes 4 (s.dev.rd 0x4300002C).toNat)] ∧ t.dev.regs = s.dev.regs ∧ t.dev.host = s.dev.host ∧
      t.dev.strings = s.dev.strings ∧ t.dev.isles = s.dev.isles) ∧
  (∀ (s : State) (o : Origin) (v : Word) (at_ : Nat),
      s.dev.coreOn = true → hostUp s.dev = true → o.chan = 1 → s.dev.mode = 2 → s.dev.red.paired = false → s.dev.host.window = 0x4300002C →
    ∃ t, exec (.registerWindowWrite o v at_) s = .next t ∧
      t.dev.out = [.result 1 0] ∧ t.dev.rd 0x4300002C = v ∧ t.dev.jrn.seq = s.dev.jrn.seq + 1 ∧ t.dev.strings = s.dev.strings ∧
      t.dev.isles = s.dev.isles) ∧
  (∀ (s : State) (o : Origin) (v : Word) (at_ : Nat),
      s.dev.coreOn = true → hostUp s.dev = true → o.chan = 1 → s.dev.mode ≠ 2 →
    ∃ t, exec (.registerWindowWrite o v at_) s = .next t ∧
      t.dev.out = [.result 1 0x08000022] ∧ t.dev.ports = s.dev.ports ∧ t.dev.rd 0x4300002C = s.dev.rd 0x4300002C ∧ t.dev.strings = s.dev.strings ∧
      t.dev.isles = s.dev.isles)

/-- Journal entries are copied to flash page by page; the configuration check compares its CRC with the reference, captures it at a COMMIT, and
does not judge under HOLD.
a flush starts at its period, with 64 entries waiting, or by command, takes the next entries in order, and stores a page that reads back
well, while one that does not is counted and stays due; a sweep judges against a valid reference: equal ends the run of mismatches,
different sets the mismatch bit and counts; with COMMIT it is captured; under HOLD it is skipped; HOLD beyond 100 ms with a reference sets
HOLD_TMO once.
Rules: R535, R563, R564, R565, R566. -/
def Obligations.BackgroundCopiesAndChecks : Prop :=
  (∀ (s : State),
      s.dev.coreOn = true → s.dev.f ⟨0x45000000, 0, 1⟩ = 1 → s.dev.jrn.flushing = false → s.dev.jrn.flushed < s.dev.jrn.seq →
      jOldest s.dev ≤ s.dev.jrn.flushed + 1 →
    ∃ t, exec .flushNow s = .next t ∧
      t.dev.jrn.flushing = true ∧ t.dev.jrn.page = nextPage s.dev ∧ t.dev.jrn.flash = s.dev.jrn.flash ∧ t.dev.f ⟨0x45000004, 0, 1⟩ = 1 ∧
      RegsKept [0x45000004] s.dev t.dev) ∧
  (∀ (s : State),
      s.dev.coreOn = true → s.dev.f ⟨0x45000000, 0, 1⟩ = 0 →
    ∃ t, exec .flushNow s = .next t ∧
      Unmoved s.dev t.dev) ∧
  (∀ (s : State) (elapsed : Nat),
      s.dev.coreOn = true → s.dev.f ⟨0x45000000, 0, 1⟩ = 1 → s.dev.jrn.flushing = false → s.dev.jrn.flushed < s.dev.jrn.seq →
      jOldest s.dev ≤ s.dev.jrn.flushed + 1 → (10 * s.dev.f ⟨0x45000000, 16, 16⟩ ≤ elapsed ∨ 64 ≤ unflushed s.dev) →
    ∃ t, exec (.flushTimer elapsed) s = .next t ∧
      t.dev.jrn.flushing = true ∧ t.dev.jrn.page = nextPage s.dev ∧ t.dev.jrn.flash = s.dev.jrn.flash ∧ t.dev.f ⟨0x45000004, 0, 1⟩ = 1 ∧
      RegsKept [0x45000004] s.dev t.dev) ∧
  (∀ (s : State) (elapsed : Nat),
      s.dev.coreOn = true → elapsed < 10 * s.dev.f ⟨0x45000000, 16, 16⟩ → unflushed s.dev < 64 →
    ∃ t, exec (.flushTimer elapsed) s = .next t ∧
      Unmoved s.dev t.dev) ∧
  (∀ (s : State) (n : Nat),
      s.dev.coreOn = true → s.dev.jrn.flushing = true → s.dev.jrn.page = [n] → (s.dev.jslot n).seq = n → s.dev.jrn.seq = n → s.dev.jrn.flushed ≤ n →
      s.dev.jrn.again = [] → 0 < s.dev.jrn.flashPos → s.dev.f ⟨0x45000020, 0, 11⟩ = 1 → s.dev.jrn.flashPos < 1024 →
    ∃ t, exec (.flushPageDone true) s = .next t ∧
      tget (fun _ => {}) t.dev.jrn.flash s.dev.jrn.flashPos = s.dev.jslot n ∧ t.dev.jrn.flushed = n ∧ t.dev.jrn.flashPos = s.dev.jrn.flashPos + 4 ∧
      t.dev.jrn.flushing = false ∧ t.dev.jrn.slots = s.dev.jrn.slots ∧ t.dev.f ⟨0x45000004, 0, 1⟩ = 0) ∧
  (∀ (s : State),
      s.dev.coreOn = true → s.dev.jrn.flushing = true → 0 < s.dev.jrn.flashPos → s.dev.jrn.flashPos < 1024 * s.dev.f ⟨0x45000020, 0, 11⟩ →
      s.dev.jrn.flashPos % 1024 ≠ 0 →
    ∃ t, exec (.flushPageDone false) s = .next t ∧
      t.dev.jrn = { s.dev.jrn with flashPos := s.dev.jrn.flashPos + 4 } ∧ t.dev.f ⟨0x45000004, 1, 1⟩ = 1 ∧
      t.dev.f ⟨0x4500002C, 8, 8⟩ = min (s.dev.f ⟨0x4500002C, 8, 8⟩ + 1) 255 ∧ RegsKept [0x45000004, 0x4500002C] s.dev t.dev) ∧
  (∀ (s : State) (ok : Bool),
      s.dev.coreOn = true → s.dev.jrn.flushing = false →
    ∃ t, exec (.flushPageDone ok) s = .next t ∧
      Unmoved s.dev t.dev) ∧
  (∀ (s : State),
      s.dev.coreOn = true → s.dev.domOn 2 = true → s.dev.bus.sweep = none →
    ∃ t, exec .cfcSweepStart s = .next t ∧
      t.dev.f ⟨0x40040004, 1, 1⟩ = 1 ∧
      t.dev.bus.sweep = some (decide (s.dev.f ⟨0x40040004, 0, 1⟩ = 1 ∧ s.dev.f ⟨0x40040000, 0, 1⟩ = 0 ∧ s.dev.bus.commit = false), s.dev.bus.commit) ∧
      t.dev.bus.commit = false ∧ RegsKept [0x40040004] s.dev t.dev) ∧
  (∀ (s : State) (time : Nat),
      s.dev.coreOn = true → s.dev.bus.sweepRegs = s.dev.regs → s.dev.bus.sweep = some (true, false) → s.dev.f ⟨0x40040000, 0, 1⟩ = 0 →
      s.dev.bus.holdSeen = false →
    ∃ t, exec (.cfcSweepDone time) s = .next t ∧
      t.dev.rd 0x4004000C = sweepCrc s.dev ∧ t.dev.f ⟨0x40040004, 1, 1⟩ = 0 ∧ t.dev.bus.sweep = none ∧
      (sweepCrc s.dev = s.dev.bus.sweepRef → t.dev.f ⟨0x40040004, 2, 1⟩ = 0 ∧ t.dev.f ⟨0x40040004, 8, 8⟩ = 0) ∧
      (sweepCrc s.dev ≠ s.dev.bus.sweepRef → t.dev.f ⟨0x40040004, 2, 1⟩ = 1 ∧ t.dev.f ⟨0x40040004, 3, 1⟩ = 1 ∧ t.dev.f ⟨0x40040018, 0, 16⟩ = min (s.dev.f ⟨0x40040018, 0, 16⟩ + 1) 65535 ∧ t.dev.f ⟨0x40040004, 8, 8⟩ = min (s.dev.f ⟨0x40040004, 8, 8⟩ + 1) 255 ∧ t.dev.f ⟨0x44000010, 2, 1⟩ = 1) ∧
      t.dev.strings.map (·.1) = s.dev.strings.map (·.1)) ∧
  (∀ (s : State) (time : Nat) (j : Bool),
      s.dev.coreOn = true → s.dev.bus.sweepRegs = s.dev.regs → s.dev.bus.sweep = some (j, true) →
    ∃ t, exec (.cfcSweepDone time) s = .next t ∧
      t.dev.rd 0x40040008 = sweepCrc s.dev ∧ t.dev.rd 0x4004000C = sweepCrc s.dev ∧ t.dev.f ⟨0x40040004, 0, 1⟩ = 1 ∧ t.dev.bus.sweep = none) ∧
  (∀ (s : State) (time : Nat),
      s.dev.coreOn = true → s.dev.bus.sweep = some (false, false) → (s.dev.f ⟨0x40040000, 0, 1⟩ = 0 ∨ s.dev.bus.holdTmo = false) →
    ∃ t, exec (.cfcSweepDone time) s = .next t ∧
      t.dev.f ⟨0x40040018, 16, 8⟩ = min (s.dev.f ⟨0x40040018, 16, 8⟩ + 1) 255 ∧ t.dev.f ⟨0x40040018, 0, 16⟩ = s.dev.f ⟨0x40040018, 0, 16⟩ ∧
      t.dev.f ⟨0x40040004, 2, 1⟩ = s.dev.f ⟨0x40040004, 2, 1⟩ ∧ t.dev.rd 0x40040008 = s.dev.rd 0x40040008) ∧
  (∀ (s : State) (time : Nat),
      s.dev.coreOn = true → s.dev.bus.sweep = none →
    ∃ t, exec (.cfcSweepDone time) s = .next t ∧
      Unmoved s.dev t.dev) ∧
  (∀ (s : State),
      s.dev.coreOn = true → s.dev.domOn 2 = true →
    ∃ t, exec .cfcCommit s = .next t ∧
      t.dev.bus = { s.dev.bus with commit := true } ∧ t.dev.f ⟨0x40040004, 5, 1⟩ = 1 ∧ RegsKept [0x40040004] s.dev t.dev) ∧
  (∀ (s : State) (v : Word),
      s.dev.coreOn = true → s.dev.domOn 2 = true →
    ∃ t, exec (.cfcRefWrite v) s = .next t ∧
      t.dev.rd 0x40040008 = v ∧ t.dev.f ⟨0x40040004, 0, 1⟩ = 1 ∧ OnlyRegs [0x40040004, 0x40040008] s.dev t.dev) ∧
  (∀ (s : State) (elapsed : Nat),
      s.dev.coreOn = true → s.dev.f ⟨0x40040000, 0, 1⟩ = 1 → s.dev.f ⟨0x40040004, 0, 1⟩ = 1 → 100000 < elapsed → s.dev.bus.holdTmo = false →
    ∃ t, exec (.holdTmo elapsed) s = .next t ∧
      t.dev.f ⟨0x40040004, 4, 1⟩ = 1 ∧ t.dev.f ⟨0x40040018, 24, 8⟩ = min (s.dev.f ⟨0x40040018, 24, 8⟩ + 1) 255 ∧
      t.dev.bus = { s.dev.bus with holdTmo := true } ∧ RegsKept [0x40040004, 0x40040018] s.dev t.dev) ∧
  (∀ (s : State) (elapsed : Nat),
      s.dev.coreOn = true → (s.dev.f ⟨0x40040000, 0, 1⟩ = 0 ∨ s.dev.f ⟨0x40040004, 0, 1⟩ = 0 ∨ elapsed ≤ 100000 ∨ s.dev.bus.holdTmo = true) →
    ∃ t, exec (.holdTmo elapsed) s = .next t ∧
      Unmoved s.dev t.dev)

/-- A bus access is checked in order and a bus error has no effect but its record; reads clear RC fields, a pair is read whole, an access to a
domain that is off waits.
a write stores at every alias of its register and is answered; an unmapped or a narrow access to a register that is not RMW-safe ends in a
bus error that the first record holds; a JTAG write outside COMMISSION ends in MODE; a read of an RC counter gives it and clears it; a
narrow read that covers only part of a field leaves it; the read of a low word latches the high word and a later read by the same initiator
returns the latch; an access to a domain off holds the bus, one behind it waits; after 4,096 cycles it ends in DOMAIN_OFF; the TAP takes
EXTEST only in COMMISSION and register access only without JTAG_LOCK.
Rules: R547, R551, R553, R554, R556, R557, R559, R560. -/
def Obligations.AccessesAreCheckedAndServed : Prop :=
  (∀ (s : State) (x : Access) (at_ : Nat),
      s.dev.coreOn = true → x.init < 4 → s.dev.domOn 2 = true → s.dev.pow.held = false → s.dev.pow.restart = false → s.dev.bus.waiting = [] →
      x.addr / 0x10000 = 0x4001 → x.addr % 0x100 = 0x10 → x.size = 4 →
    ∃ t, exec (.registerWrite x at_) s = .next t ∧
      t.dev.out = [.bus x.init 0 0] ∧ t.dev.f ⟨0x40010010, 0, 16⟩ = x.data % 65536 ∧ OnlyRegs [0x40010010] s.dev { t.dev with bus := s.dev.bus } ∧
      t.dev.bus = { s.dev.bus with turn := x.init }) ∧
  (∀ (s : State) (x : Access) (at_ : Nat),
      s.dev.coreOn = true → x.init < 4 → s.dev.domOn 2 = true → s.dev.pow.held = false → s.dev.pow.restart = false → s.dev.bus.waiting = [] →
      x.addr / 0x10000 = 0x4001 → x.addr % 0x100 = 0x10 → x.size = 4 →
    ∃ t, exec (.rcRead x at_) s = .next t ∧
      t.dev.out = [.bus x.init 0 (s.dev.rd 0x40010010).toNat] ∧ OnlyRegs [] s.dev { t.dev with bus := s.dev.bus } ∧
      t.dev.bus = { s.dev.bus with turn := x.init }) ∧
  (∀ (s : State) (x : Access) (at_ : Nat),
      s.dev.coreOn = true → x.init < 4 → s.dev.domOn 2 = true → s.dev.pow.held = false → s.dev.pow.restart = false → s.dev.bus.waiting = [] →
      x.size = 4 → x.addr % 4 = 0 → x.addr / 0x10000 = 0x5000 → s.dev.f ⟨0x40000104, 16, 1⟩ = 0 →
    ∃ t, exec (.rcRead x at_) s = .next t ∧
      t.dev.bus = { s.dev.bus with turn := x.init } ∧ t.dev.out = [.bus x.init 2 0] ∧ t.dev.rd 0x40000100 = BitVec.ofNat 32 x.addr ∧
      t.dev.f ⟨0x40000104, 8, 4⟩ = 2 ∧ t.dev.f ⟨0x40000104, 16, 1⟩ = 1 ∧ t.dev.f ⟨0x40000104, 0, 3⟩ = x.init ∧ t.dev.f ⟨0x40000104, 3, 1⟩ = 0 ∧
      t.dev.f ⟨0x40000108, 0, 16⟩ = min (s.dev.f ⟨0x40000108, 0, 16⟩ + 1) 65535 ∧
      OnlyRegs [0x40000100, 0x40000104, 0x40000108] s.dev { t.dev with bus := s.dev.bus }) ∧
  (∀ (s : State) (x : Access) (at_ : Nat),
      s.dev.coreOn = true → x.init < 4 → s.dev.domOn 2 = true → s.dev.pow.held = false → s.dev.pow.restart = false → s.dev.bus.waiting = [] →
      x.size = 1 → x.addr = 0x40010004 → s.dev.f ⟨0x40000104, 16, 1⟩ = 0 →
    ∃ t, exec (.registerWrite x at_) s = .next t ∧
      t.dev.out = [.bus x.init 3 0] ∧ t.dev.rd 0x40000100 = BitVec.ofNat 32 x.addr ∧ t.dev.f ⟨0x40000104, 8, 4⟩ = 3 ∧
      t.dev.f ⟨0x40000104, 16, 1⟩ = 1 ∧ t.dev.f ⟨0x40000104, 0, 3⟩ = x.init ∧ t.dev.f ⟨0x40000104, 3, 1⟩ = 1 ∧
      t.dev.f ⟨0x40000108, 16, 8⟩ = min (s.dev.f ⟨0x40000108, 16, 8⟩ + 1) 255 ∧
      OnlyRegs [0x40000100, 0x40000104, 0x40000108] s.dev { t.dev with bus := s.dev.bus } ∧ t.dev.bus = { s.dev.bus with turn := x.init }) ∧
  (∀ (s : State) (x : Access) (at_ : Nat),
      s.dev.coreOn = true → x.init < 4 → s.dev.domOn 2 = true → s.dev.pow.held = false → s.dev.pow.restart = false → s.dev.bus.waiting = [] →
      x.size = 4 → x.addr % 4 ≠ 0 → s.dev.f ⟨0x40000104, 16, 1⟩ = 1 →
    ∃ t, exec (.rcRead x at_) s = .next t ∧
      t.dev.out = [.bus x.init 1 0] ∧ t.dev.f ⟨0x40000104, 17, 1⟩ = 1 ∧ t.dev.rd 0x40000100 = s.dev.rd 0x40000100 ∧
      t.dev.f ⟨0x40000104, 0, 17⟩ = s.dev.f ⟨0x40000104, 0, 17⟩ ∧ t.dev.f ⟨0x40000108, 0, 16⟩ = min (s.dev.f ⟨0x40000108, 0, 16⟩ + 1) 65535) ∧
  (∀ (s : State) (x : Access) (at_ : Nat),
      s.dev.coreOn = true → x.init = 5 → s.dev.bus.tap = 1 → s.dev.domOn 2 = true → s.dev.pow.held = false → s.dev.bus.waiting = [] →
      x.addr / 0x10000 = 0x4001 → x.addr % 0x100 = 0x10 → x.size = 4 → s.dev.mode ≠ 2 → s.dev.f ⟨0x40000104, 16, 1⟩ = 0 →
    ∃ t, exec (.registerWrite x at_) s = .next t ∧
      t.dev.bus = { s.dev.bus with turn := x.init } ∧ t.dev.out = [.bus x.init 6 0] ∧ t.dev.rd 0x40000100 = BitVec.ofNat 32 x.addr ∧
      t.dev.f ⟨0x40000104, 8, 4⟩ = 6 ∧ t.dev.f ⟨0x40000104, 16, 1⟩ = 1 ∧ t.dev.f ⟨0x40000104, 0, 3⟩ = x.init ∧ t.dev.f ⟨0x40000104, 3, 1⟩ = 1 ∧
      t.dev.f ⟨0x40000108, 0, 16⟩ = min (s.dev.f ⟨0x40000108, 0, 16⟩ + 1) 65535 ∧
      OnlyRegs [0x40000100, 0x40000104, 0x40000108] s.dev { t.dev with bus := s.dev.bus }) ∧
  (∀ (s : State) (x : Access) (at_ : Nat),
      s.dev.coreOn = true → x.init < 4 → s.dev.domOn 2 = true → s.dev.pow.held = false → s.dev.pow.restart = false → s.dev.bus.waiting = [] →
      x.size = 4 → x.addr = 0x44000000 →
    ∃ t, exec (.registerWrite x at_) s = .next t ∧
      t.dev.out = [.bus x.init 0 0] ∧ t.dev.f ⟨0x40000108, 24, 8⟩ = min (s.dev.f ⟨0x40000108, 24, 8⟩ + 1) 255 ∧
      OnlyRegs [0x40000108] s.dev { t.dev with bus := s.dev.bus } ∧ t.dev.bus = { s.dev.bus with turn := x.init }) ∧
  (∀ (s : State) (x : Access) (at_ : Nat),
      s.dev.coreOn = true → x.init < 4 → s.dev.domOn 2 = true → s.dev.pow.held = false → s.dev.pow.restart = false → s.dev.bus.waiting = [] →
      x.size = 4 → x.addr = 0x40010018 →
    ∃ t, exec (.rcRead x at_) s = .next t ∧
      t.dev.out = [.bus x.init 0 (s.dev.rd 0x40010018).toNat] ∧ t.dev.rd 0x40010018 = 0 ∧ RegsKept [0x40010018] s.dev t.dev) ∧
  (∀ (s : State) (x : Access) (at_ : Nat),
      s.dev.coreOn = true → x.init < 4 → s.dev.domOn 2 = true → s.dev.pow.held = false → s.dev.pow.restart = false → s.dev.bus.waiting = [] →
      x.size = 1 → x.addr = 0x40010018 →
    ∃ t, exec (.rcRead x at_) s = .next t ∧
      t.dev.out = [.bus x.init 0 (s.dev.f ⟨0x40010018, 0, 8⟩)] ∧ t.dev.f ⟨0x40010018, 0, 8⟩ = 0 ∧
      t.dev.f ⟨0x40010018, 8, 24⟩ = s.dev.f ⟨0x40010018, 8, 24⟩) ∧
  (∀ (s : State) (x : Access) (at_ : Nat),
      s.dev.coreOn = true → x.init < 4 → s.dev.domOn 2 = true → s.dev.pow.held = false → s.dev.pow.restart = false → s.dev.bus.waiting = [] →
      x.size = 4 → x.addr = 0x40100010 →
    ∃ t, exec (.pairLowRead x at_) s = .next t ∧
      t.dev.out = [.bus x.init 0 (s.dev.tide.k % 2 ^ 32)] ∧
      tget (fun _ => 0) t.dev.bus.latched (x.init * 2 ^ 32 + 0x40100014) = s.dev.tide.k / 2 ^ 32 % 2 ^ 32 + 1 ∧ t.dev.regs = s.dev.regs) ∧
  (∀ (s : State) (x : Access) (at_ : Nat) (v : Nat),
      s.dev.coreOn = true → x.init < 4 → s.dev.domOn 2 = true → s.dev.pow.held = false → s.dev.pow.restart = false → s.dev.bus.waiting = [] →
      x.size = 4 → x.addr = 0x40100014 → tget (fun _ => 0) s.dev.bus.latched (x.init * 2 ^ 32 + 0x40100014) = v + 1 → v < 2 ^ 32 →
    ∃ t, exec (.rcRead x at_) s = .next t ∧
      t.dev.out = [.bus x.init 0 v] ∧ OnlyRegs [] s.dev { t.dev with bus := s.dev.bus } ∧ t.dev.bus = { s.dev.bus with turn := x.init }) ∧
  (∀ (s : State) (x : Access) (at_ : Nat),
      s.dev.coreOn = true → x.init < 4 → s.dev.domOn 2 = true → s.dev.pow.held = false → s.dev.pow.restart = false → s.dev.bus.waiting = [] →
      x.size = 4 → x.addr = 0x42202404 → s.dev.domOn 9 = false →
    ∃ t, exec (.rcRead x at_) s = .next t ∧
      t.dev.bus = { s.dev.bus with waiting := [{ x with write := false }], turn := x.init } ∧ t.dev.out = [] ∧
      OnlyRegs [] { s.dev with bus := t.dev.bus } t.dev ∧ t.dev.regs = s.dev.regs) ∧
  (∀ (s : State) (x : Access) (at_ : Nat) (y : Access) (l : List Access),
      s.dev.coreOn = true → x.init < 4 → s.dev.domOn 2 = true → s.dev.pow.held = false → s.dev.pow.restart = false → s.dev.bus.waiting = y :: l →
    ∃ t, exec (.registerWrite x at_) s = .next t ∧
      t.dev.bus = { s.dev.bus with waiting := y :: l ++ [{ x with write := true }] } ∧ t.dev.out = [] ∧ t.dev.regs = s.dev.regs) ∧
  (∀ (s : State) (elapsed at_ : Nat) (x : Access),
      s.dev.coreOn = true → s.dev.bus.waiting = [x] → 4096 ≤ elapsed → s.dev.f ⟨0x40000104, 16, 1⟩ = 0 →
    ∃ t, exec (.domainStallTimeout elapsed at_) s = .next t ∧
      t.dev.out = [.bus x.init 4 0] ∧ t.dev.bus = { s.dev.bus with waiting := [] } ∧ t.dev.rd 0x40000100 = BitVec.ofNat 32 x.addr ∧
      t.dev.f ⟨0x40000104, 8, 4⟩ = 4 ∧ t.dev.f ⟨0x40000108, 0, 16⟩ = min (s.dev.f ⟨0x40000108, 0, 16⟩ + 1) 65535 ∧
      RegsKept [0x40000100, 0x40000104, 0x40000108] s.dev t.dev) ∧
  (∀ (s : State) (elapsed at_ : Nat),
      s.dev.coreOn = true → (elapsed < 4096 ∨ s.dev.bus.waiting = []) →
    ∃ t, exec (.domainStallTimeout elapsed at_) s = .next t ∧
      Unmoved s.dev t.dev) ∧
  (∀ (s : State),
      (leAt s.dev.saf.spb 3 1).testBit 0 = false →
    ∃ t, exec (.jtagInstructionLoad 1) s = .next t ∧
      t.dev.bus.tap = 1 ∧ t.dev.regs = s.dev.regs) ∧
  (∀ (s : State),
      (leAt s.dev.saf.spb 3 1).testBit 0 = true →
    ∃ t, exec (.jtagInstructionLoad 1) s = .next t ∧
      t.dev.bus.tap = 0 ∧ t.dev.regs = s.dev.regs) ∧
  (∀ (s : State) (ins : Fin 5),
      (ins.val = 2 ∨ ins.val = 3) → s.dev.mode = 2 → stringsOff s.dev = true → portsOff s.dev = true →
    ∃ t, exec (.jtagInstructionLoad ins) s = .next t ∧
      t.dev.bus.tap = ins.val ∧ t.dev.regs = s.dev.regs) ∧
  (∀ (s : State) (ins : Fin 5),
      (ins.val = 2 ∨ ins.val = 3) → (s.dev.mode ≠ 2 ∨ stringsOff s.dev = false ∨ portsOff s.dev = false) →
    ∃ t, exec (.jtagInstructionLoad ins) s = .next t ∧
      t.dev.bus.tap = 0 ∧ t.dev.regs = s.dev.regs)

/-- An unaligned access, of any size and by any initiator, ends in a bus error UNALIGNED and reads or writes nothing.
R550: whatever the address names, an access whose address is no multiple of the smaller of its size and 4 bytes is answered with cause
UNALIGNED, recorded and counted; nothing else changes.
Rules: R550. -/
def Obligations.UnalignedAccessesDoNothing : Prop :=
  (∀ (s : State) (x : Access) (at_ : Nat),
      s.dev.coreOn = true → busAllowed x s.dev = true → s.dev.bus.waiting = [] → x.addr % min x.size 4 ≠ 0 →
    ∃ t, exec (.registerWrite x at_) s = .next t ∧
      t.dev.out = [.bus x.init 1 0] ∧ t.dev.f ⟨0x40000108, 0, 16⟩ = min (s.dev.f ⟨0x40000108, 0, 16⟩ + 1) 65535 ∧
      (s.dev.f ⟨0x40000104, 16, 1⟩ = 0 → t.dev.f ⟨0x40000104, 8, 4⟩ = 1 ∧ t.dev.rd 0x40000100 = BitVec.ofNat 32 x.addr) ∧
      OnlyRegs [0x40000100, 0x40000104, 0x40000108] s.dev { t.dev with bus := s.dev.bus } ∧
      t.dev.bus = (if x.init = 4 then s.dev.bus else { s.dev.bus with turn := x.init })) ∧
  (∀ (s : State) (x : Access) (at_ : Nat),
      s.dev.coreOn = true → busAllowed x s.dev = true → s.dev.bus.waiting = [] → x.addr % min x.size 4 ≠ 0 →
    ∃ t, exec (.rcRead x at_) s = .next t ∧
      t.dev.out = [.bus x.init 1 0] ∧ t.dev.f ⟨0x40000108, 0, 16⟩ = min (s.dev.f ⟨0x40000108, 0, 16⟩ + 1) 65535 ∧
      (s.dev.f ⟨0x40000104, 16, 1⟩ = 0 → t.dev.f ⟨0x40000104, 8, 4⟩ = 1 ∧ t.dev.rd 0x40000100 = BitVec.ofNat 32 x.addr) ∧
      OnlyRegs [0x40000100, 0x40000104, 0x40000108] s.dev { t.dev with bus := s.dev.bus } ∧
      t.dev.bus = (if x.init = 4 then s.dev.bus else { s.dev.bus with turn := x.init })) ∧
  (∀ (s : State) (x : Access) (at_ : Nat),
      s.dev.coreOn = true → busAllowed x s.dev = true → s.dev.bus.waiting = [] → x.addr % min x.size 4 ≠ 0 →
    ∃ t, exec (.pairLowRead x at_) s = .next t ∧
      t.dev.out = [.bus x.init 1 0] ∧ t.dev.f ⟨0x40000108, 0, 16⟩ = min (s.dev.f ⟨0x40000108, 0, 16⟩ + 1) 65535 ∧
      (s.dev.f ⟨0x40000104, 16, 1⟩ = 0 → t.dev.f ⟨0x40000104, 8, 4⟩ = 1 ∧ t.dev.rd 0x40000100 = BitVec.ofNat 32 x.addr) ∧
      OnlyRegs [0x40000100, 0x40000104, 0x40000108] s.dev { t.dev with bus := s.dev.bus } ∧
      t.dev.bus = (if x.init = 4 then s.dev.bus else { s.dev.bus with turn := x.init }))

/-- Power and reset lead to DORMANT and BOOT as Table MPT-2 says; a mode command, a device reset, a domain request act only where allowed and
are refused else with nothing changed but their bit.
VDD_AON, power-good, RESET_N, the wake timer, a brownout and the loss of VDD_AON; BOOT keeps the journal, records its cause and the mode
left, powers PD_0 and PD_1 alone; its stages run in order, a stage that fails stops it with its code and 10 s later it starts again; a mode
command waits for the next edge or sets MODE_REJ; a DORMANT request needs strings and ports off; a device reset needs its key; domains are
requested, removed and released in ascending order, a request that breaks a rule sets DOM_REJ; a Harbour key is staged in COMMISSION alone.
Rules: R571, R574, R576, R577, R579, R580, R583, R584, R585, R587. -/
def Obligations.PowerModesAndDomains : Prop :=
  (∀ (s : State),
      s.dev.pow.aon = false →
    ∃ t, exec .vddAonUp s = .next t ∧
      t.dev = { s.dev with out := [], pow := { s.dev.pow with aon := true, cause := 1, good := false } }) ∧
  (∀ (s : State),
      s.dev.pow.aon = true →
    ∃ t, exec .vddAonUp s = .next t ∧
      Unmoved s.dev t.dev) ∧
  (∀ (s : State),
      s.dev.saf.burn = none →
    ∃ t, exec .vddAonLoss s = .next t ∧
      t.dev.pow.aon = false ∧ t.dev.regs = [] ∧ t.dev.jrn.slots = [] ∧ t.dev.jrn.flash = s.dev.jrn.flash ∧ t.dev.strings = [] ∧ t.dev.isles = [] ∧
      t.dev.nodes = s.dev.nodes ∧ t.fuses = s.fuses) ∧
  (∀ (s : State) (elapsed : Nat),
      1000 ≤ elapsed → s.dev.mode = 0 → s.dev.pow.aon = true → s.dev.pow.cause ≠ 0 → s.dev.pow.trip = false →
    ∃ t, exec (.powerGood elapsed) s = .next t ∧
      t.dev.mode = 1 ∧ t.dev.f ⟨0x40010004, 24, 4⟩ = s.dev.pow.cause % 16 ∧ t.dev.f ⟨0x40010004, 8, 4⟩ = s.dev.f ⟨0x40010004, 0, 3⟩ ∧
      t.dev.f ⟨0x40010004, 20, 2⟩ = 0 ∧ t.dev.rd 0x4001000C = 3 ∧ t.dev.pow.stage = 1 ∧ t.dev.strings = [] ∧ t.dev.isles = [] ∧
      t.dev.jrn.slots = s.dev.jrn.slots ∧ t.dev.nodes = s.dev.nodes) ∧
  (∀ (s : State) (elapsed : Nat),
      elapsed < 1000 →
    ∃ t, exec (.powerGood elapsed) s = .next t ∧
      Unmoved s.dev t.dev) ∧
  (∀ (s : State) (elapsed : Nat),
      1000 ≤ elapsed → (s.dev.mode ≠ 0 ∨ s.dev.pow.cause = 0) → s.dev.pow.aon = true →
    ∃ t, exec (.powerGood elapsed) s = .next t ∧
      t.dev = { s.dev with out := [], pow := { s.dev.pow with good := true } }) ∧
  (∀ (s : State) (elapsed : Nat),
      elapsed < 2000 →
    ∃ t, exec (.brownout elapsed) s = .next t ∧
      Unmoved s.dev t.dev) ∧
  (∀ (s : State) (elapsed : Nat),
      2000 ≤ elapsed → s.dev.pow.trip = false →
    ∃ t, exec (.brownout elapsed) s = .next t ∧
      t.dev.mode = 0 ∧ t.dev.pow.cause = 6 ∧ t.dev.pow.good = false ∧ t.dev.rd 0x4001000C = 3 ∧
      t.dev.f ⟨0x40010018, 0, 8⟩ = min (s.dev.f ⟨0x40010018, 0, 8⟩ + 1) 255 ∧ t.dev.jrn.slots = s.dev.jrn.slots ∧ t.dev.strings = []) ∧
  (∀ (s : State) (low : Nat),
      1000 ≤ low → s.dev.pow.aon = true → s.dev.pow.held = false → s.dev.pow.trip = false →
    ∃ t, exec (.resetNEdge low) s = .next t ∧
      t.dev.mode = 1 ∧ t.dev.f ⟨0x40010004, 24, 4⟩ = 2 ∧ t.dev.f ⟨0x40010004, 8, 4⟩ = s.dev.f ⟨0x40010004, 0, 3⟩ ∧ t.dev.f ⟨0x40010004, 20, 2⟩ = 0 ∧
      t.dev.rd 0x4001000C = 3 ∧ t.dev.pow.stage = 1 ∧ t.dev.strings = [] ∧ t.dev.isles = [] ∧ t.dev.jrn.slots = s.dev.jrn.slots ∧
      t.dev.nodes = s.dev.nodes) ∧
  (∀ (s : State) (low : Nat),
      low < 1000 →
    ∃ t, exec (.resetNEdge low) s = .next t ∧
      Unmoved s.dev t.dev) ∧
  (∀ (s : State) (elapsed : Nat),
      s.dev.mode = 0 → 0 < s.dev.f ⟨0x40010010, 0, 16⟩ → s.dev.f ⟨0x40010010, 0, 16⟩ ≤ elapsed → s.dev.pow.aon = true → s.dev.pow.good = true →
      s.dev.pow.trip = false →
    ∃ t, exec (.wakeTimer elapsed) s = .next t ∧
      t.dev.mode = 1 ∧ t.dev.f ⟨0x40010004, 24, 4⟩ = (if s.dev.pow.cause = 0 then 7 else s.dev.pow.cause % 16) ∧
      t.dev.f ⟨0x40010004, 8, 4⟩ = s.dev.f ⟨0x40010004, 0, 3⟩ ∧ t.dev.f ⟨0x40010004, 20, 2⟩ = 0 ∧ t.dev.rd 0x4001000C = 3 ∧ t.dev.pow.stage = 1 ∧
      t.dev.strings = [] ∧ t.dev.isles = [] ∧ t.dev.jrn.slots = s.dev.jrn.slots ∧ t.dev.nodes = s.dev.nodes) ∧
  (∀ (s : State) (elapsed : Nat),
      (s.dev.mode ≠ 0 ∨ s.dev.f ⟨0x40010010, 0, 16⟩ = 0 ∨ elapsed < s.dev.f ⟨0x40010010, 0, 16⟩) →
    ∃ t, exec (.wakeTimer elapsed) s = .next t ∧
      Unmoved s.dev t.dev) ∧
  (∀ (s : State),
      s.dev.coreOn = true → 2 ≤ s.dev.mode →
    ∃ t, exec (.deviceReset 0x5254) s = .next t ∧
      t.dev.mode = 1 ∧ t.dev.f ⟨0x40010004, 24, 4⟩ = 3 ∧ t.dev.f ⟨0x40010004, 8, 4⟩ = s.dev.f ⟨0x40010004, 0, 3⟩ ∧ t.dev.f ⟨0x40010004, 20, 2⟩ = 0 ∧
      t.dev.rd 0x4001000C = 3 ∧ t.dev.pow.stage = 1 ∧ t.dev.strings = [] ∧ t.dev.isles = [] ∧ t.dev.jrn.slots = s.dev.jrn.slots ∧
      t.dev.nodes = s.dev.nodes ∧ t.dev.f ⟨0x40010018, 16, 8⟩ = min (s.dev.f ⟨0x40010018, 16, 8⟩ + 1) 255) ∧
  (∀ (s : State) (v : Word),
      s.dev.coreOn = true → v ≠ 0x5254 →
    ∃ t, exec (.deviceReset v) s = .next t ∧
      Unmoved s.dev t.dev) ∧
  (∀ (s : State) (v : BitVec 8),
      s.dev.coreOn = true → modeAllowed v.toNat false s.dev = true →
    ∃ t, exec (.modeCommand v) s = .next t ∧
      t.dev.pow = { s.dev.pow with modeCmd := some v.toNat } ∧ t.dev.mode = s.dev.mode ∧ t.dev.regs = s.dev.regs) ∧
  (∀ (s : State) (v : BitVec 8),
      s.dev.coreOn = true → modeAllowed v.toNat false s.dev = false → (v ≠ 4 ∨ s.dev.mode ≠ 3) →
    ∃ t, exec (.modeCommand v) s = .next t ∧
      t.dev.f ⟨0x40010004, 15, 1⟩ = 1 ∧ OnlyRegs [0x40010004] s.dev t.dev ∧ t.dev.mode = s.dev.mode) ∧
  (∀ (s : State),
      s.dev.coreOn = true → (s.dev.mode = 2 ∨ s.dev.mode = 5) → s.dev.allIdle = true → portsOff s.dev = true →
    ∃ t, exec .dormantReq s = .next t ∧
      t.dev.mode = 0 ∧ t.dev.rd 0x4001000C = 3 ∧ t.dev.pow.cause = 0 ∧ t.dev.jrn.slots = s.dev.jrn.slots) ∧
  (∀ (s : State),
      s.dev.coreOn = true → ((s.dev.mode ≠ 2 ∧ s.dev.mode ≠ 5) ∨ s.dev.allIdle = false ∨ portsOff s.dev = false) →
    ∃ t, exec .dormantReq s = .next t ∧
      t.dev.f ⟨0x40010004, 15, 1⟩ = 1 ∧ OnlyRegs [0x40010004] s.dev t.dev) ∧
  (∀ (s : State) (c : Nat) (bad : List (Nat × Nat)),
      s.dev.mode = 1 → s.dev.pow.stage = 1 → factoryOk bad (s.fuses.mapIdx (loadBank bad)) = true → s.dev.pow.held = false → s.dev.pow.trip = false →
    ∃ t, exec (.bootStageDone (.fuses c bad)) s = .next t ∧
      t.dev.pow.stage = 2 ∧ t.dev.banks = s.fuses.mapIdx (loadBank bad) ∧ t.dev.mode = 1 ∧ t.dev.f ⟨0x4003080C, 0, 16⟩ = min c 65535) ∧
  (∀ (s : State) (c : Nat) (bad : List (Nat × Nat)),
      s.dev.mode = 1 → s.dev.pow.stage = 1 → factoryOk bad (s.fuses.mapIdx (loadBank bad)) = false → s.dev.pow.held = false → s.dev.pow.trip = false →
    ∃ t, exec (.bootStageDone (.fuses c bad)) s = .next t ∧
      t.dev.f ⟨0x40010004, 20, 2⟩ = 1 ∧ t.dev.pow.stage = 0 ∧ t.dev.f ⟨0x40010018, 24, 8⟩ = min (s.dev.f ⟨0x40010018, 24, 8⟩ + 1) 255 ∧ t.dev.mode = 1) ∧
  (∀ (s : State) (a b : List Byte) (x : Nat),
      s.dev.mode = 1 → s.dev.pow.stage = 6 → slotVersion (firmwareHash s.dev) a = some x → s.dev.pow.held = false → s.dev.pow.trip = false →
    ∃ t, exec (.bootStageDone (.firmware a b)) s = .next t ∧
      t.dev.pow.stage = 7 ∧ t.dev.rd 0x40010014 = BitVec.ofNat 32 (match slotVersion (firmwareHash s.dev) b with | some y => max x y | none => x) ∧
      t.dev.f ⟨0x40010004, 19, 1⟩ = (match slotVersion (firmwareHash s.dev) b with | some y => if x < y then 1 else 0 | none => 0) ∧
      t.dev.f ⟨0x40010004, 18, 1⟩ = (match slotVersion (firmwareHash s.dev) b with | some _ => s.dev.f ⟨0x40010004, 18, 1⟩ | none => 1)) ∧
  (∀ (s : State) (a b : List Byte) (y : Nat),
      s.dev.mode = 1 → s.dev.pow.stage = 6 → slotVersion (firmwareHash s.dev) a = none → slotVersion (firmwareHash s.dev) b = some y →
      s.dev.pow.held = false → s.dev.pow.trip = false →
    ∃ t, exec (.bootStageDone (.firmware a b)) s = .next t ∧
      t.dev.pow.stage = 7 ∧ t.dev.rd 0x40010014 = BitVec.ofNat 32 y ∧ t.dev.f ⟨0x40010004, 19, 1⟩ = 1 ∧ t.dev.f ⟨0x40010004, 18, 1⟩ = 1) ∧
  (∀ (s : State) (a b : List Byte),
      s.dev.mode = 1 → s.dev.pow.stage = 6 → slotVersion (firmwareHash s.dev) a = none → slotVersion (firmwareHash s.dev) b = none →
      s.dev.pow.held = false → s.dev.pow.trip = false →
    ∃ t, exec (.bootStageDone (.firmware a b)) s = .next t ∧
      t.dev.f ⟨0x40010004, 20, 2⟩ = 3 ∧ t.dev.pow.stage = 0) ∧
  (∀ (s : State) (e : BootEvent),
      s.dev.mode ≠ 1 →
    ∃ t, exec (.bootStageDone e) s = .next t ∧
      Unmoved s.dev t.dev) ∧
  (∀ (s : State) (elapsed : Nat),
      s.dev.mode = 1 → s.dev.f ⟨0x40010004, 20, 2⟩ ≠ 0 → 10 ≤ elapsed →
    ∃ t, exec (.bootRetry elapsed) s = .next t ∧
      t.dev.mode = 1 ∧ t.dev.f ⟨0x40010004, 24, 4⟩ = s.dev.f ⟨0x40010004, 24, 4⟩ ∧ t.dev.f ⟨0x40010004, 8, 4⟩ = s.dev.f ⟨0x40010004, 8, 4⟩ ∧
      t.dev.f ⟨0x40010004, 20, 2⟩ = 0 ∧ t.dev.rd 0x4001000C = 3 ∧ t.dev.pow.stage = 1 ∧ t.dev.strings = [] ∧ t.dev.isles = [] ∧
      t.dev.jrn.slots = s.dev.jrn.slots ∧ t.dev.nodes = s.dev.nodes) ∧
  (∀ (s : State) (elapsed : Nat),
      (s.dev.mode ≠ 1 ∨ s.dev.f ⟨0x40010004, 20, 2⟩ = 0 ∨ elapsed < 10) →
    ∃ t, exec (.bootRetry elapsed) s = .next t ∧
      Unmoved s.dev t.dev) ∧
  (∀ (s : State) (v : Word) (at_ : Nat),
      domainsOk (fget v 0 12 / 16 * 16) s.dev = false → s.dev.bus.waiting = [] →
    ∃ t, exec (.domainRequest v at_) s = .next t ∧
      t.dev.f ⟨0x40010004, 16, 1⟩ = 1 ∧ OnlyRegs [0x40010004] s.dev t.dev) ∧
  (∀ (s : State) (v : Word) (at_ : Nat),
      domainsOk (fget v 0 12 / 16 * 16) s.dev = true → s.dev.bus.waiting = [] → (∀ i < 8, s.dev.domOn (4 + i) = true → v.getLsbD (4 + i) = true) →
    ∃ t, exec (.domainRequest v at_) s = .next t ∧
      t.dev.f ⟨0x40010008, 4, 8⟩ = fget v 4 8 ∧
      t.dev.pow = { s.dev.pow with rising := ((List.range 8).map (· + 4)).filter fun n => v.getLsbD n && !s.dev.domOn n } ∧
      OnlyRegs [0x40010008] s.dev { t.dev with pow := s.dev.pow }) ∧
  (∀ (s : State) (at_ n : Nat) (l : List Nat),
      s.dev.coreOn = true → s.dev.pow.rising = n :: l → 4 ≤ n → n ≤ 11 → s.dev.bus.waiting = [] →
    ∃ t, exec (.domainReleased at_) s = .next t ∧
      t.dev.domOn n = true ∧ t.dev.pow = { s.dev.pow with rising := l } ∧ (∀ m, m ≠ n → t.dev.domOn m = s.dev.domOn m) ∧ t.dev.strings = s.dev.strings) ∧
  (∀ (s : State) (at_ : Nat),
      s.dev.coreOn = true → s.dev.pow.rising = [] →
    ∃ t, exec (.domainReleased at_) s = .next t ∧
      Unmoved s.dev t.dev) ∧
  (∀ (s : State) (k : List Byte),
      s.dev.coreOn = true → s.dev.mode = 2 → k.length = 32 →
    ∃ t, exec (.harbourKeyWrite k) s = .next t ∧
      t.dev = { s.dev with out := [], saf := { s.dev.saf with key := some k } }) ∧
  (∀ (s : State) (k : List Byte),
      s.dev.coreOn = true → s.dev.mode ≠ 2 →
    ∃ t, exec (.harbourKeyWrite k) s = .next t ∧
      Unmoved s.dev t.dev)

/-- A round shows its readings and their validity; the warning is set after two hot rounds and clears after ten cool ones; a trip takes the
outputs, then the lanes, then the domains, and ends 1 s after both sensors are cool.
a round stores each temperature with its valid bit and the highest valid one as Tj; WARN is set where its cause stands and cleared where
none stands; the trip drives every port off and sends HALT four times on every enabled ring, in DORMANT it is counted alone; 2 µs later
every lane stops, 5 µs later PD_2 to PD_11 are removed; after 1 s the device enters BOOT with cause THERMAL.
Rules: R588, R589, R590, R591, R592. -/
def Obligations.TemperatureIsGuarded : Prop :=
  (∀ (s : State) (v : List Int) (vpp : Bool),
      s.dev.coreOn = true → s.dev.saf.burn = none → v.length = 32 → (∀ i < 8, v.getD i 0 = v.getD 0 0) → -240 ≤ v.getD 0 0 → v.getD 0 0 ≤ 720 →
      s.dev.pow.round = 0 →
    ∃ t, exec (.housekeepingRound v vpp) s = .next t ∧
      (∀ i < 8, t.dev.rd (0x40020008 + 4 * i) = BitVec.ofNat 32 (unsigned 12 (v.getD 0 0) + 0x8000)) ∧ t.dev.sf ⟨0x40020028, 0, 12⟩ = v.getD 0 0 ∧
      (t.dev.f ⟨0x40010004, 17, 1⟩ = if vpp then 1 else 0) ∧ t.dev.pow.round = 1 ∧ t.dev.pow.few = false ∧
      t.dev.f ⟨0x40010024, 0, 16⟩ = (v.getD 9 0).toNat % 65536 ∧ t.dev.strings = s.dev.strings) ∧
  (∀ (s : State) (v : List Int) (vpp : Bool),
      s.dev.coreOn = true → s.dev.saf.burn = none → (∀ i < 7, v.getD i 0 = v.getD 0 0) → (v.getD 7 0 - v.getD 0 0).natAbs > 100 → -240 ≤ v.getD 0 0 →
      v.getD 0 0 ≤ 720 →
    ∃ t, exec (.housekeepingRound v vpp) s = .next t ∧
      t.dev.f ⟨0x40020004, 5, 1⟩ = 1 ∧ t.dev.f ⟨0x40020024, 15, 1⟩ = 0 ∧ t.dev.f ⟨0x4002004C, 16, 8⟩ = min (s.dev.f ⟨0x4002004C, 16, 8⟩ + 1) 255 ∧
      t.dev.sf ⟨0x40020028, 0, 12⟩ = v.getD 0 0) ∧
  (∀ (s : State),
      s.dev.coreOn = true → s.dev.f ⟨0x40020004, 0, 1⟩ = 0 → (2 ≤ s.dev.pow.hot ∨ s.dev.pow.few = true ∨ s.dev.f ⟨0x40020004, 6, 1⟩ = 1) →
    ∃ t, exec .thermalWarning s = .next t ∧
      t.dev.f ⟨0x40020004, 0, 1⟩ = 1 ∧ t.dev.f ⟨0x40020004, 1, 1⟩ = 1 ∧ t.dev.f ⟨0x4002004C, 0, 8⟩ = min (s.dev.f ⟨0x4002004C, 0, 8⟩ + 1) 255 ∧
      t.dev.pow = s.dev.pow ∧ t.dev.mode = s.dev.mode) ∧
  (∀ (s : State),
      s.dev.coreOn = true → (s.dev.f ⟨0x40020004, 0, 1⟩ = 1 ∨ (s.dev.pow.hot < 2 ∧ s.dev.pow.few = false ∧ s.dev.f ⟨0x40020004, 6, 1⟩ = 0)) →
    ∃ t, exec .thermalWarning s = .next t ∧
      Unmoved s.dev t.dev) ∧
  (∀ (s : State),
      s.dev.coreOn = true → s.dev.f ⟨0x40020004, 0, 1⟩ = 1 → 10 ≤ s.dev.pow.cool → s.dev.pow.few = false → s.dev.f ⟨0x40020004, 6, 1⟩ = 0 →
    ∃ t, exec .thermalWarningClear s = .next t ∧
      t.dev.f ⟨0x40020004, 0, 1⟩ = 0 ∧ t.dev.f ⟨0x40020004, 1, 1⟩ = s.dev.f ⟨0x40020004, 1, 1⟩ ∧ t.dev.pow = s.dev.pow) ∧
  (∀ (s : State),
      s.dev.coreOn = true → (s.dev.f ⟨0x40020004, 0, 1⟩ = 0 ∨ s.dev.pow.cool < 10 ∨ s.dev.pow.few = true ∨ s.dev.f ⟨0x40020004, 6, 1⟩ = 1) →
    ∃ t, exec .thermalWarningClear s = .next t ∧
      Unmoved s.dev t.dev) ∧
  (∀ (s : State) (elapsed : Nat),
      elapsed < 10 →
    ∃ t, exec (.thermalShutdown elapsed) s = .next t ∧
      Unmoved s.dev t.dev) ∧
  (∀ (s : State) (elapsed : Nat),
      10 ≤ elapsed → s.dev.mode ≠ 0 → s.dev.pow.trip = false →
    ∃ t, exec (.thermalShutdown elapsed) s = .next t ∧
      t.dev.pow.trip = true ∧ t.dev.red.aliveOut = false ∧ (∀ r < 16, t.dev.out.countP (· == Out.haltAll r) = if s.dev.flag (nrwEn r) then 4 else 0) ∧
      t.dev.f ⟨0x40010018, 8, 8⟩ = min (s.dev.f ⟨0x40010018, 8, 8⟩ + 1) 255 ∧ (∀ p < 4, (t.dev.port p).phases = [] ∧ (t.dev.port p).cur = none)) ∧
  (∀ (s : State) (elapsed : Nat),
      10 ≤ elapsed → (s.dev.mode = 0 ∨ s.dev.pow.trip = true) →
    ∃ t, exec (.thermalShutdown elapsed) s = .next t ∧
      t.dev.f ⟨0x40010018, 8, 8⟩ = min (s.dev.f ⟨0x40010018, 8, 8⟩ + 1) 255 ∧ OnlyRegs [0x40010018] s.dev t.dev) ∧
  (∀ (s : State),
      s.dev.pow.trip = true → s.dev.pow.lanesOff = false →
    ∃ t, exec .thermalLaneStop s = .next t ∧
      t.dev.pow = { s.dev.pow with lanesOff := true } ∧ (∀ n < 24, t.dev.f (txMode n) = 0)) ∧
  (∀ (s : State),
      (s.dev.pow.trip = false ∨ s.dev.pow.lanesOff = true) →
    ∃ t, exec .thermalLaneStop s = .next t ∧
      Unmoved s.dev t.dev) ∧
  (∀ (s : State),
      s.dev.pow.trip = true →
    ∃ t, exec .thermalDomainRemove s = .next t ∧
      t.dev.rd 0x4001000C = 3 ∧ t.dev.strings = [] ∧ t.dev.isles = [] ∧ t.dev.mode = s.dev.mode ∧ t.dev.jrn.slots = s.dev.jrn.slots) ∧
  (∀ (s : State),
      s.dev.pow.trip = false →
    ∃ t, exec .thermalDomainRemove s = .next t ∧
      Unmoved s.dev t.dev) ∧
  (∀ (s : State) (elapsed : Nat),
      s.dev.pow.trip = true → 1000 ≤ elapsed → s.dev.mode ≠ 0 → s.dev.pow.held = false →
    ∃ t, exec (.thermalRelease elapsed) s = .next t ∧
      t.dev.mode = 1 ∧ t.dev.f ⟨0x40010004, 24, 4⟩ = 5 ∧ t.dev.f ⟨0x40010004, 8, 4⟩ = s.dev.mode ∧ t.dev.pow.trip = false ∧ t.dev.pow.stage = 1) ∧
  (∀ (s : State) (elapsed : Nat),
      (s.dev.pow.trip = false ∨ elapsed < 1000) →
    ∃ t, exec (.thermalRelease elapsed) s = .next t ∧
      Unmoved s.dev t.dev)

/-- At an edge the tick number goes up by one and TIME64 by one period, a guard written takes effect, and an accepted mode command is carried
out; without a tick nothing happens.
while the tick line runs, with no step of the line, change of period, epoch or merge due, k, TIME64 and the count of 2.5 ns steps go on by
one tick and the epoch stays; a guard written takes effect; a SAFE command accepted in an unpaired STANDBY or RUN is in force from the edge,
and one that the table no longer allows is refused; while PD_2 is off, the device held or in DORMANT nothing moves.
Rules: R38, R54, R571. -/
def Obligations.TickEdgesAdvanceTheLine : Prop :=
  (∀ (s : State) (rival : Bool) (hm : BitVec 16),
      s.dev.coreOn = true → s.dev.domOn 2 = true → s.dev.pow.held = false → s.dev.mode ≠ 0 → s.dev.tide.line = none → s.dev.tide.pendT = none →
      s.dev.tide.next = none → s.dev.fab.merge = none →
    ∃ t, exec (.tickEdge rival hm) s = .next t ∧
      t.dev.tide.k = (s.dev.tide.k + 1) % 2 ^ 48 ∧ t.dev.tide.time = s.dev.tide.time + 5 * s.dev.tide.period ∧
      t.dev.tide.abs = s.dev.tide.abs + s.dev.tc ∧ t.dev.tide.epoch = s.dev.tide.epoch ∧ t.dev.tide.period = s.dev.tide.period ∧
      t.dev.tide.guard = s.dev.tide.pendGuard.getD s.dev.tide.guard) ∧
  (∀ (s : State) (rival : Bool) (hm : BitVec 16),
      s.dev.coreOn = true → s.dev.domOn 2 = true → s.dev.pow.held = false → (s.dev.mode = 3 ∨ s.dev.mode = 4) → s.dev.red.paired = false →
      s.dev.pow.autoRun = false → s.dev.pow.modeCmd = some 5 →
    ∃ t, exec (.tickEdge rival hm) s = .next t ∧
      t.dev.mode = 5 ∧ t.dev.pow.modeCmd = none) ∧
  (∀ (s : State) (rival : Bool) (hm : BitVec 16),
      s.dev.coreOn = true → s.dev.domOn 2 = true → s.dev.pow.held = false → s.dev.mode = 2 → s.dev.red.paired = false → s.dev.pow.modeCmd = some 4 →
    ∃ t, exec (.tickEdge rival hm) s = .next t ∧
      t.dev.mode = 2 ∧ t.dev.pow.modeCmd = none ∧ t.dev.f ⟨0x40010004, 15, 1⟩ = 1) ∧
  (∀ (s : State) (rival : Bool) (hm : BitVec 16),
      s.dev.coreOn = true → (s.dev.domOn 2 = false ∨ s.dev.pow.held = true ∨ s.dev.mode = 0) →
    ∃ t, exec (.tickEdge rival hm) s = .next t ∧
      Unmoved s.dev t.dev)
end

