-- ==== Sys2Proof/Laws/State.lean ====
section
/-! SUPPORT. What each update of the device leaves alone: one law for each field and update. -/
namespace Sys2Proof.Machine

/-! ### `Dev.wr` changes `regs` alone -/
@[simp] theorem Dev.wr_draws (d : Dev) (a : Nat) (v : Word) : (d.wr a v).draws = d.draws := rfl
@[simp] theorem Dev.wr_out (d : Dev) (a : Nat) (v : Word) : (d.wr a v).out = d.out := rfl
@[simp] theorem Dev.wr_tide (d : Dev) (a : Nat) (v : Word) : (d.wr a v).tide = d.tide := rfl
@[simp] theorem Dev.wr_jrn (d : Dev) (a : Nat) (v : Word) : (d.wr a v).jrn = d.jrn := rfl
@[simp] theorem Dev.wr_isles (d : Dev) (a : Nat) (v : Word) : (d.wr a v).isles = d.isles := rfl
@[simp] theorem Dev.wr_strings (d : Dev) (a : Nat) (v : Word) : (d.wr a v).strings = d.strings := rfl
@[simp] theorem Dev.wr_plan (d : Dev) (a : Nat) (v : Word) : (d.wr a v).plan = d.plan := rfl
@[simp] theorem Dev.wr_rings (d : Dev) (a : Nat) (v : Word) : (d.wr a v).rings = d.rings := rfl
@[simp] theorem Dev.wr_nodes (d : Dev) (a : Nat) (v : Word) : (d.wr a v).nodes = d.nodes := rfl
@[simp] theorem Dev.wr_lanes (d : Dev) (a : Nat) (v : Word) : (d.wr a v).lanes = d.lanes := rfl
@[simp] theorem Dev.wr_ctlTotals (d : Dev) (a : Nat) (v : Word) : (d.wr a v).ctlTotals = d.ctlTotals := rfl
@[simp] theorem Dev.wr_efTotals (d : Dev) (a : Nat) (v : Word) : (d.wr a v).efTotals = d.efTotals := rfl
@[simp] theorem Dev.wr_adc (d : Dev) (a : Nat) (v : Word) : (d.wr a v).adc = d.adc := rfl
@[simp] theorem Dev.wr_encs (d : Dev) (a : Nat) (v : Word) : (d.wr a v).encs = d.encs := rfl
@[simp] theorem Dev.wr_ports (d : Dev) (a : Nat) (v : Word) : (d.wr a v).ports = d.ports := rfl
@[simp] theorem Dev.wr_saf (d : Dev) (a : Nat) (v : Word) : (d.wr a v).saf = d.saf := rfl
@[simp] theorem Dev.wr_banks (d : Dev) (a : Nat) (v : Word) : (d.wr a v).banks = d.banks := rfl
@[simp] theorem Dev.wr_caps (d : Dev) (a : Nat) (v : Word) : (d.wr a v).caps = d.caps := rfl
@[simp] theorem Dev.wr_fab (d : Dev) (a : Nat) (v : Word) : (d.wr a v).fab = d.fab := rfl
@[simp] theorem Dev.wr_red (d : Dev) (a : Nat) (v : Word) : (d.wr a v).red = d.red := rfl
@[simp] theorem Dev.wr_host (d : Dev) (a : Nat) (v : Word) : (d.wr a v).host = d.host := rfl
@[simp] theorem Dev.wr_pow (d : Dev) (a : Nat) (v : Word) : (d.wr a v).pow = d.pow := rfl
@[simp] theorem Dev.wr_bus (d : Dev) (a : Nat) (v : Word) : (d.wr a v).bus = d.bus := rfl

/-! ### `Dev.setF` changes `regs` alone -/
@[simp] theorem Dev.setF_draws (d : Dev) (x : Fld) (v : Nat) : (d.setF x v).draws = d.draws := rfl
@[simp] theorem Dev.setF_out (d : Dev) (x : Fld) (v : Nat) : (d.setF x v).out = d.out := rfl
@[simp] theorem Dev.setF_tide (d : Dev) (x : Fld) (v : Nat) : (d.setF x v).tide = d.tide := rfl
@[simp] theorem Dev.setF_jrn (d : Dev) (x : Fld) (v : Nat) : (d.setF x v).jrn = d.jrn := rfl
@[simp] theorem Dev.setF_isles (d : Dev) (x : Fld) (v : Nat) : (d.setF x v).isles = d.isles := rfl
@[simp] theorem Dev.setF_strings (d : Dev) (x : Fld) (v : Nat) : (d.setF x v).strings = d.strings := rfl
@[simp] theorem Dev.setF_plan (d : Dev) (x : Fld) (v : Nat) : (d.setF x v).plan = d.plan := rfl
@[simp] theorem Dev.setF_rings (d : Dev) (x : Fld) (v : Nat) : (d.setF x v).rings = d.rings := rfl
@[simp] theorem Dev.setF_nodes (d : Dev) (x : Fld) (v : Nat) : (d.setF x v).nodes = d.nodes := rfl
@[simp] theorem Dev.setF_lanes (d : Dev) (x : Fld) (v : Nat) : (d.setF x v).lanes = d.lanes := rfl
@[simp] theorem Dev.setF_ctlTotals (d : Dev) (x : Fld) (v : Nat) : (d.setF x v).ctlTotals = d.ctlTotals := rfl
@[simp] theorem Dev.setF_efTotals (d : Dev) (x : Fld) (v : Nat) : (d.setF x v).efTotals = d.efTotals := rfl
@[simp] theorem Dev.setF_adc (d : Dev) (x : Fld) (v : Nat) : (d.setF x v).adc = d.adc := rfl
@[simp] theorem Dev.setF_encs (d : Dev) (x : Fld) (v : Nat) : (d.setF x v).encs = d.encs := rfl
@[simp] theorem Dev.setF_ports (d : Dev) (x : Fld) (v : Nat) : (d.setF x v).ports = d.ports := rfl
@[simp] theorem Dev.setF_saf (d : Dev) (x : Fld) (v : Nat) : (d.setF x v).saf = d.saf := rfl
@[simp] theorem Dev.setF_banks (d : Dev) (x : Fld) (v : Nat) : (d.setF x v).banks = d.banks := rfl
@[simp] theorem Dev.setF_caps (d : Dev) (x : Fld) (v : Nat) : (d.setF x v).caps = d.caps := rfl
@[simp] theorem Dev.setF_fab (d : Dev) (x : Fld) (v : Nat) : (d.setF x v).fab = d.fab := rfl
@[simp] theorem Dev.setF_red (d : Dev) (x : Fld) (v : Nat) : (d.setF x v).red = d.red := rfl
@[simp] theorem Dev.setF_host (d : Dev) (x : Fld) (v : Nat) : (d.setF x v).host = d.host := rfl
@[simp] theorem Dev.setF_pow (d : Dev) (x : Fld) (v : Nat) : (d.setF x v).pow = d.pow := rfl
@[simp] theorem Dev.setF_bus (d : Dev) (x : Fld) (v : Nat) : (d.setF x v).bus = d.bus := rfl

/-! ### `Dev.raise` changes `regs` alone -/
@[simp] theorem Dev.raise_draws (d : Dev) (x : Fld) : (d.raise x).draws = d.draws := rfl
@[simp] theorem Dev.raise_out (d : Dev) (x : Fld) : (d.raise x).out = d.out := rfl
@[simp] theorem Dev.raise_tide (d : Dev) (x : Fld) : (d.raise x).tide = d.tide := rfl
@[simp] theorem Dev.raise_jrn (d : Dev) (x : Fld) : (d.raise x).jrn = d.jrn := rfl
@[simp] theorem Dev.raise_isles (d : Dev) (x : Fld) : (d.raise x).isles = d.isles := rfl
@[simp] theorem Dev.raise_strings (d : Dev) (x : Fld) : (d.raise x).strings = d.strings := rfl
@[simp] theorem Dev.raise_plan (d : Dev) (x : Fld) : (d.raise x).plan = d.plan := rfl
@[simp] theorem Dev.raise_rings (d : Dev) (x : Fld) : (d.raise x).rings = d.rings := rfl
@[simp] theorem Dev.raise_nodes (d : Dev) (x : Fld) : (d.raise x).nodes = d.nodes := rfl
@[simp] theorem Dev.raise_lanes (d : Dev) (x : Fld) : (d.raise x).lanes = d.lanes := rfl
@[simp] theorem Dev.raise_ctlTotals (d : Dev) (x : Fld) : (d.raise x).ctlTotals = d.ctlTotals := rfl
@[simp] theorem Dev.raise_efTotals (d : Dev) (x : Fld) : (d.raise x).efTotals = d.efTotals := rfl
@[simp] theorem Dev.raise_adc (d : Dev) (x : Fld) : (d.raise x).adc = d.adc := rfl
@[simp] theorem Dev.raise_encs (d : Dev) (x : Fld) : (d.raise x).encs = d.encs := rfl
@[simp] theorem Dev.raise_ports (d : Dev) (x : Fld) : (d.raise x).ports = d.ports := rfl
@[simp] theorem Dev.raise_saf (d : Dev) (x : Fld) : (d.raise x).saf = d.saf := rfl
@[simp] theorem Dev.raise_banks (d : Dev) (x : Fld) : (d.raise x).banks = d.banks := rfl
@[simp] theorem Dev.raise_caps (d : Dev) (x : Fld) : (d.raise x).caps = d.caps := rfl
@[simp] theorem Dev.raise_fab (d : Dev) (x : Fld) : (d.raise x).fab = d.fab := rfl
@[simp] theorem Dev.raise_red (d : Dev) (x : Fld) : (d.raise x).red = d.red := rfl
@[simp] theorem Dev.raise_host (d : Dev) (x : Fld) : (d.raise x).host = d.host := rfl
@[simp] theorem Dev.raise_pow (d : Dev) (x : Fld) : (d.raise x).pow = d.pow := rfl
@[simp] theorem Dev.raise_bus (d : Dev) (x : Fld) : (d.raise x).bus = d.bus := rfl

/-! ### `Dev.lower` changes `regs` alone -/
@[simp] theorem Dev.lower_draws (d : Dev) (x : Fld) : (d.lower x).draws = d.draws := rfl
@[simp] theorem Dev.lower_out (d : Dev) (x : Fld) : (d.lower x).out = d.out := rfl
@[simp] theorem Dev.lower_tide (d : Dev) (x : Fld) : (d.lower x).tide = d.tide := rfl
@[simp] theorem Dev.lower_jrn (d : Dev) (x : Fld) : (d.lower x).jrn = d.jrn := rfl
@[simp] theorem Dev.lower_isles (d : Dev) (x : Fld) : (d.lower x).isles = d.isles := rfl
@[simp] theorem Dev.lower_strings (d : Dev) (x : Fld) : (d.lower x).strings = d.strings := rfl
@[simp] theorem Dev.lower_plan (d : Dev) (x : Fld) : (d.lower x).plan = d.plan := rfl
@[simp] theorem Dev.lower_rings (d : Dev) (x : Fld) : (d.lower x).rings = d.rings := rfl
@[simp] theorem Dev.lower_nodes (d : Dev) (x : Fld) : (d.lower x).nodes = d.nodes := rfl
@[simp] theorem Dev.lower_lanes (d : Dev) (x : Fld) : (d.lower x).lanes = d.lanes := rfl
@[simp] theorem Dev.lower_ctlTotals (d : Dev) (x : Fld) : (d.lower x).ctlTotals = d.ctlTotals := rfl
@[simp] theorem Dev.lower_efTotals (d : Dev) (x : Fld) : (d.lower x).efTotals = d.efTotals := rfl
@[simp] theorem Dev.lower_adc (d : Dev) (x : Fld) : (d.lower x).adc = d.adc := rfl
@[simp] theorem Dev.lower_encs (d : Dev) (x : Fld) : (d.lower x).encs = d.encs := rfl
@[simp] theorem Dev.lower_ports (d : Dev) (x : Fld) : (d.lower x).ports = d.ports := rfl
@[simp] theorem Dev.lower_saf (d : Dev) (x : Fld) : (d.lower x).saf = d.saf := rfl
@[simp] theorem Dev.lower_banks (d : Dev) (x : Fld) : (d.lower x).banks = d.banks := rfl
@[simp] theorem Dev.lower_caps (d : Dev) (x : Fld) : (d.lower x).caps = d.caps := rfl
@[simp] theorem Dev.lower_fab (d : Dev) (x : Fld) : (d.lower x).fab = d.fab := rfl
@[simp] theorem Dev.lower_red (d : Dev) (x : Fld) : (d.lower x).red = d.red := rfl
@[simp] theorem Dev.lower_host (d : Dev) (x : Fld) : (d.lower x).host = d.host := rfl
@[simp] theorem Dev.lower_pow (d : Dev) (x : Fld) : (d.lower x).pow = d.pow := rfl
@[simp] theorem Dev.lower_bus (d : Dev) (x : Fld) : (d.lower x).bus = d.bus := rfl

/-! ### `Dev.count` changes `regs` alone -/
@[simp] theorem Dev.count_draws (d : Dev) (x : Fld) (n : Nat) : (d.count x n).draws = d.draws := rfl
@[simp] theorem Dev.count_out (d : Dev) (x : Fld) (n : Nat) : (d.count x n).out = d.out := rfl
@[simp] theorem Dev.count_tide (d : Dev) (x : Fld) (n : Nat) : (d.count x n).tide = d.tide := rfl
@[simp] theorem Dev.count_jrn (d : Dev) (x : Fld) (n : Nat) : (d.count x n).jrn = d.jrn := rfl
@[simp] theorem Dev.count_isles (d : Dev) (x : Fld) (n : Nat) : (d.count x n).isles = d.isles := rfl
@[simp] theorem Dev.count_strings (d : Dev) (x : Fld) (n : Nat) : (d.count x n).strings = d.strings := rfl
@[simp] theorem Dev.count_plan (d : Dev) (x : Fld) (n : Nat) : (d.count x n).plan = d.plan := rfl
@[simp] theorem Dev.count_rings (d : Dev) (x : Fld) (n : Nat) : (d.count x n).rings = d.rings := rfl
@[simp] theorem Dev.count_nodes (d : Dev) (x : Fld) (n : Nat) : (d.count x n).nodes = d.nodes := rfl
@[simp] theorem Dev.count_lanes (d : Dev) (x : Fld) (n : Nat) : (d.count x n).lanes = d.lanes := rfl
@[simp] theorem Dev.count_ctlTotals (d : Dev) (x : Fld) (n : Nat) : (d.count x n).ctlTotals = d.ctlTotals := rfl
@[simp] theorem Dev.count_efTotals (d : Dev) (x : Fld) (n : Nat) : (d.count x n).efTotals = d.efTotals := rfl
@[simp] theorem Dev.count_adc (d : Dev) (x : Fld) (n : Nat) : (d.count x n).adc = d.adc := rfl
@[simp] theorem Dev.count_encs (d : Dev) (x : Fld) (n : Nat) : (d.count x n).encs = d.encs := rfl
@[simp] theorem Dev.count_ports (d : Dev) (x : Fld) (n : Nat) : (d.count x n).ports = d.ports := rfl
@[simp] theorem Dev.count_saf (d : Dev) (x : Fld) (n : Nat) : (d.count x n).saf = d.saf := rfl
@[simp] theorem Dev.count_banks (d : Dev) (x : Fld) (n : Nat) : (d.count x n).banks = d.banks := rfl
@[simp] theorem Dev.count_caps (d : Dev) (x : Fld) (n : Nat) : (d.count x n).caps = d.caps := rfl
@[simp] theorem Dev.count_fab (d : Dev) (x : Fld) (n : Nat) : (d.count x n).fab = d.fab := rfl
@[simp] theorem Dev.count_red (d : Dev) (x : Fld) (n : Nat) : (d.count x n).red = d.red := rfl
@[simp] theorem Dev.count_host (d : Dev) (x : Fld) (n : Nat) : (d.count x n).host = d.host := rfl
@[simp] theorem Dev.count_pow (d : Dev) (x : Fld) (n : Nat) : (d.count x n).pow = d.pow := rfl
@[simp] theorem Dev.count_bus (d : Dev) (x : Fld) (n : Nat) : (d.count x n).bus = d.bus := rfl

/-! ### `Dev.emit` changes `out` alone -/
@[simp] theorem Dev.emit_regs (d : Dev) (o : Out) : (d.emit o).regs = d.regs := rfl
@[simp] theorem Dev.emit_draws (d : Dev) (o : Out) : (d.emit o).draws = d.draws := rfl
@[simp] theorem Dev.emit_tide (d : Dev) (o : Out) : (d.emit o).tide = d.tide := rfl
@[simp] theorem Dev.emit_jrn (d : Dev) (o : Out) : (d.emit o).jrn = d.jrn := rfl
@[simp] theorem Dev.emit_isles (d : Dev) (o : Out) : (d.emit o).isles = d.isles := rfl
@[simp] theorem Dev.emit_strings (d : Dev) (o : Out) : (d.emit o).strings = d.strings := rfl
@[simp] theorem Dev.emit_plan (d : Dev) (o : Out) : (d.emit o).plan = d.plan := rfl
@[simp] theorem Dev.emit_rings (d : Dev) (o : Out) : (d.emit o).rings = d.rings := rfl
@[simp] theorem Dev.emit_nodes (d : Dev) (o : Out) : (d.emit o).nodes = d.nodes := rfl
@[simp] theorem Dev.emit_lanes (d : Dev) (o : Out) : (d.emit o).lanes = d.lanes := rfl
@[simp] theorem Dev.emit_ctlTotals (d : Dev) (o : Out) : (d.emit o).ctlTotals = d.ctlTotals := rfl
@[simp] theorem Dev.emit_efTotals (d : Dev) (o : Out) : (d.emit o).efTotals = d.efTotals := rfl
@[simp] theorem Dev.emit_adc (d : Dev) (o : Out) : (d.emit o).adc = d.adc := rfl
@[simp] theorem Dev.emit_encs (d : Dev) (o : Out) : (d.emit o).encs = d.encs := rfl
@[simp] theorem Dev.emit_ports (d : Dev) (o : Out) : (d.emit o).ports = d.ports := rfl
@[simp] theorem Dev.emit_saf (d : Dev) (o : Out) : (d.emit o).saf = d.saf := rfl
@[simp] theorem Dev.emit_banks (d : Dev) (o : Out) : (d.emit o).banks = d.banks := rfl
@[simp] theorem Dev.emit_caps (d : Dev) (o : Out) : (d.emit o).caps = d.caps := rfl
@[simp] theorem Dev.emit_fab (d : Dev) (o : Out) : (d.emit o).fab = d.fab := rfl
@[simp] theorem Dev.emit_red (d : Dev) (o : Out) : (d.emit o).red = d.red := rfl
@[simp] theorem Dev.emit_host (d : Dev) (o : Out) : (d.emit o).host = d.host := rfl
@[simp] theorem Dev.emit_pow (d : Dev) (o : Out) : (d.emit o).pow = d.pow := rfl
@[simp] theorem Dev.emit_bus (d : Dev) (o : Out) : (d.emit o).bus = d.bus := rfl

/-! ### `Dev.setIsle` changes `isles` alone -/
@[simp] theorem Dev.setIsle_regs (d : Dev) (n : Nat) (u : IsleU) : (d.setIsle n u).regs = d.regs := rfl
@[simp] theorem Dev.setIsle_draws (d : Dev) (n : Nat) (u : IsleU) : (d.setIsle n u).draws = d.draws := rfl
@[simp] theorem Dev.setIsle_out (d : Dev) (n : Nat) (u : IsleU) : (d.setIsle n u).out = d.out := rfl
@[simp] theorem Dev.setIsle_tide (d : Dev) (n : Nat) (u : IsleU) : (d.setIsle n u).tide = d.tide := rfl
@[simp] theorem Dev.setIsle_jrn (d : Dev) (n : Nat) (u : IsleU) : (d.setIsle n u).jrn = d.jrn := rfl
@[simp] theorem Dev.setIsle_strings (d : Dev) (n : Nat) (u : IsleU) : (d.setIsle n u).strings = d.strings := rfl
@[simp] theorem Dev.setIsle_plan (d : Dev) (n : Nat) (u : IsleU) : (d.setIsle n u).plan = d.plan := rfl
@[simp] theorem Dev.setIsle_rings (d : Dev) (n : Nat) (u : IsleU) : (d.setIsle n u).rings = d.rings := rfl
@[simp] theorem Dev.setIsle_nodes (d : Dev) (n : Nat) (u : IsleU) : (d.setIsle n u).nodes = d.nodes := rfl
@[simp] theorem Dev.setIsle_lanes (d : Dev) (n : Nat) (u : IsleU) : (d.setIsle n u).lanes = d.lanes := rfl
@[simp] theorem Dev.setIsle_ctlTotals (d : Dev) (n : Nat) (u : IsleU) : (d.setIsle n u).ctlTotals = d.ctlTotals := rfl
@[simp] theorem Dev.setIsle_efTotals (d : Dev) (n : Nat) (u : IsleU) : (d.setIsle n u).efTotals = d.efTotals := rfl
@[simp] theorem Dev.setIsle_adc (d : Dev) (n : Nat) (u : IsleU) : (d.setIsle n u).adc = d.adc := rfl
@[simp] theorem Dev.setIsle_encs (d : Dev) (n : Nat) (u : IsleU) : (d.setIsle n u).encs = d.encs := rfl
@[simp] theorem Dev.setIsle_ports (d : Dev) (n : Nat) (u : IsleU) : (d.setIsle n u).ports = d.ports := rfl
@[simp] theorem Dev.setIsle_saf (d : Dev) (n : Nat) (u : IsleU) : (d.setIsle n u).saf = d.saf := rfl
@[simp] theorem Dev.setIsle_banks (d : Dev) (n : Nat) (u : IsleU) : (d.setIsle n u).banks = d.banks := rfl
@[simp] theorem Dev.setIsle_caps (d : Dev) (n : Nat) (u : IsleU) : (d.setIsle n u).caps = d.caps := rfl
@[simp] theorem Dev.setIsle_fab (d : Dev) (n : Nat) (u : IsleU) : (d.setIsle n u).fab = d.fab := rfl
@[simp] theorem Dev.setIsle_red (d : Dev) (n : Nat) (u : IsleU) : (d.setIsle n u).red = d.red := rfl
@[simp] theorem Dev.setIsle_host (d : Dev) (n : Nat) (u : IsleU) : (d.setIsle n u).host = d.host := rfl
@[simp] theorem Dev.setIsle_pow (d : Dev) (n : Nat) (u : IsleU) : (d.setIsle n u).pow = d.pow := rfl
@[simp] theorem Dev.setIsle_bus (d : Dev) (n : Nat) (u : IsleU) : (d.setIsle n u).bus = d.bus := rfl

/-! ### `Dev.setStr` changes `strings` alone -/
@[simp] theorem Dev.setStr_regs (d : Dev) (n : Nat) (u : StringU) : (d.setStr n u).regs = d.regs := rfl
@[simp] theorem Dev.setStr_draws (d : Dev) (n : Nat) (u : StringU) : (d.setStr n u).draws = d.draws := rfl
@[simp] theorem Dev.setStr_out (d : Dev) (n : Nat) (u : StringU) : (d.setStr n u).out = d.out := rfl
@[simp] theorem Dev.setStr_tide (d : Dev) (n : Nat) (u : StringU) : (d.setStr n u).tide = d.tide := rfl
@[simp] theorem Dev.setStr_jrn (d : Dev) (n : Nat) (u : StringU) : (d.setStr n u).jrn = d.jrn := rfl
@[simp] theorem Dev.setStr_isles (d : Dev) (n : Nat) (u : StringU) : (d.setStr n u).isles = d.isles := rfl
@[simp] theorem Dev.setStr_plan (d : Dev) (n : Nat) (u : StringU) : (d.setStr n u).plan = d.plan := rfl
@[simp] theorem Dev.setStr_rings (d : Dev) (n : Nat) (u : StringU) : (d.setStr n u).rings = d.rings := rfl
@[simp] theorem Dev.setStr_nodes (d : Dev) (n : Nat) (u : StringU) : (d.setStr n u).nodes = d.nodes := rfl
@[simp] theorem Dev.setStr_lanes (d : Dev) (n : Nat) (u : StringU) : (d.setStr n u).lanes = d.lanes := rfl
@[simp] theorem Dev.setStr_ctlTotals (d : Dev) (n : Nat) (u : StringU) : (d.setStr n u).ctlTotals = d.ctlTotals := rfl
@[simp] theorem Dev.setStr_efTotals (d : Dev) (n : Nat) (u : StringU) : (d.setStr n u).efTotals = d.efTotals := rfl
@[simp] theorem Dev.setStr_adc (d : Dev) (n : Nat) (u : StringU) : (d.setStr n u).adc = d.adc := rfl
@[simp] theorem Dev.setStr_encs (d : Dev) (n : Nat) (u : StringU) : (d.setStr n u).encs = d.encs := rfl
@[simp] theorem Dev.setStr_ports (d : Dev) (n : Nat) (u : StringU) : (d.setStr n u).ports = d.ports := rfl
@[simp] theorem Dev.setStr_saf (d : Dev) (n : Nat) (u : StringU) : (d.setStr n u).saf = d.saf := rfl
@[simp] theorem Dev.setStr_banks (d : Dev) (n : Nat) (u : StringU) : (d.setStr n u).banks = d.banks := rfl
@[simp] theorem Dev.setStr_caps (d : Dev) (n : Nat) (u : StringU) : (d.setStr n u).caps = d.caps := rfl
@[simp] theorem Dev.setStr_fab (d : Dev) (n : Nat) (u : StringU) : (d.setStr n u).fab = d.fab := rfl
@[simp] theorem Dev.setStr_red (d : Dev) (n : Nat) (u : StringU) : (d.setStr n u).red = d.red := rfl
@[simp] theorem Dev.setStr_host (d : Dev) (n : Nat) (u : StringU) : (d.setStr n u).host = d.host := rfl
@[simp] theorem Dev.setStr_pow (d : Dev) (n : Nat) (u : StringU) : (d.setStr n u).pow = d.pow := rfl
@[simp] theorem Dev.setStr_bus (d : Dev) (n : Nat) (u : StringU) : (d.setStr n u).bus = d.bus := rfl

/-! ### `Dev.setRing` changes `rings` alone -/
@[simp] theorem Dev.setRing_regs (d : Dev) (n : Nat) (u : RingU) : (d.setRing n u).regs = d.regs := rfl
@[simp] theorem Dev.setRing_draws (d : Dev) (n : Nat) (u : RingU) : (d.setRing n u).draws = d.draws := rfl
@[simp] theorem Dev.setRing_out (d : Dev) (n : Nat) (u : RingU) : (d.setRing n u).out = d.out := rfl
@[simp] theorem Dev.setRing_tide (d : Dev) (n : Nat) (u : RingU) : (d.setRing n u).tide = d.tide := rfl
@[simp] theorem Dev.setRing_jrn (d : Dev) (n : Nat) (u : RingU) : (d.setRing n u).jrn = d.jrn := rfl
@[simp] theorem Dev.setRing_isles (d : Dev) (n : Nat) (u : RingU) : (d.setRing n u).isles = d.isles := rfl
@[simp] theorem Dev.setRing_strings (d : Dev) (n : Nat) (u : RingU) : (d.setRing n u).strings = d.strings := rfl
@[simp] theorem Dev.setRing_plan (d : Dev) (n : Nat) (u : RingU) : (d.setRing n u).plan = d.plan := rfl
@[simp] theorem Dev.setRing_nodes (d : Dev) (n : Nat) (u : RingU) : (d.setRing n u).nodes = d.nodes := rfl
@[simp] theorem Dev.setRing_lanes (d : Dev) (n : Nat) (u : RingU) : (d.setRing n u).lanes = d.lanes := rfl
@[simp] theorem Dev.setRing_ctlTotals (d : Dev) (n : Nat) (u : RingU) : (d.setRing n u).ctlTotals = d.ctlTotals := rfl
@[simp] theorem Dev.setRing_efTotals (d : Dev) (n : Nat) (u : RingU) : (d.setRing n u).efTotals = d.efTotals := rfl
@[simp] theorem Dev.setRing_adc (d : Dev) (n : Nat) (u : RingU) : (d.setRing n u).adc = d.adc := rfl
@[simp] theorem Dev.setRing_encs (d : Dev) (n : Nat) (u : RingU) : (d.setRing n u).encs = d.encs := rfl
@[simp] theorem Dev.setRing_ports (d : Dev) (n : Nat) (u : RingU) : (d.setRing n u).ports = d.ports := rfl
@[simp] theorem Dev.setRing_saf (d : Dev) (n : Nat) (u : RingU) : (d.setRing n u).saf = d.saf := rfl
@[simp] theorem Dev.setRing_banks (d : Dev) (n : Nat) (u : RingU) : (d.setRing n u).banks = d.banks := rfl
@[simp] theorem Dev.setRing_caps (d : Dev) (n : Nat) (u : RingU) : (d.setRing n u).caps = d.caps := rfl
@[simp] theorem Dev.setRing_fab (d : Dev) (n : Nat) (u : RingU) : (d.setRing n u).fab = d.fab := rfl
@[simp] theorem Dev.setRing_red (d : Dev) (n : Nat) (u : RingU) : (d.setRing n u).red = d.red := rfl
@[simp] theorem Dev.setRing_host (d : Dev) (n : Nat) (u : RingU) : (d.setRing n u).host = d.host := rfl
@[simp] theorem Dev.setRing_pow (d : Dev) (n : Nat) (u : RingU) : (d.setRing n u).pow = d.pow := rfl
@[simp] theorem Dev.setRing_bus (d : Dev) (n : Nat) (u : RingU) : (d.setRing n u).bus = d.bus := rfl

/-! ### `Dev.setNode` changes `nodes` alone -/
@[simp] theorem Dev.setNode_regs (d : Dev) (r i : Nat) (u : NodeDev) : (d.setNode r i u).regs = d.regs := rfl
@[simp] theorem Dev.setNode_draws (d : Dev) (r i : Nat) (u : NodeDev) : (d.setNode r i u).draws = d.draws := rfl
@[simp] theorem Dev.setNode_out (d : Dev) (r i : Nat) (u : NodeDev) : (d.setNode r i u).out = d.out := rfl
@[simp] theorem Dev.setNode_tide (d : Dev) (r i : Nat) (u : NodeDev) : (d.setNode r i u).tide = d.tide := rfl
@[simp] theorem Dev.setNode_jrn (d : Dev) (r i : Nat) (u : NodeDev) : (d.setNode r i u).jrn = d.jrn := rfl
@[simp] theorem Dev.setNode_isles (d : Dev) (r i : Nat) (u : NodeDev) : (d.setNode r i u).isles = d.isles := rfl
@[simp] theorem Dev.setNode_strings (d : Dev) (r i : Nat) (u : NodeDev) : (d.setNode r i u).strings = d.strings := rfl
@[simp] theorem Dev.setNode_plan (d : Dev) (r i : Nat) (u : NodeDev) : (d.setNode r i u).plan = d.plan := rfl
@[simp] theorem Dev.setNode_rings (d : Dev) (r i : Nat) (u : NodeDev) : (d.setNode r i u).rings = d.rings := rfl
@[simp] theorem Dev.setNode_lanes (d : Dev) (r i : Nat) (u : NodeDev) : (d.setNode r i u).lanes = d.lanes := rfl
@[simp] theorem Dev.setNode_ctlTotals (d : Dev) (r i : Nat) (u : NodeDev) : (d.setNode r i u).ctlTotals = d.ctlTotals := rfl
@[simp] theorem Dev.setNode_efTotals (d : Dev) (r i : Nat) (u : NodeDev) : (d.setNode r i u).efTotals = d.efTotals := rfl
@[simp] theorem Dev.setNode_adc (d : Dev) (r i : Nat) (u : NodeDev) : (d.setNode r i u).adc = d.adc := rfl
@[simp] theorem Dev.setNode_encs (d : Dev) (r i : Nat) (u : NodeDev) : (d.setNode r i u).encs = d.encs := rfl
@[simp] theorem Dev.setNode_ports (d : Dev) (r i : Nat) (u : NodeDev) : (d.setNode r i u).ports = d.ports := rfl
@[simp] theorem Dev.setNode_saf (d : Dev) (r i : Nat) (u : NodeDev) : (d.setNode r i u).saf = d.saf := rfl
@[simp] theorem Dev.setNode_banks (d : Dev) (r i : Nat) (u : NodeDev) : (d.setNode r i u).banks = d.banks := rfl
@[simp] theorem Dev.setNode_caps (d : Dev) (r i : Nat) (u : NodeDev) : (d.setNode r i u).caps = d.caps := rfl
@[simp] theorem Dev.setNode_fab (d : Dev) (r i : Nat) (u : NodeDev) : (d.setNode r i u).fab = d.fab := rfl
@[simp] theorem Dev.setNode_red (d : Dev) (r i : Nat) (u : NodeDev) : (d.setNode r i u).red = d.red := rfl
@[simp] theorem Dev.setNode_host (d : Dev) (r i : Nat) (u : NodeDev) : (d.setNode r i u).host = d.host := rfl
@[simp] theorem Dev.setNode_pow (d : Dev) (r i : Nat) (u : NodeDev) : (d.setNode r i u).pow = d.pow := rfl
@[simp] theorem Dev.setNode_bus (d : Dev) (r i : Nat) (u : NodeDev) : (d.setNode r i u).bus = d.bus := rfl

/-! ### `Dev.setLane` changes `lanes` alone -/
@[simp] theorem Dev.setLane_regs (d : Dev) (n : Nat) (u : LaneU) : (d.setLane n u).regs = d.regs := rfl
@[simp] theorem Dev.setLane_draws (d : Dev) (n : Nat) (u : LaneU) : (d.setLane n u).draws = d.draws := rfl
@[simp] theorem Dev.setLane_out (d : Dev) (n : Nat) (u : LaneU) : (d.setLane n u).out = d.out := rfl
@[simp] theorem Dev.setLane_tide (d : Dev) (n : Nat) (u : LaneU) : (d.setLane n u).tide = d.tide := rfl
@[simp] theorem Dev.setLane_jrn (d : Dev) (n : Nat) (u : LaneU) : (d.setLane n u).jrn = d.jrn := rfl
@[simp] theorem Dev.setLane_isles (d : Dev) (n : Nat) (u : LaneU) : (d.setLane n u).isles = d.isles := rfl
@[simp] theorem Dev.setLane_strings (d : Dev) (n : Nat) (u : LaneU) : (d.setLane n u).strings = d.strings := rfl
@[simp] theorem Dev.setLane_plan (d : Dev) (n : Nat) (u : LaneU) : (d.setLane n u).plan = d.plan := rfl
@[simp] theorem Dev.setLane_rings (d : Dev) (n : Nat) (u : LaneU) : (d.setLane n u).rings = d.rings := rfl
@[simp] theorem Dev.setLane_nodes (d : Dev) (n : Nat) (u : LaneU) : (d.setLane n u).nodes = d.nodes := rfl
@[simp] theorem Dev.setLane_ctlTotals (d : Dev) (n : Nat) (u : LaneU) : (d.setLane n u).ctlTotals = d.ctlTotals := rfl
@[simp] theorem Dev.setLane_efTotals (d : Dev) (n : Nat) (u : LaneU) : (d.setLane n u).efTotals = d.efTotals := rfl
@[simp] theorem Dev.setLane_adc (d : Dev) (n : Nat) (u : LaneU) : (d.setLane n u).adc = d.adc := rfl
@[simp] theorem Dev.setLane_encs (d : Dev) (n : Nat) (u : LaneU) : (d.setLane n u).encs = d.encs := rfl
@[simp] theorem Dev.setLane_ports (d : Dev) (n : Nat) (u : LaneU) : (d.setLane n u).ports = d.ports := rfl
@[simp] theorem Dev.setLane_saf (d : Dev) (n : Nat) (u : LaneU) : (d.setLane n u).saf = d.saf := rfl
@[simp] theorem Dev.setLane_banks (d : Dev) (n : Nat) (u : LaneU) : (d.setLane n u).banks = d.banks := rfl
@[simp] theorem Dev.setLane_caps (d : Dev) (n : Nat) (u : LaneU) : (d.setLane n u).caps = d.caps := rfl
@[simp] theorem Dev.setLane_fab (d : Dev) (n : Nat) (u : LaneU) : (d.setLane n u).fab = d.fab := rfl
@[simp] theorem Dev.setLane_red (d : Dev) (n : Nat) (u : LaneU) : (d.setLane n u).red = d.red := rfl
@[simp] theorem Dev.setLane_host (d : Dev) (n : Nat) (u : LaneU) : (d.setLane n u).host = d.host := rfl
@[simp] theorem Dev.setLane_pow (d : Dev) (n : Nat) (u : LaneU) : (d.setLane n u).pow = d.pow := rfl
@[simp] theorem Dev.setLane_bus (d : Dev) (n : Nat) (u : LaneU) : (d.setLane n u).bus = d.bus := rfl

/-! ### `Dev.setJslot` changes `jrn` alone -/
@[simp] theorem Dev.setJslot_regs (d : Dev) (n : Nat) (e : JEntry) : (d.setJslot n e).regs = d.regs := rfl
@[simp] theorem Dev.setJslot_draws (d : Dev) (n : Nat) (e : JEntry) : (d.setJslot n e).draws = d.draws := rfl
@[simp] theorem Dev.setJslot_out (d : Dev) (n : Nat) (e : JEntry) : (d.setJslot n e).out = d.out := rfl
@[simp] theorem Dev.setJslot_tide (d : Dev) (n : Nat) (e : JEntry) : (d.setJslot n e).tide = d.tide := rfl
@[simp] theorem Dev.setJslot_isles (d : Dev) (n : Nat) (e : JEntry) : (d.setJslot n e).isles = d.isles := rfl
@[simp] theorem Dev.setJslot_strings (d : Dev) (n : Nat) (e : JEntry) : (d.setJslot n e).strings = d.strings := rfl
@[simp] theorem Dev.setJslot_plan (d : Dev) (n : Nat) (e : JEntry) : (d.setJslot n e).plan = d.plan := rfl
@[simp] theorem Dev.setJslot_rings (d : Dev) (n : Nat) (e : JEntry) : (d.setJslot n e).rings = d.rings := rfl
@[simp] theorem Dev.setJslot_nodes (d : Dev) (n : Nat) (e : JEntry) : (d.setJslot n e).nodes = d.nodes := rfl
@[simp] theorem Dev.setJslot_lanes (d : Dev) (n : Nat) (e : JEntry) : (d.setJslot n e).lanes = d.lanes := rfl
@[simp] theorem Dev.setJslot_ctlTotals (d : Dev) (n : Nat) (e : JEntry) : (d.setJslot n e).ctlTotals = d.ctlTotals := rfl
@[simp] theorem Dev.setJslot_efTotals (d : Dev) (n : Nat) (e : JEntry) : (d.setJslot n e).efTotals = d.efTotals := rfl
@[simp] theorem Dev.setJslot_adc (d : Dev) (n : Nat) (e : JEntry) : (d.setJslot n e).adc = d.adc := rfl
@[simp] theorem Dev.setJslot_encs (d : Dev) (n : Nat) (e : JEntry) : (d.setJslot n e).encs = d.encs := rfl
@[simp] theorem Dev.setJslot_ports (d : Dev) (n : Nat) (e : JEntry) : (d.setJslot n e).ports = d.ports := rfl
@[simp] theorem Dev.setJslot_saf (d : Dev) (n : Nat) (e : JEntry) : (d.setJslot n e).saf = d.saf := rfl
@[simp] theorem Dev.setJslot_banks (d : Dev) (n : Nat) (e : JEntry) : (d.setJslot n e).banks = d.banks := rfl
@[simp] theorem Dev.setJslot_caps (d : Dev) (n : Nat) (e : JEntry) : (d.setJslot n e).caps = d.caps := rfl
@[simp] theorem Dev.setJslot_fab (d : Dev) (n : Nat) (e : JEntry) : (d.setJslot n e).fab = d.fab := rfl
@[simp] theorem Dev.setJslot_red (d : Dev) (n : Nat) (e : JEntry) : (d.setJslot n e).red = d.red := rfl
@[simp] theorem Dev.setJslot_host (d : Dev) (n : Nat) (e : JEntry) : (d.setJslot n e).host = d.host := rfl
@[simp] theorem Dev.setJslot_pow (d : Dev) (n : Nat) (e : JEntry) : (d.setJslot n e).pow = d.pow := rfl
@[simp] theorem Dev.setJslot_bus (d : Dev) (n : Nat) (e : JEntry) : (d.setJslot n e).bus = d.bus := rfl

end Sys2Proof.Machine
end

