-- ==== Sys2Proof/Laws/Tables.lean ====
section
/-! SUPPORT. Laws of sparse tables and of the bit fields of a word. -/
namespace Sys2Proof.Machine

section tables
variable {α : Type}

theorem tget_terase_same (dflt : Nat → α) (t : Table α) (k : Nat) : tget dflt (terase t k) k = dflt k := by
  induction t with
  | nil => rfl
  | cons e t ih =>
    obtain ⟨j, v⟩ := e
    by_cases h : k = j
    · simpa [terase, h] using h ▸ ih
    · simp [terase, tget, h, ih]

theorem tget_terase_ne (dflt : Nat → α) (t : Table α) {k k' : Nat} (h : k' ≠ k) :
    tget dflt (terase t k) k' = tget dflt t k' := by
  induction t with
  | nil => rfl
  | cons e t ih =>
    obtain ⟨j, v⟩ := e
    by_cases hk : k = j
    · subst hk; simp [terase, tget, h, ih]
    · by_cases hj : k' = j <;> simp [terase, tget, hk, hj, ih]

theorem tget_tinsert_ne (dflt : Nat → α) (t : Table α) {k k' : Nat} (v : α) (h : k' ≠ k) :
    tget dflt (tinsert t k v) k' = tget dflt t k' := by
  induction t with
  | nil => simp [tinsert, tget, h]
  | cons e t ih =>
    obtain ⟨j, u⟩ := e
    by_cases hk : k < j
    · simp [tinsert, hk, tget, h]
    · by_cases hj : k' = j <;> simp [tinsert, hk, tget, hj, ih]

theorem mem_terase_ne {t : Table α} {k : Nat} {e : Nat × α} (h : e ∈ terase t k) : e.1 ≠ k ∧ e ∈ t := by
  induction t with
  | nil => cases h
  | cons x t ih =>
    obtain ⟨j, v⟩ := x
    by_cases hk : k = j
    · simp only [terase, hk, ↓reduceIte] at h
      obtain ⟨a, b⟩ := ih (hk ▸ h)
      exact ⟨a, List.mem_cons_of_mem _ b⟩
    · simp only [terase, hk, ↓reduceIte, List.mem_cons] at h
      rcases h with rfl | h
      · exact ⟨fun e => hk e.symm, List.mem_cons_self⟩
      · obtain ⟨a, b⟩ := ih h
        exact ⟨a, List.mem_cons_of_mem _ b⟩

theorem tget_tinsert_same (dflt : Nat → α) (t : Table α) (k : Nat) (v : α) (h : ∀ e ∈ t, e.1 ≠ k) :
    tget dflt (tinsert t k v) k = v := by
  induction t with
  | nil => simp [tinsert, tget]
  | cons e t ih =>
    obtain ⟨j, u⟩ := e
    have hj : k ≠ j := fun e => h (j, u) List.mem_cons_self e.symm
    by_cases hk : k < j
    · simp [tinsert, hk, tget]
    · simp [tinsert, hk, tget, hj, ih fun e m => h e (List.mem_cons_of_mem _ m)]

/-- A table read back at the key just written. -/
@[simp] theorem tget_tput_same [DecidableEq α] (dflt : Nat → α) (t : Table α) (k : Nat) (v : α) :
    tget dflt (tput dflt t k v) k = v := by
  unfold tput
  split
  · next h => rw [tget_terase_same, h]
  · exact tget_tinsert_same dflt _ k v fun e m => (mem_terase_ne m).1

/-- A table read at another key than the one written. -/
theorem tget_tput_ne [DecidableEq α] (dflt : Nat → α) (t : Table α) {k k' : Nat} (v : α) (h : k' ≠ k) :
    tget dflt (tput dflt t k v) k' = tget dflt t k' := by
  unfold tput
  split
  · exact tget_terase_ne dflt t h
  · rw [tget_tinsert_ne dflt _ v h, tget_terase_ne dflt t h]

/-- What the table reads at any key after a write. -/
theorem tget_tput [DecidableEq α] (dflt : Nat → α) (t : Table α) (k k' : Nat) (v : α) :
    tget dflt (tput dflt t k v) k' = if k' = k then v else tget dflt t k' := by
  by_cases h : k' = k
  · subst h; simp
  · simp [h, tget_tput_ne]

theorem twf_terase [DecidableEq α] (dflt : Nat → α) (t : Table α) (k : Nat) (h : twf dflt t = true) :
    twf dflt (terase t k) = true := by
  induction t with
  | nil => rfl
  | cons e t ih =>
    obtain ⟨j, v⟩ := e
    simp only [twf, Bool.and_eq_true, List.all_eq_true, decide_eq_true_eq] at h
    by_cases hk : k = j
    · simpa [terase, hk] using hk ▸ ih h.2
    · simp only [terase, hk, ↓reduceIte, twf, Bool.and_eq_true, List.all_eq_true, decide_eq_true_eq]
      exact ⟨⟨h.1.1, fun e m => h.1.2 e (mem_terase_ne m).2⟩, ih h.2⟩

theorem mem_tinsert {t : Table α} {k : Nat} {v : α} {e : Nat × α} (h : e ∈ tinsert t k v) : e = (k, v) ∨ e ∈ t := by
  induction t with
  | nil => simpa [tinsert] using h
  | cons x t ih =>
    obtain ⟨j, u⟩ := x
    by_cases hk : k < j
    · simpa [tinsert, hk] using h
    · simp only [tinsert, hk, ↓reduceIte, List.mem_cons] at h ⊢
      rcases h with h | h
      · exact .inr (.inl h)
      · rcases ih h with h | h
        · exact .inl h
        · exact .inr (.inr h)

theorem twf_tinsert [DecidableEq α] (dflt : Nat → α) (t : Table α) (k : Nat) (v : α) (hv : v ≠ dflt k)
    (hk : ∀ e ∈ t, e.1 ≠ k) (h : twf dflt t = true) : twf dflt (tinsert t k v) = true := by
  induction t with
  | nil => simpa [tinsert, twf] using hv
  | cons e t ih =>
    obtain ⟨j, u⟩ := e
    have h0 := h
    simp only [twf, Bool.and_eq_true, List.all_eq_true, decide_eq_true_eq] at h
    have hj : j ≠ k := hk (j, u) List.mem_cons_self
    by_cases c : k < j
    · simp only [tinsert, c, ↓reduceIte, twf, Bool.and_eq_true, List.all_eq_true, decide_eq_true_eq, List.mem_cons]
      refine ⟨⟨by simpa using hv, ?_⟩, h⟩
      rintro e (rfl | m)
      · exact c
      · exact Nat.lt_trans c (h.1.2 e m)
    · simp only [tinsert, c, ↓reduceIte, twf, Bool.and_eq_true, List.all_eq_true, decide_eq_true_eq]
      refine ⟨⟨h.1.1, fun e m => ?_⟩, ih (fun e m => hk e (List.mem_cons_of_mem _ m)) h.2⟩
      rcases mem_tinsert m with rfl | m
      · show j < k; omega
      · exact h.1.2 e m

/-- Every write of a table keeps its canonical form. -/
theorem twf_tput [DecidableEq α] (dflt : Nat → α) (t : Table α) (k : Nat) (v : α) (h : twf dflt t = true) :
    twf dflt (tput dflt t k v) = true := by
  unfold tput
  split
  · exact twf_terase dflt t k h
  · next hv => exact twf_tinsert dflt _ k v hv (fun e m => (mem_terase_ne m).1) (twf_terase dflt t k h)

end tables

/-! ### Fields of a word -/

theorem fmask_getLsbD (lo n i : Nat) (h : i < 32) : (fmask lo n).getLsbD i = (decide (lo ≤ i) && decide (i < lo + n)) := by
  simp only [fmask, BitVec.getLsbD_shiftLeft, BitVec.getLsbD_ofNat, h, decide_true, Bool.true_and, Nat.testBit_two_pow_sub_one]
  by_cases c : i < lo
  · simp [c, Nat.not_le.mpr c]
  · have : i - lo < 32 := by omega
    simp [c, Nat.not_lt.mp c, this]
    by_cases e : i - lo < n <;> simp [e] <;> omega

theorem fget_testBit (w : Word) (lo n i : Nat) : (fget w lo n).testBit i = (decide (i < n) && w.getLsbD (lo + i)) := by
  simp only [fget, Nat.testBit_mod_two_pow, BitVec.testBit_toNat, BitVec.getLsbD_ushiftRight]

/-- What one bit of a word is after a field of it is set. -/
theorem fset_getLsbD (w : Word) (lo n v i : Nat) (hi : i < 32) :
    (fset w lo n v).getLsbD i =
      if lo ≤ i ∧ i < lo + n then v.testBit (i - lo) else w.getLsbD i := by
  have hm := fmask_getLsbD lo n i hi
  simp only [fset, BitVec.getLsbD_or, BitVec.getLsbD_and, BitVec.getLsbD_not, hm, BitVec.getLsbD_shiftLeft,
    BitVec.getLsbD_ofNat, Nat.testBit_mod_two_pow, hi, decide_true, Bool.true_and]
  by_cases a : i < lo
  · have : ¬ lo ≤ i := by omega
    simp [a, this]
  · have ha : lo ≤ i := by omega
    have h3 : i - lo < 32 := by omega
    by_cases b : i < lo + n
    · have : i - lo < n := by omega
      simp [a, ha, b, this, h3]
    · have : ¬ i - lo < n := by omega
      simp [a, ha, b, this]

/-- A field read back after it is set. -/
theorem fget_fset_same (w : Word) (lo n v : Nat) (h : lo + n ≤ 32) : fget (fset w lo n v) lo n = v % 2 ^ n := by
  apply Nat.eq_of_testBit_eq
  intro i
  rw [fget_testBit, Nat.testBit_mod_two_pow]
  by_cases c : i < n
  · rw [fset_getLsbD _ _ _ _ _ (by omega), if_pos ⟨by omega, by omega⟩, Nat.add_sub_cancel_left]
  · simp only [c, decide_false, Bool.false_and]

/-- A field read after a disjoint one is set. -/
theorem fget_fset_disjoint (w : Word) (lo n lo' n' v : Nat) (h : lo' + n' ≤ lo ∨ lo + n ≤ lo') :
    fget (fset w lo n v) lo' n' = fget w lo' n' := by
  apply Nat.eq_of_testBit_eq
  intro i
  rw [fget_testBit, fget_testBit]
  by_cases c : i < n'
  · by_cases b : lo' + i < 32
    · rw [fset_getLsbD _ _ _ _ _ b, if_neg (by omega)]
    · have hb : 32 ≤ lo' + i := Nat.not_lt.mp b
      rw [BitVec.getLsbD_of_ge _ _ hb, BitVec.getLsbD_of_ge _ _ hb]
  · simp only [c, decide_false, Bool.false_and]

end Sys2Proof.Machine
end

