-- ==== Sys2Proof/Laws/Registers.lean ====
section
/-! SUPPORT. What registers and their fields read after each update of the device. -/
namespace Sys2Proof.Machine

@[simp] theorem Dev.rd_wr_same (d : Dev) (a : Nat) (v : Word) : (d.wr a v).rd a = v :=
  tget_tput_same regReset d.regs a v
theorem Dev.rd_wr_ne (d : Dev) {a b : Nat} (v : Word) (h : b ≠ a) : (d.wr a v).rd b = d.rd b :=
  tget_tput_ne regReset d.regs v h
@[simp] theorem Dev.rd_wr (d : Dev) (a b : Nat) (v : Word) : (d.wr a v).rd b = if b = a then v else d.rd b :=
  tget_tput regReset d.regs a b v
@[simp] theorem Dev.rd_setF_ne (d : Dev) (x : Fld) (b v : Nat) (h : b ≠ x.addr) : (d.setF x v).rd b = d.rd b :=
  Dev.rd_wr_ne d _ h
@[simp] theorem Dev.rd_raise_ne (d : Dev) (x : Fld) (b : Nat) (h : b ≠ x.addr) : (d.raise x).rd b = d.rd b :=
  Dev.rd_wr_ne d _ h
@[simp] theorem Dev.rd_lower_ne (d : Dev) (x : Fld) (b : Nat) (h : b ≠ x.addr) : (d.lower x).rd b = d.rd b :=
  Dev.rd_wr_ne d _ h
@[simp] theorem Dev.rd_count_ne (d : Dev) (x : Fld) (n b : Nat) (h : b ≠ x.addr) : (d.count x n).rd b = d.rd b :=
  Dev.rd_wr_ne d _ h

/-- A field read back after it is set. -/
theorem Dev.f_setF_same (d : Dev) (x : Fld) (v : Nat) (h : x.lo + x.width ≤ 32) : (d.setF x v).f x = v % 2 ^ x.width := by
  simp only [Dev.f, Dev.setF, Dev.rd_wr_same]
  exact fget_fset_same _ _ _ _ h

/-- A field of another register, or one disjoint from the field that is set, reads as before. -/
theorem Dev.f_setF_other (d : Dev) (x y : Fld) (v : Nat) (h : y.addr ≠ x.addr ∨ y.lo + y.width ≤ x.lo ∨ x.lo + x.width ≤ y.lo) :
    (d.setF x v).f y = d.f y := by
  by_cases a : y.addr = x.addr
  · simp only [Dev.f, Dev.setF, a, Dev.rd_wr_same]
    exact fget_fset_disjoint _ _ _ _ _ _ (h.resolve_left fun n => n a)
  · simp only [Dev.f, Dev.rd_setF_ne d x _ v a]

theorem Dev.f_wr_ne (d : Dev) (a : Nat) (v : Word) (y : Fld) (h : y.addr ≠ a) : (d.wr a v).f y = d.f y := by
  simp only [Dev.f, Dev.rd_wr_ne d v h]

/-- A status bit after it is raised. -/
theorem Dev.f_raise_same (d : Dev) (x : Fld) (h : x.lo + x.width ≤ 32) (w : 0 < x.width) : (d.raise x).f x = 1 := by
  rw [Dev.raise, Dev.f_setF_same d x 1 h, Nat.mod_eq_of_lt (Nat.one_lt_two_pow (by omega))]
/-- A status bit after it is lowered. -/
theorem Dev.f_lower_same (d : Dev) (x : Fld) (h : x.lo + x.width ≤ 32) : (d.lower x).f x = 0 := by
  rw [Dev.lower, Dev.f_setF_same d x 0 h, Nat.zero_mod]
/-- A saturating counter after it counts. -/
theorem Dev.f_count_same (d : Dev) (x : Fld) (n : Nat) (h : x.lo + x.width ≤ 32) :
    (d.count x n).f x = satAdd x.width (d.f x) n := by
  rw [Dev.count, Dev.f_setF_same d x _ h, Nat.mod_eq_of_lt]
  have := Nat.two_pow_pos x.width
  unfold satAdd; omega
theorem Dev.f_raise_other (d : Dev) (x y : Fld) (h : y.addr ≠ x.addr ∨ y.lo + y.width ≤ x.lo ∨ x.lo + x.width ≤ y.lo) :
    (d.raise x).f y = d.f y := Dev.f_setF_other d x y 1 h
theorem Dev.f_lower_other (d : Dev) (x y : Fld) (h : y.addr ≠ x.addr ∨ y.lo + y.width ≤ x.lo ∨ x.lo + x.width ≤ y.lo) :
    (d.lower x).f y = d.f y := Dev.f_setF_other d x y 0 h
theorem Dev.f_count_other (d : Dev) (x y : Fld) (n : Nat) (h : y.addr ≠ x.addr ∨ y.lo + y.width ≤ x.lo ∨ x.lo + x.width ≤ y.lo) :
    (d.count x n).f y = d.f y := Dev.f_setF_other d x y _ h

/-- Every write of a register keeps the canonical form of their table. -/
theorem Dev.twf_wr (d : Dev) (a : Nat) (v : Word) (h : twf regReset d.regs = true) : twf regReset (d.wr a v).regs = true :=
  twf_tput regReset d.regs a v h

@[simp] theorem Dev.rd_emit (d : Dev) (o : Out) (a : Nat) : (d.emit o).rd a = d.rd a := rfl
@[simp] theorem Dev.f_emit (d : Dev) (o : Out) (x : Fld) : (d.emit o).f x = d.f x := rfl
@[simp] theorem Dev.rd_setIsle (d : Dev) (n : Nat) (u : IsleU) (a : Nat) : (d.setIsle n u).rd a = d.rd a := rfl
@[simp] theorem Dev.f_setIsle (d : Dev) (n : Nat) (u : IsleU) (x : Fld) : (d.setIsle n u).f x = d.f x := rfl
@[simp] theorem Dev.rd_setStr (d : Dev) (n : Nat) (u : StringU) (a : Nat) : (d.setStr n u).rd a = d.rd a := rfl
@[simp] theorem Dev.f_setStr (d : Dev) (n : Nat) (u : StringU) (x : Fld) : (d.setStr n u).f x = d.f x := rfl
@[simp] theorem Dev.rd_setRing (d : Dev) (n : Nat) (u : RingU) (a : Nat) : (d.setRing n u).rd a = d.rd a := rfl
@[simp] theorem Dev.f_setRing (d : Dev) (n : Nat) (u : RingU) (x : Fld) : (d.setRing n u).f x = d.f x := rfl
@[simp] theorem Dev.rd_setNode (d : Dev) (r i : Nat) (u : NodeDev) (a : Nat) : (d.setNode r i u).rd a = d.rd a := rfl
@[simp] theorem Dev.f_setNode (d : Dev) (r i : Nat) (u : NodeDev) (x : Fld) : (d.setNode r i u).f x = d.f x := rfl
@[simp] theorem Dev.rd_setLane (d : Dev) (n : Nat) (u : LaneU) (a : Nat) : (d.setLane n u).rd a = d.rd a := rfl
@[simp] theorem Dev.f_setLane (d : Dev) (n : Nat) (u : LaneU) (x : Fld) : (d.setLane n u).f x = d.f x := rfl
@[simp] theorem Dev.rd_setJslot (d : Dev) (n : Nat) (e : JEntry) (a : Nat) : (d.setJslot n e).rd a = d.rd a := rfl
@[simp] theorem Dev.f_setJslot (d : Dev) (n : Nat) (e : JEntry) (x : Fld) : (d.setJslot n e).f x = d.f x := rfl

/-! ### The tables of units -/

@[simp] theorem Dev.isle_setIsle (d : Dev) (n m : Nat) (u : IsleU) : (d.setIsle n u).isle m = if m = n then u else d.isle m :=
  tget_tput _ d.isles n m u
@[simp] theorem Dev.str_setStr (d : Dev) (n m : Nat) (u : StringU) : (d.setStr n u).str m = if m = n then u else d.str m :=
  tget_tput _ d.strings n m u
@[simp] theorem Dev.ring_setRing (d : Dev) (n m : Nat) (u : RingU) : (d.setRing n u).ring m = if m = n then u else d.ring m :=
  tget_tput _ d.rings n m u
@[simp] theorem Dev.lane_setLane (d : Dev) (n m : Nat) (u : LaneU) : (d.setLane n u).lane m = if m = n then u else d.lane m :=
  tget_tput _ d.lanes n m u
@[simp] theorem Dev.node_setNode (d : Dev) (r i r' i' : Nat) (u : NodeDev) :
    (d.setNode r i u).node r' i' = if 16 * r' + i' = 16 * r + i then u else d.node r' i' :=
  tget_tput _ d.nodes _ _ u

end Sys2Proof.Machine
end

