-- ==== Sys2Proof/Laws/Run.lean ====
section
/-! SUPPORT. The frame of a meaning: what `run` answers, what a step keeps. -/
namespace Sys2Proof.Machine

/-- A step that gives nothing to the fabric leaves its queues alone. -/
theorem takeOut_quiet (d : Dev) (h : quiet d = true) : takeOut d = d := by
  simp [takeOut, h]

/-- A step of a device whose fabric is off leaves its queues alone. -/
theorem takeOut_off (d : Dev) (h : d.flag fabEn = false) : takeOut d = d := by
  simp [takeOut, h]

theorem finish_pending (s : State) (d : Dev) : (finish s d).pending = s.pending := by
  unfold finish; split <;> rfl

/-- While no burn ends, a step changes the device alone. -/
theorem finish_noBurn (s : State) (d : Dev) (h : s.dev.saf.burn = none ∨ d.saf.burn ≠ none) :
    finish s d = { s with dev := takeOut d } := by
  unfold finish
  split
  · next x y => rcases h with h | h <;> simp_all
  · rfl

/-- Every meaning given by `run` answers a next state. -/
theorem run_answers (s : State) (f : Dev → Dev) : run s f = .next (finish s (f { s.dev with out := [] })) := rfl

/-- A step on an empty queue idles. -/
theorem step_idle (s : State) (h : s.pending = []) : step s = .next s := by
  simp [step, h]

/-- A step runs the command at the front. -/
theorem step_front (s : State) (c : Instr) (rest : List Instr) (h : s.pending = c :: rest) :
    step s = exec c { s with pending := rest } := by
  simp [step, h]

/-- A fuse once burned stays burned. -/
theorem burnBank_keeps (b img : List Byte) (i k : Nat) (x : Byte) (h : b[i]? = some x) (hk : x.getLsbD k = true) :
    ∃ y, (burnBank b img)[i]? = some y ∧ y.getLsbD k = true := by
  induction b generalizing img i with
  | nil => simp at h
  | cons a t ih =>
    cases img with
    | nil => exact ⟨x, by simpa [burnBank] using h, hk⟩
    | cons c u =>
      cases i with
      | zero =>
        simp only [List.getElem?_cons_zero, Option.some.injEq] at h
        subst h
        exact ⟨a ||| c, by simp [burnBank], by rw [BitVec.getLsbD_or, hk, Bool.true_or]⟩
      | succ i => simpa [burnBank] using ih u i (by simpa using h)

theorem burnBank_length (b img : List Byte) : (burnBank b img).length = b.length := by
  induction b generalizing img with
  | nil => cases img <;> rfl
  | cons a t ih => cases img <;> simp [burnBank, ih]

theorem burnBanks_length (bs : List (List Byte)) (n : Nat) (img : List Byte) : (burnBanks bs n img).length = bs.length := by
  induction bs generalizing n with
  | nil => rfl
  | cons a t ih => cases n <;> simp [burnBanks, ih]

theorem burnBanks_keeps (bs : List (List Byte)) (n : Nat) (img : List Byte) (j i k : Nat) (b : List Byte) (x : Byte)
    (hb : bs[j]? = some b) (h : b[i]? = some x) (hk : x.getLsbD k = true) :
    ∃ e y, (burnBanks bs n img)[j]? = some e ∧ e[i]? = some y ∧ y.getLsbD k = true := by
  induction bs generalizing n j with
  | nil => simp at hb
  | cons a t ih =>
    cases n with
    | zero =>
      cases j with
      | zero =>
        simp only [List.getElem?_cons_zero, Option.some.injEq] at hb
        subst hb
        obtain ⟨y, hy, hk⟩ := burnBank_keeps a img i k x h hk
        exact ⟨_, y, by simp [burnBanks], hy, hk⟩
      | succ j => exact ⟨b, x, by simpa [burnBanks] using hb, h, hk⟩
    | succ n =>
      cases j with
      | zero => exact ⟨b, x, by simpa [burnBanks] using hb, h, hk⟩
      | succ j => simpa [burnBanks] using ih n j (by simpa using hb)

end Sys2Proof.Machine
end

