-- ==== Sys2Proof/Laws/Shape.lean ====
section
/-! SUPPORT. The shape of every meaning: a function of the device, run by `run`, but for the burn that ends and the event of BOOT that reads
the fuses. -/
namespace Sys2Proof.Machine
set_option linter.unusedVariables false

/-- What `exec` of a command can be. -/
def Shape (s : State) (o : Host.Outcome State Fault Refusal) : Prop :=
  (∃ f, o = run s f) ∨ (∃ img f, o = runBurn s img f) ∨ ∃ f, o = runLoad s f

theorem execMainClockFault_shape m elapsed s : Shape s (execMainClockFault m elapsed s) := by
  unfold execMainClockFault; exact .inl ⟨_, rfl⟩
theorem execMainClockRelease_shape elapsed s : Shape s (execMainClockRelease elapsed s) := by
  unfold execMainClockRelease; exact .inl ⟨_, rfl⟩
theorem execClassAClockFault_shape scc sk elapsed s : Shape s (execClassAClockFault scc sk elapsed s) := by
  unfold execClassAClockFault; exact .inl ⟨_, rfl⟩
theorem execReferenceLossOfLock_shape ref s : Shape s (execReferenceLossOfLock ref s) := by
  unfold execReferenceLossOfLock; exact .inl ⟨_, rfl⟩
theorem execScrubAccess_shape mem bank c bits use at_ s : Shape s (execScrubAccess mem bank c bits use at_ s) := by
  unfold execScrubAccess; exact .inl ⟨_, rfl⟩
theorem execEccWriteBack_shape mem bank word s : Shape s (execEccWriteBack mem bank word s) := by
  unfold execEccWriteBack; exact .inl ⟨_, rfl⟩
theorem execSupervisorRestartDone_shape s : Shape s (execSupervisorRestartDone s) := by
  unfold execSupervisorRestartDone; exact .inl ⟨_, rfl⟩
theorem execSupervisorWatchdog_shape s : Shape s (execSupervisorWatchdog s) := by
  unfold execSupervisorWatchdog; exact .inl ⟨_, rfl⟩
theorem execTickEdge_shape rival hm s : Shape s (execTickEdge rival hm s) := by
  unfold execTickEdge; exact .inl ⟨_, rfl⟩
theorem execTidePeriodWrite_shape t s : Shape s (execTidePeriodWrite t s) := by
  unfold execTidePeriodWrite; exact .inl ⟨_, rfl⟩
theorem execTideGuardWrite_shape g s : Shape s (execTideGuardWrite g s) := by
  unfold execTideGuardWrite; exact .inl ⟨_, rfl⟩
theorem execStepReq_shape s : Shape s (execStepReq s) := by
  unfold execStepReq; exact .inl ⟨_, rfl⟩
theorem execSyncFerryRx_shape p m rx crcOk s : Shape s (execSyncFerryRx p m rx crcOk s) := by
  unfold execSyncFerryRx; exact .inl ⟨_, rfl⟩
theorem execAcquireTimeout_shape s : Shape s (execAcquireTimeout s) := by
  unfold execAcquireTimeout; exact .inl ⟨_, rfl⟩
theorem execLockedSyncTimeout_shape s : Shape s (execLockedSyncTimeout s) := by
  unfold execLockedSyncTimeout; exact .inl ⟨_, rfl⟩
theorem execHoldoverExp_shape s : Shape s (execHoldoverExp s) := by
  unfold execHoldoverExp; exact .inl ⟨_, rfl⟩
theorem execDelayRequestTimer_shape p s : Shape s (execDelayRequestTimer p s) := by
  unfold execDelayRequestTimer; exact .inl ⟨_, rfl⟩
theorem execDelayReqRx_shape p t2 s : Shape s (execDelayReqRx p t2 s) := by
  unfold execDelayReqRx; exact .inl ⟨_, rfl⟩
theorem execDelayRespRx_shape p t2 t3 t4 s : Shape s (execDelayRespRx p t2 t3 t4 s) := by
  unfold execDelayRespRx; exact .inl ⟨_, rfl⟩
theorem execTickGuardExpiry_shape s : Shape s (execTickGuardExpiry s) := by
  unfold execTickGuardExpiry; exact .inl ⟨_, rfl⟩
theorem execIsleStall_shape n at_ s : Shape s (execIsleStall n at_ s) := by
  unfold execIsleStall; exact .inl ⟨_, rfl⟩
theorem execSampleContainerRx_shape r i_ filled crcOk parity rec at_ ue s : Shape s (execSampleContainerRx r i_ filled crcOk parity rec at_ ue s) := by
  unfold execSampleContainerRx; exact .inl ⟨_, rfl⟩
theorem execNodeSilent_shape r i_ at_ s : Shape s (execNodeSilent r i_ at_ s) := by
  unfold execNodeSilent; exact .inl ⟨_, rfl⟩
theorem execIsleWake_shape n at_ injFail s : Shape s (execIsleWake n at_ injFail s) := by
  unfold execIsleWake; exact .inl ⟨_, rfl⟩
theorem execChRange_shape n c at_ s : Shape s (execChRange n c at_ s) := by
  unfold execChRange; exact .inl ⟨_, rfl⟩
theorem execChStale_shape n c at_ s : Shape s (execChStale n c at_ s) := by
  unfold execChStale; exact .inl ⟨_, rfl⟩
theorem execOscWindowEnd_shape n j at_ s : Shape s (execOscWindowEnd n j at_ s) := by
  unfold execOscWindowEnd; exact .inl ⟨_, rfl⟩
theorem execSwStale_shape n j at_ s : Shape s (execSwStale n j at_ s) := by
  unfold execSwStale; exact .inl ⟨_, rfl⟩
theorem execLatRst_shape n s : Shape s (execLatRst n s) := by
  unfold execLatRst; exact .inl ⟨_, rfl⟩
theorem execPlanImageWrite_shape o bytes i_ s : Shape s (execPlanImageWrite o bytes i_ s) := by
  unfold execPlanImageWrite; exact .inl ⟨_, rfl⟩
theorem execIsleLoadDone_shape n ok s : Shape s (execIsleLoadDone n ok s) := by
  unfold execIsleLoadDone; exact .inl ⟨_, rfl⟩
theorem execAbort_shape s : Shape s (execAbort s) := by
  unfold execAbort; exact .inl ⟨_, rfl⟩
theorem execCommit_shape s : Shape s (execCommit s) := by
  unfold execCommit; exact .inl ⟨_, rfl⟩
theorem execEfOverrideWrite_shape n w f s : Shape s (execEfOverrideWrite n w f s) := by
  unfold execEfOverrideWrite; exact .inl ⟨_, rfl⟩
theorem execStringCmdOff_shape x s : Shape s (execStringCmdOff x s) := by
  unfold execStringCmdOff; exact .inl ⟨_, rfl⟩
theorem execStringCmdPrecharge_shape x hops others s : Shape s (execStringCmdPrecharge x hops others s) := by
  unfold execStringCmdPrecharge; exact .inl ⟨_, rfl⟩
theorem execStringCmdRun_shape x others s : Shape s (execStringCmdRun x others s) := by
  unfold execStringCmdRun; exact .inl ⟨_, rfl⟩
theorem execStringCmdSafe_shape x s : Shape s (execStringCmdSafe x s) := by
  unfold execStringCmdSafe; exact .inl ⟨_, rfl⟩
theorem execBypassRequest_shape x pos at_ s : Shape s (execBypassRequest x pos at_ s) := by
  unfold execBypassRequest; exact .inl ⟨_, rfl⟩
theorem execBarrierDeadline_shape x at_ s : Shape s (execBarrierDeadline x at_ s) := by
  unfold execBarrierDeadline; exact .inl ⟨_, rfl⟩
theorem execRankingDelivered_shape x at_ s : Shape s (execRankingDelivered x at_ s) := by
  unfold execRankingDelivered; exact .inl ⟨_, rfl⟩
theorem execRespreadComplete_shape x s : Shape s (execRespreadComplete x s) := by
  unfold execRespreadComplete; exact .inl ⟨_, rfl⟩
theorem execPreDone_shape x s : Shape s (execPreDone x s) := by
  unfold execPreDone; exact .inl ⟨_, rfl⟩
theorem execPreTmo_shape x at_ s : Shape s (execPreTmo x at_ s) := by
  unfold execPreTmo; exact .inl ⟨_, rfl⟩
theorem execSegLost_shape x at_ s : Shape s (execSegLost x at_ s) := by
  unfold execSegLost; exact .inl ⟨_, rfl⟩
theorem execCwListRx_shape h part parts tot cells at_ s : Shape s (execCwListRx h part parts tot cells at_ s) := by
  unfold execCwListRx; exact .inl ⟨_, rfl⟩
theorem execCwWordRx_shape h sstate fields integ s : Shape s (execCwWordRx h sstate fields integ s) := by
  unfold execCwWordRx; exact .inl ⟨_, rfl⟩
theorem execCwFaultRx_shape h safe cause pos stamp at_ s : Shape s (execCwFaultRx h safe cause pos stamp at_ s) := by
  unfold execCwFaultRx; exact .inl ⟨_, rfl⟩
theorem execCausewayDeadline_shape s : Shape s (execCausewayDeadline s) := by
  unfold execCausewayDeadline; exact .inl ⟨_, rfl⟩
theorem execBlockRx_shape n hdr x slip at_ s : Shape s (execBlockRx n hdr x slip at_ s) := by
  unfold execBlockRx; exact .inl ⟨_, rfl⟩
theorem execLosAssert_shape n pin s : Shape s (execLosAssert n pin s) := by
  unfold execLosAssert; exact .inl ⟨_, rfl⟩
theorem execLosClear_shape n pin s : Shape s (execLosClear n pin s) := by
  unfold execLosClear; exact .inl ⟨_, rfl⟩
theorem execLol_shape n s : Shape s (execLol n s) := by
  unfold execLol; exact .inl ⟨_, rfl⟩
theorem execCdrLock_shape n s : Shape s (execCdrLock n s) := by
  unfold execCdrLock; exact .inl ⟨_, rfl⟩
theorem execBlockLock_shape n s : Shape s (execBlockLock n s) := by
  unfold execBlockLock; exact .inl ⟨_, rfl⟩
theorem execBlockLockLoss_shape n s : Shape s (execBlockLockLoss n s) := by
  unfold execBlockLockLoss; exact .inl ⟨_, rfl⟩
theorem execPolarityDetect_shape n inverted s : Shape s (execPolarityDetect n inverted s) := by
  unfold execPolarityDetect; exact .inl ⟨_, rfl⟩
theorem execHandshakeComplete_shape p id0 id1 s : Shape s (execHandshakeComplete p id0 id1 s) := by
  unfold execHandshakeComplete; exact .inl ⟨_, rfl⟩
theorem execRingTrainingComplete_shape r s : Shape s (execRingTrainingComplete r s) := by
  unfold execRingTrainingComplete; exact .inl ⟨_, rfl⟩
theorem execTrainTmo_shape n elapsed s : Shape s (execTrainTmo n elapsed s) := by
  unfold execTrainTmo; exact .inl ⟨_, rfl⟩
theorem execMarkerLock_shape n s : Shape s (execMarkerLock n s) := by
  unfold execMarkerLock; exact .inl ⟨_, rfl⟩
theorem execMarkerLockLoss_shape n s : Shape s (execMarkerLockLoss n s) := by
  unfold execMarkerLockLoss; exact .inl ⟨_, rfl⟩
theorem execDeskewComplete_shape p skew later s : Shape s (execDeskewComplete p skew later s) := by
  unfold execDeskewComplete; exact .inl ⟨_, rfl⟩
theorem execLaneRateWrite_shape n v s : Shape s (execLaneRateWrite n v s) := by
  unfold execLaneRateWrite; exact .inl ⟨_, rfl⟩
theorem execLpmRequest_shape n v s : Shape s (execLpmRequest n v s) := by
  unfold execLpmRequest; exact .inl ⟨_, rfl⟩
theorem execEidleRx_shape n deep s : Shape s (execEidleRx n deep s) := by
  unfold execEidleRx; exact .inl ⟨_, rfl⟩
theorem execElectricalIdleExit_shape n host burst s : Shape s (execElectricalIdleExit n host burst s) := by
  unfold execElectricalIdleExit; exact .inl ⟨_, rfl⟩
theorem execDeepIdleExit_shape n s : Shape s (execDeepIdleExit n s) := by
  unfold execDeepIdleExit; exact .inl ⟨_, rfl⟩
theorem execPrbsGenEn_shape n on s : Shape s (execPrbsGenEn n on s) := by
  unfold execPrbsGenEn; exact .inl ⟨_, rfl⟩
theorem execChkLock_shape n locked errors s : Shape s (execChkLock n locked errors s) := by
  unfold execChkLock; exact .inl ⟨_, rfl⟩
theorem execInjOne_shape n s : Shape s (execInjOne n s) := by
  unfold execInjOne; exact .inl ⟨_, rfl⟩
theorem execInjRateFlip_shape n s : Shape s (execInjRateFlip n s) := by
  unfold execInjRateFlip; exact .inl ⟨_, rfl⟩
theorem execInjPayload_shape n s : Shape s (execInjPayload n s) := by
  unfold execInjPayload; exact .inl ⟨_, rfl⟩
theorem execInjSyncHeader_shape n s : Shape s (execInjSyncHeader n s) := by
  unfold execInjSyncHeader; exact .inl ⟨_, rfl⟩
theorem execMod2wStart_shape n s : Shape s (execMod2wStart n s) := by
  unfold execMod2wStart; exact .inl ⟨_, rfl⟩
theorem execMod2wDone_shape n nack data s : Shape s (execMod2wDone n nack data s) := by
  unfold execMod2wDone; exact .inl ⟨_, rfl⟩
theorem execModabsChange_shape n absent s : Shape s (execModabsChange n absent s) := by
  unfold execModabsChange; exact .inl ⟨_, rfl⟩
theorem execLaneEqWrite_shape n v s : Shape s (execLaneEqWrite n v s) := by
  unfold execLaneEqWrite; exact .inl ⟨_, rfl⟩
theorem execSampleTrainTx_shape r s : Shape s (execSampleTrainTx r s) := by
  unfold execSampleTrainTx; exact .inl ⟨_, rfl⟩
theorem execEdgeFrameTx_shape r at_ s : Shape s (execEdgeFrameTx r at_ s) := by
  unfold execEdgeFrameTx; exact .inl ⟨_, rfl⟩
theorem execServiceFrameTx_shape r at_ s : Shape s (execServiceFrameTx r at_ s) := by
  unfold execServiceFrameTx; exact .inl ⟨_, rfl⟩
theorem execTideEchoRx_shape r delay ok s : Shape s (execTideEchoRx r delay ok s) := by
  unfold execTideEchoRx; exact .inl ⟨_, rfl⟩
theorem execEdgeEchoRx_shape r crcOk f s : Shape s (execEdgeEchoRx r crcOk f s) := by
  unfold execEdgeEchoRx; exact .inl ⟨_, rfl⟩
theorem execEnumReplyRx_shape r filled s : Shape s (execEnumReplyRx r filled s) := by
  unfold execEnumReplyRx; exact .inl ⟨_, rfl⟩
theorem execEnumErr_shape r s : Shape s (execEnumErr r s) := by
  unfold execEnumErr; exact .inl ⟨_, rfl⟩
theorem execRingReady_shape r s : Shape s (execRingReady r s) := by
  unfold execRingReady; exact .inl ⟨_, rfl⟩
theorem execServiceRequest_shape r obj s : Shape s (execServiceRequest r obj s) := by
  unfold execServiceRequest; exact .inl ⟨_, rfl⟩
theorem execServiceReplyRx_shape r i_ crcOk l at_ s : Shape s (execServiceReplyRx r i_ crcOk l at_ s) := by
  unfold execServiceReplyRx; exact .inl ⟨_, rfl⟩
theorem execSvcTmo_shape r i_ at_ s : Shape s (execSvcTmo r i_ at_ s) := by
  unfold execSvcTmo; exact .inl ⟨_, rfl⟩
theorem execEnum_shape r i_ b hd q free s : Shape s (execEnum r i_ b hd q free s) := by
  unfold execEnum; exact .inl ⟨_, rfl⟩
theorem execIdent_shape r i_ b hd q s : Shape s (execIdent r i_ b hd q s) := by
  unfold execIdent answer; exact .inl ⟨_, rfl⟩
theorem execOffset_shape r i_ b hd q v s : Shape s (execOffset r i_ b hd q v s) := by
  unfold execOffset answer; exact .inl ⟨_, rfl⟩
theorem execNodeCfg_shape r i_ b hd q args s : Shape s (execNodeCfg r i_ b hd q args s) := by
  unfold execNodeCfg answer; exact .inl ⟨_, rfl⟩
theorem execDrvWr_shape r i_ b hd q g a v s : Shape s (execDrvWr r i_ b hd q g a v s) := by
  unfold execDrvWr answer; exact .inl ⟨_, rfl⟩
theorem execDrvRd_shape r i_ b hd q g a s : Shape s (execDrvRd r i_ b hd q g a s) := by
  unfold execDrvRd answer; exact .inl ⟨_, rfl⟩
theorem execSelftest_shape r i_ b hd q mask alertTest passed s : Shape s (execSelftest r i_ b hd q mask alertTest passed s) := by
  unfold execSelftest; exact .inl ⟨_, rfl⟩
theorem execStat_shape r i_ b hd q code s : Shape s (execStat r i_ b hd q code s) := by
  unfold execStat answer; exact .inl ⟨_, rfl⟩
theorem execAlertRx_shape r node cause gates crcOk at_ s : Shape s (execAlertRx r node cause gates crcOk at_ s) := by
  unfold execAlertRx; exact .inl ⟨_, rfl⟩
theorem execHaltEchoRx_shape r node loop s : Shape s (execHaltEchoRx r node loop s) := by
  unfold execHaltEchoRx; exact .inl ⟨_, rfl⟩
theorem execHaltEchoTimeout_shape r node s : Shape s (execHaltEchoTimeout r node s) := by
  unfold execHaltEchoTimeout; exact .inl ⟨_, rfl⟩
theorem execHaltRelease_shape r mask at_ s : Shape s (execHaltRelease r mask at_ s) := by
  unfold execHaltRelease; exact .inl ⟨_, rfl⟩
theorem execHaltPolicyWrite_shape r i_ v s : Shape s (execHaltPolicyWrite r i_ v s) := by
  unfold execHaltPolicyWrite; exact .inl ⟨_, rfl⟩
theorem execDrvCheckPeriod_shape r s : Shape s (execDrvCheckPeriod r s) := by
  unfold execDrvCheckPeriod; exact .inl ⟨_, rfl⟩
theorem execNodeTickEdge_shape r i_ lostA lostB s : Shape s (execNodeTickEdge r i_ lostA lostB s) := by
  unfold execNodeTickEdge; exact .inl ⟨_, rfl⟩
theorem execNodeTideHeaderRx_shape r i_ b hd h arr s : Shape s (execNodeTideHeaderRx r i_ b hd h arr s) := by
  unfold execNodeTideHeaderRx; exact .inl ⟨_, rfl⟩
theorem execNodeEdgeFrameRx_shape r i_ b hd f at_ s : Shape s (execNodeEdgeFrameRx r i_ b hd f at_ s) := by
  unfold execNodeEdgeFrameRx; exact .inl ⟨_, rfl⟩
theorem execNodeHaltRx_shape r i_ b target byp par crc at_ s : Shape s (execNodeHaltRx r i_ b target byp par crc at_ s) := by
  unfold execNodeHaltRx; exact .inl ⟨_, rfl⟩
theorem execNodeDriverReport_shape r i_ causes gates stands s : Shape s (execNodeDriverReport r i_ causes gates stands s) := by
  unfold execNodeDriverReport; exact .inl ⟨_, rfl⟩
theorem execNodeSilence_shape r i_ s : Shape s (execNodeSilence r i_ s) := by
  unfold execNodeSilence atNode; exact .inl ⟨_, rfl⟩
theorem execNodeOrphan_shape r i_ s : Shape s (execNodeOrphan r i_ s) := by
  unfold execNodeOrphan atNode; exact .inl ⟨_, rfl⟩
theorem execNodeBootstrapRefresh_shape r i_ at_ s : Shape s (execNodeBootstrapRefresh r i_ at_ s) := by
  unfold execNodeBootstrapRefresh atNode; exact .inl ⟨_, rfl⟩
theorem execHelloTimer_shape p s : Shape s (execHelloTimer p s) := by
  unfold execHelloTimer; exact .inl ⟨_, rfl⟩
theorem execHelloRx_shape p h crcOk s : Shape s (execHelloRx p h crcOk s) := by
  unfold execHelloRx; exact .inl ⟨_, rfl⟩
theorem execNeighbourTimeout_shape p elapsed s : Shape s (execNeighbourTimeout p elapsed s) := by
  unfold execNeighbourTimeout; exact .inl ⟨_, rfl⟩
theorem execPortAdminWrite_shape p v s : Shape s (execPortAdminWrite p v s) := by
  unfold execPortAdminWrite; exact .inl ⟨_, rfl⟩
theorem execLsaRx_shape p l crcOk s : Shape s (execLsaRx p l crcOk s) := by
  unfold execLsaRx; exact .inl ⟨_, rfl⟩
theorem execLsaRefresh_shape second s : Shape s (execLsaRefresh second s) := by
  unfold execLsaRefresh; exact .inl ⟨_, rfl⟩
theorem execLsaWithdraw_shape u s : Shape s (execLsaWithdraw u s) := by
  unfold execLsaWithdraw; exact .inl ⟨_, rfl⟩
theorem execRouteRecomputeDone_shape s : Shape s (execRouteRecomputeDone s) := by
  unfold execRouteRecomputeDone; exact .inl ⟨_, rfl⟩
theorem execLeaseReq_shape s : Shape s (execLeaseReq s) := by
  unfold execLeaseReq; exact .inl ⟨_, rfl⟩
theorem execLeaseGrant_shape u s : Shape s (execLeaseGrant u s) := by
  unfold execLeaseGrant; exact .inl ⟨_, rfl⟩
theorem execLeaseRx_shape p u a time fromRoot crcOk s : Shape s (execLeaseRx p u a time fromRoot crcOk s) := by
  unfold execLeaseRx; exact .inl ⟨_, rfl⟩
theorem execLeaseRenewal_shape s : Shape s (execLeaseRenewal s) := by
  unfold execLeaseRenewal; exact .inl ⟨_, rfl⟩
theorem execLeaseLost_shape s : Shape s (execLeaseLost s) := by
  unfold execLeaseLost; exact .inl ⟨_, rfl⟩
theorem execBecomeRoot_shape s : Shape s (execBecomeRoot s) := by
  unfold execBecomeRoot; exact .inl ⟨_, rfl⟩
theorem execResign_shape s : Shape s (execResign s) := by
  unfold execResign; exact .inl ⟨_, rfl⟩
theorem execEpochRx_shape p m crcOk s : Shape s (execEpochRx p m crcOk s) := by
  unfold execEpochRx; exact .inl ⟨_, rfl⟩
theorem execPartitionHoldExpiry_shape src elapsed at_ s : Shape s (execPartitionHoldExpiry src elapsed at_ s) := by
  unfold execPartitionHoldExpiry; exact .inl ⟨_, rfl⟩
theorem execMergeRx_shape p m src crcOk s : Shape s (execMergeRx p m src crcOk s) := by
  unfold execMergeRx; exact .inl ⟨_, rfl⟩
theorem execMergeCompletion_shape epoch k0 period near s : Shape s (execMergeCompletion epoch k0 period near s) := by
  unfold execMergeCompletion; exact .inl ⟨_, rfl⟩
theorem execFerryRx_shape p f hdrOk lenOk trailerOk stomp at_ s : Shape s (execFerryRx p f hdrOk lenOk trailerOk stomp at_ s) := by
  unfold execFerryRx; exact .inl ⟨_, rfl⟩
theorem execFerryTxStart_shape p at_ s : Shape s (execFerryTxStart p at_ s) := by
  unfold execFerryTxStart; exact .inl ⟨_, rfl⟩
theorem execCreditRx_shape p c limit crcOk s : Shape s (execCreditRx p c limit crcOk s) := by
  unfold execCreditRx; exact .inl ⟨_, rfl⟩
theorem execCsyncRx_shape p c consumed crcOk s : Shape s (execCsyncRx p c consumed crcOk s) := by
  unfold execCsyncRx; exact .inl ⟨_, rfl⟩
theorem execCreditSend_shape p c at_ s : Shape s (execCreditSend p c at_ s) := by
  unfold execCreditSend; exact .inl ⟨_, rfl⟩
theorem execCsyncTimer_shape p at_ s : Shape s (execCsyncTimer p at_ s) := by
  unfold execCsyncTimer; exact .inl ⟨_, rfl⟩
theorem execCreditTimeout_shape p c elapsed at_ s : Shape s (execCreditTimeout p c elapsed at_ s) := by
  unfold execCreditTimeout; exact .inl ⟨_, rfl⟩
theorem execResidenceExpiry_shape at_ s : Shape s (execResidenceExpiry at_ s) := by
  unfold execResidenceExpiry; exact .inl ⟨_, rfl⟩
theorem execCapArm_shape j s : Shape s (execCapArm j s) := by
  unfold execCapArm; exact .inl ⟨_, rfl⟩
theorem execCapTrigNow_shape j s : Shape s (execCapTrigNow j s) := by
  unfold execCapTrigNow; exact .inl ⟨_, rfl⟩
theorem execCapRelease_shape j s : Shape s (execCapRelease j s) := by
  unfold execCapRelease; exact .inl ⟨_, rfl⟩
theorem execCapTrigRx_shape kt epoch s : Shape s (execCapTrigRx kt epoch s) := by
  unfold execCapTrigRx; exact .inl ⟨_, rfl⟩
theorem execCaptureHeld_shape j s : Shape s (execCaptureHeld j s) := by
  unfold execCaptureHeld; exact .inl ⟨_, rfl⟩
theorem execCapDataTx_shape j at_ s : Shape s (execCapDataTx j at_ s) := by
  unfold execCapDataTx; exact .inl ⟨_, rfl⟩
theorem execCapAckRx_shape j bytes s : Shape s (execCapAckRx j bytes s) := by
  unfold execCapAckRx; exact .inl ⟨_, rfl⟩
theorem execCapResend_shape j s : Shape s (execCapResend j s) := by
  unfold execCapResend; exact .inl ⟨_, rfl⟩
theorem execDicReqRx_shape src id typ tx seq first last body image crcOk at_ s : Shape s (execDicReqRx src id typ tx seq first last body image crcOk at_ s) := by
  unfold execDicReqRx; exact .inl ⟨_, rfl⟩
theorem execDicRspRx_shape src id seq first last body crcOk s : Shape s (execDicRspRx src id seq first last body crcOk s) := by
  unfold execDicRspRx; exact .inl ⟨_, rfl⟩
theorem execReassemblyTimeout_shape src reply elapsed s : Shape s (execReassemblyTimeout src reply elapsed s) := by
  unfold execReassemblyTimeout; exact .inl ⟨_, rfl⟩
theorem execPairHbRx_shape h crcOk s : Shape s (execPairHbRx h crcOk s) := by
  unfold execPairHbRx; exact .inl ⟨_, rfl⟩
theorem execPairDigRx_shape tick first digests crcOk s : Shape s (execPairDigRx tick first digests crcOk s) := by
  unfold execPairDigRx; exact .inl ⟨_, rfl⟩
theorem execPairAliveInTransition_shape s : Shape s (execPairAliveInTransition s) := by
  unfold execPairAliveInTransition; exact .inl ⟨_, rfl⟩
theorem execPartnerLost_shape s : Shape s (execPartnerLost s) := by
  unfold execPartnerLost; exact .inl ⟨_, rfl⟩
theorem execMirCfgRx_shape items crcOk at_ s : Shape s (execMirCfgRx items crcOk at_ s) := by
  unfold execMirCfgRx; exact .inl ⟨_, rfl⟩
theorem execMirCfgIdleTimer_shape at_ s : Shape s (execMirCfgIdleTimer at_ s) := by
  unfold execMirCfgIdleTimer; exact .inl ⟨_, rfl⟩
theorem execMirrorAgeExpiry_shape at_ s : Shape s (execMirrorAgeExpiry at_ s) := by
  unfold execMirrorAgeExpiry; exact .inl ⟨_, rfl⟩
theorem execRevertHoldoffExpiry_shape s : Shape s (execRevertHoldoffExpiry s) := by
  unfold execRevertHoldoffExpiry; exact .inl ⟨_, rfl⟩
theorem execRevertReqRx_shape kh crcOk s : Shape s (execRevertReqRx kh crcOk s) := by
  unfold execRevertReqRx; exact .inl ⟨_, rfl⟩
theorem execRevertAckRx_shape kh crcOk s : Shape s (execRevertAckRx kh crcOk s) := by
  unfold execRevertAckRx; exact .inl ⟨_, rfl⟩
theorem execRevertFail_shape s : Shape s (execRevertFail s) := by
  unfold execRevertFail; exact .inl ⟨_, rfl⟩
theorem execSwitch_shape s : Shape s (execSwitch s) := by
  unfold execSwitch; exact .inl ⟨_, rfl⟩
theorem execSfiAccept_shape ch i_ b lvl s : Shape s (execSfiAccept ch i_ b lvl s) := by
  unfold execSfiAccept; exact .inl ⟨_, rfl⟩
theorem execDiscrepancyFault_shape ch i_ elapsed s : Shape s (execDiscrepancyFault ch i_ elapsed s) := by
  unfold execDiscrepancyFault; exact .inl ⟨_, rfl⟩
theorem execStoTestPulse_shape ch p stuck s : Shape s (execStoTestPulse ch p stuck s) := by
  unfold execStoTestPulse; exact .inl ⟨_, rfl⟩
theorem execReadbackMismatch_shape elapsed s : Shape s (execReadbackMismatch elapsed s) := by
  unfold execReadbackMismatch; exact .inl ⟨_, rfl⟩
theorem execSs1TimerExpiry_shape ch p elapsed s : Shape s (execSs1TimerExpiry ch p elapsed s) := by
  unfold execSs1TimerExpiry; exact .inl ⟨_, rfl⟩
theorem execSafetySpeedCheck_shape p elapsed s : Shape s (execSafetySpeedCheck p elapsed s) := by
  unfold execSafetySpeedCheck; exact .inl ⟨_, rfl⟩
theorem execSkerrySlsWindow_shape p edges s : Shape s (execSkerrySlsWindow p edges s) := by
  unfold execSkerrySlsWindow; exact .inl ⟨_, rfl⟩
theorem execXchk_shape elapsed s : Shape s (execXchk elapsed s) := by
  unfold execXchk; exact .inl ⟨_, rfl⟩
theorem execWdg_shape elapsed s : Shape s (execWdg elapsed s) := by
  unfold execWdg; exact .inl ⟨_, rfl⟩
theorem execSkerrySelfCheck_shape failed s : Shape s (execSkerrySelfCheck failed s) := by
  unfold execSkerrySelfCheck; exact .inl ⟨_, rfl⟩
theorem execLockstepMismatch_shape s : Shape s (execLockstepMismatch s) := by
  unfold execLockstepMismatch; exact .inl ⟨_, rfl⟩
theorem execHostReset_shape mask s : Shape s (execHostReset mask s) := by
  unfold execHostReset; exact .inl ⟨_, rfl⟩
theorem execSpbWrite_shape l s : Shape s (execSpbWrite l s) := by
  unfold execSpbWrite; exact .inl ⟨_, rfl⟩
theorem execConfirm_shape o v s : Shape s (execConfirm o v s) := by
  unfold execConfirm; exact .inl ⟨_, rfl⟩
theorem execFuseBurnDone_shape taken s : Shape s (execFuseBurnDone taken s) := by
  unfold execFuseBurnDone; exact .inr (.inl ⟨_, _, rfl⟩)
theorem execClassBAck_shape mask s : Shape s (execClassBAck mask s) := by
  unfold execClassBAck; exact .inl ⟨_, rfl⟩
theorem execMvLoss_shape elapsed s : Shape s (execMvLoss elapsed s) := by
  unfold execMvLoss; exact .inl ⟨_, rfl⟩
theorem execEnReqWrite_shape p en s : Shape s (execEnReqWrite p en s) := by
  unfold execEnReqWrite; exact .inl ⟨_, rfl⟩
theorem execPortSettingWrite_shape p off v s : Shape s (execPortSettingWrite p off v s) := by
  unfold execPortSettingWrite; exact .inl ⟨_, rfl⟩
theorem execPortWake_shape p s : Shape s (execPortWake p s) := by
  unfold execPortWake; exact .inl ⟨_, rfl⟩
theorem execLatchEvent_shape p at_ s : Shape s (execLatchEvent p at_ s) := by
  unfold execLatchEvent; exact .inl ⟨_, rfl⟩
theorem execReloadPoint_shape p at_ s : Shape s (execReloadPoint p at_ s) := by
  unfold execReloadPoint; exact .inl ⟨_, rfl⟩
theorem execTBscExpiry_shape p elapsed s : Shape s (execTBscExpiry p elapsed s) := by
  unfold execTBscExpiry; exact .inl ⟨_, rfl⟩
theorem execTripAccept_shape p i_ lvl s : Shape s (execTripAccept p i_ lvl s) := by
  unfold execTripAccept; exact .inl ⟨_, rfl⟩
theorem execFaultInputAccept_shape p lvl at_ s : Shape s (execFaultInputAccept p lvl at_ s) := by
  unfold execFaultInputAccept; exact .inl ⟨_, rfl⟩
theorem execReadyTimeout_shape p elapsed s : Shape s (execReadyTimeout p elapsed s) := by
  unfold execReadyTimeout; exact .inl ⟨_, rfl⟩
theorem execToggleComplete_shape p elapsed s : Shape s (execToggleComplete p elapsed s) := by
  unfold execToggleComplete; exact .inl ⟨_, rfl⟩
theorem execBootstrapRefresh_shape p x at_ s : Shape s (execBootstrapRefresh p x at_ s) := by
  unfold execBootstrapRefresh; exact .inl ⟨_, rfl⟩
theorem execDelayLineCalibration_shape p span s : Shape s (execDelayLineCalibration p span s) := by
  unfold execDelayLineCalibration; exact .inl ⟨_, rfl⟩
theorem execQuadEdge_shape f a b at_ s : Shape s (execQuadEdge f a b at_ s) := by
  unfold execQuadEdge; exact .inl ⟨_, rfl⟩
theorem execSincosSample_shape f sn cs at_ s : Shape s (execSincosSample f sn cs at_ s) := by
  unfold execSincosSample; exact .inl ⟨_, rfl⟩
theorem execAmpErr_shape f s : Shape s (execAmpErr f s) := by
  unfold execAmpErr; exact .inl ⟨_, rfl⟩
theorem execAmpErrClear_shape f s : Shape s (execAmpErrClear f s) := by
  unfold execAmpErrClear; exact .inl ⟨_, rfl⟩
theorem execCableFlt_shape f elapsed s : Shape s (execCableFlt f elapsed s) := by
  unfold execCableFlt; exact .inl ⟨_, rfl⟩
theorem execSsiFrameStart_shape f at_ s : Shape s (execSsiFrameStart f at_ s) := by
  unfold execSsiFrameStart; exact .inl ⟨_, rfl⟩
theorem execSsiFrameEnd_shape f before low data errBit parBit high s : Shape s (execSsiFrameEnd f before low data errBit parBit high s) := by
  unfold execSsiFrameEnd; exact .inl ⟨_, rfl⟩
theorem execSsiFlt_shape f s : Shape s (execSsiFlt f s) := by
  unfold execSsiFlt; exact .inl ⟨_, rfl⟩
theorem execIndexEvent_shape f z s : Shape s (execIndexEvent f z s) := by
  unfold execIndexEvent; exact .inl ⟨_, rfl⟩
theorem execRefArm_shape f s : Shape s (execRefArm f s) := by
  unfold execRefArm; exact .inl ⟨_, rfl⟩
theorem execSet_shape f s : Shape s (execSet f s) := by
  unfold execSet; exact .inl ⟨_, rfl⟩
theorem execEncFltClr_shape f cablePresent s : Shape s (execEncFltClr f cablePresent s) := by
  unfold execEncFltClr; exact .inl ⟨_, rfl⟩
theorem execEncModeWrite_shape f m s : Shape s (execEncModeWrite f m s) := by
  unfold execEncModeWrite; exact .inl ⟨_, rfl⟩
theorem execStandstill_shape f at_ s : Shape s (execStandstill f at_ s) := by
  unfold execStandstill; exact .inl ⟨_, rfl⟩
theorem execSequenceStart_shape at_ s : Shape s (execSequenceStart at_ s) := by
  unfold execSequenceStart; exact .inl ⟨_, rfl⟩
theorem execConversionEnd_shape n code s : Shape s (execConversionEnd n code s) := by
  unfold execConversionEnd; exact .inl ⟨_, rfl⟩
theorem execConversionTimeout_shape n at_ s : Shape s (execConversionTimeout n at_ s) := by
  unfold execConversionTimeout; exact .inl ⟨_, rfl⟩
theorem execAdcStale_shape n s : Shape s (execAdcStale n s) := by
  unfold execAdcStale; exact .inl ⟨_, rfl⟩
theorem execCalZero_shape n s : Shape s (execCalZero n s) := by
  unfold execCalZero; exact .inl ⟨_, rfl⟩
theorem execCalFs_shape n vfs s : Shape s (execCalFs n vfs s) := by
  unfold execCalFs; exact .inl ⟨_, rfl⟩
theorem execCalAbort_shape n s : Shape s (execCalAbort n s) := by
  unfold execCalAbort; exact .inl ⟨_, rfl⟩
theorem execCalDone_shape n s : Shape s (execCalDone n s) := by
  unfold execCalDone; exact .inl ⟨_, rfl⟩
theorem execCalTimeout_shape n s : Shape s (execCalTimeout n s) := by
  unfold execCalTimeout; exact .inl ⟨_, rfl⟩
theorem execAdcFltClr_shape c0 c1 s : Shape s (execAdcFltClr c0 c1 s) := by
  unfold execAdcFltClr; exact .inl ⟨_, rfl⟩
theorem execRefSelWrite_shape v s : Shape s (execRefSelWrite v s) := by
  unfold execRefSelWrite; exact .inl ⟨_, rfl⟩
theorem execRefSettled_shape elapsed s : Shape s (execRefSettled elapsed s) := by
  unfold execRefSettled; exact .inl ⟨_, rfl⟩
theorem execRefErr_shape s : Shape s (execRefErr s) := by
  unfold execRefErr; exact .inl ⟨_, rfl⟩
theorem execSessionOpen_shape m at_ s : Shape s (execSessionOpen m at_ s) := by
  unfold execSessionOpen; exact .inl ⟨_, rfl⟩
theorem execSessionClose_shape m at_ s : Shape s (execSessionClose m at_ s) := by
  unfold execSessionClose; exact .inl ⟨_, rfl⟩
theorem execKeepalive_shape m at_ s : Shape s (execKeepalive m at_ s) := by
  unfold execKeepalive; exact .inl ⟨_, rfl⟩
theorem execRead_shape m at_ s : Shape s (execRead m at_ s) := by
  unfold execRead; exact .inl ⟨_, rfl⟩
theorem execWrite_shape m at_ s : Shape s (execWrite m at_ s) := by
  unfold execWrite; exact .inl ⟨_, rfl⟩
theorem execTxOpen_shape m at_ s : Shape s (execTxOpen m at_ s) := by
  unfold execTxOpen; exact .inl ⟨_, rfl⟩
theorem execTxWrite_shape m image at_ s : Shape s (execTxWrite m image at_ s) := by
  unfold execTxWrite; exact .inl ⟨_, rfl⟩
theorem execTxCommit_shape m at_ s : Shape s (execTxCommit m at_ s) := by
  unfold execTxCommit; exact .inl ⟨_, rfl⟩
theorem execTxAbort_shape m at_ s : Shape s (execTxAbort m at_ s) := by
  unfold execTxAbort; exact .inl ⟨_, rfl⟩
theorem execSessionIdleExpiry_shape sid elapsed s : Shape s (execSessionIdleExpiry sid elapsed s) := by
  unfold execSessionIdleExpiry; exact .inl ⟨_, rfl⟩
theorem execTransactionTimeout_shape tx elapsed s : Shape s (execTransactionTimeout tx elapsed s) := by
  unfold execTransactionTimeout; exact .inl ⟨_, rfl⟩
theorem execLockout_shape ip at_ s : Shape s (execLockout ip at_ s) := by
  unfold execLockout; exact .inl ⟨_, rfl⟩
theorem execLockoutExpiry_shape ip elapsed s : Shape s (execLockoutExpiry ip elapsed s) := by
  unfold execLockoutExpiry; exact .inl ⟨_, rfl⟩
theorem execHarbourPartTimeout_shape sid elapsed s : Shape s (execHarbourPartTimeout sid elapsed s) := by
  unfold execHarbourPartTimeout; exact .inl ⟨_, rfl⟩
theorem execRemoteTimeout_shape id elapsed s : Shape s (execRemoteTimeout id elapsed s) := by
  unfold execRemoteTimeout; exact .inl ⟨_, rfl⟩
theorem execPublicationTx_shape p s : Shape s (execPublicationTx p s) := by
  unfold execPublicationTx; exact .inl ⟨_, rfl⟩
theorem execPubRx_shape src body crcOk at_ s : Shape s (execPubRx src body crcOk at_ s) := by
  unfold execPubRx; exact .inl ⟨_, rfl⟩
theorem execSubscriptionStale_shape q periods s : Shape s (execSubscriptionStale q periods s) := by
  unfold execSubscriptionStale; exact .inl ⟨_, rfl⟩
theorem execSubscriptionHoldEnd_shape q elapsed at_ s : Shape s (execSubscriptionHoldEnd q elapsed at_ s) := by
  unfold execSubscriptionHoldEnd; exact .inl ⟨_, rfl⟩
theorem execEthernetFrameRx_shape f s : Shape s (execEthernetFrameRx f s) := by
  unfold execEthernetFrameRx; exact .inl ⟨_, rfl⟩
theorem execUsdoRequest_shape node cob write ix sub typ value image at_ s : Shape s (execUsdoRequest node cob write ix sub typ value image at_ s) := by
  unfold execUsdoRequest; exact .inl ⟨_, rfl⟩
theorem execRpdoRx_shape cob data at_ s : Shape s (execRpdoRx cob data at_ s) := by
  unfold execRpdoRx; exact .inl ⟨_, rfl⟩
theorem execRpdoTmo_shape n elapsed s : Shape s (execRpdoTmo n elapsed s) := by
  unfold execRpdoTmo; exact .inl ⟨_, rfl⟩
theorem execNmtCommand_shape cmd node s : Shape s (execNmtCommand cmd node s) := by
  unfold execNmtCommand; exact .inl ⟨_, rfl⟩
theorem execSyncRx_shape at_ s : Shape s (execSyncRx at_ s) := by
  unfold execSyncRx; exact .inl ⟨_, rfl⟩
theorem execTpdoEventTimer_shape n elapsed at_ s : Shape s (execTpdoEventTimer n elapsed at_ s) := by
  unfold execTpdoEventTimer; exact .inl ⟨_, rfl⟩
theorem execHeartbeatTx_shape elapsed s : Shape s (execHeartbeatTx elapsed s) := by
  unfold execHeartbeatTx; exact .inl ⟨_, rfl⟩
theorem execBusOffRecovery_shape occurrences s : Shape s (execBusOffRecovery occurrences s) := by
  unfold execBusOffRecovery; exact .inl ⟨_, rfl⟩
theorem execDeviceReset_shape v s : Shape s (execDeviceReset v s) := by
  unfold execDeviceReset; exact .inl ⟨_, rfl⟩
theorem execModeCommand_shape v s : Shape s (execModeCommand v s) := by
  unfold execModeCommand; exact .inl ⟨_, rfl⟩
theorem execDormantReq_shape s : Shape s (execDormantReq s) := by
  unfold execDormantReq; exact .inl ⟨_, rfl⟩
theorem execRegisterWindowRead_shape at_ s : Shape s (execRegisterWindowRead at_ s) := by
  unfold execRegisterWindowRead; exact .inl ⟨_, rfl⟩
theorem execRegisterWindowWrite_shape o v at_ s : Shape s (execRegisterWindowWrite o v at_ s) := by
  unfold execRegisterWindowWrite; exact .inl ⟨_, rfl⟩
theorem execFlushTimer_shape elapsed s : Shape s (execFlushTimer elapsed s) := by
  unfold execFlushTimer; exact .inl ⟨_, rfl⟩
theorem execFlushNow_shape s : Shape s (execFlushNow s) := by
  unfold execFlushNow; exact .inl ⟨_, rfl⟩
theorem execFlushPageDone_shape ok s : Shape s (execFlushPageDone ok s) := by
  unfold execFlushPageDone; exact .inl ⟨_, rfl⟩
theorem execRegisterWrite_shape x at_ s : Shape s (execRegisterWrite x at_ s) := by
  unfold execRegisterWrite; exact .inl ⟨_, rfl⟩
theorem execRcRead_shape x at_ s : Shape s (execRcRead x at_ s) := by
  unfold execRcRead; exact .inl ⟨_, rfl⟩
theorem execPairLowRead_shape x at_ s : Shape s (execPairLowRead x at_ s) := by
  unfold execPairLowRead; exact .inl ⟨_, rfl⟩
theorem execDomainStallTimeout_shape elapsed at_ s : Shape s (execDomainStallTimeout elapsed at_ s) := by
  unfold execDomainStallTimeout; exact .inl ⟨_, rfl⟩
theorem execCfcSweepStart_shape s : Shape s (execCfcSweepStart s) := by
  unfold execCfcSweepStart; exact .inl ⟨_, rfl⟩
theorem execCfcSweepDone_shape time s : Shape s (execCfcSweepDone time s) := by
  unfold execCfcSweepDone; exact .inl ⟨_, rfl⟩
theorem execCfcCommit_shape s : Shape s (execCfcCommit s) := by
  unfold execCfcCommit; exact .inl ⟨_, rfl⟩
theorem execCfcRefWrite_shape v s : Shape s (execCfcRefWrite v s) := by
  unfold execCfcRefWrite; exact .inl ⟨_, rfl⟩
theorem execHoldTmo_shape elapsed s : Shape s (execHoldTmo elapsed s) := by
  unfold execHoldTmo; exact .inl ⟨_, rfl⟩
theorem execVddAonUp_shape s : Shape s (execVddAonUp s) := by
  unfold execVddAonUp; exact .inl ⟨_, rfl⟩
theorem execPowerGood_shape elapsed s : Shape s (execPowerGood elapsed s) := by
  unfold execPowerGood; exact .inl ⟨_, rfl⟩
theorem execBootStageDone_shape e s : Shape s (execBootStageDone e s) := by
  unfold execBootStageDone; exact .inr (.inr ⟨_, rfl⟩)
theorem execBootRetry_shape elapsed s : Shape s (execBootRetry elapsed s) := by
  unfold execBootRetry; exact .inl ⟨_, rfl⟩
theorem execBrownout_shape elapsed s : Shape s (execBrownout elapsed s) := by
  unfold execBrownout; exact .inl ⟨_, rfl⟩
theorem execResetNEdge_shape low s : Shape s (execResetNEdge low s) := by
  unfold execResetNEdge; exact .inl ⟨_, rfl⟩
theorem execWakeTimer_shape elapsed s : Shape s (execWakeTimer elapsed s) := by
  unfold execWakeTimer; exact .inl ⟨_, rfl⟩
theorem execDomainRequest_shape v at_ s : Shape s (execDomainRequest v at_ s) := by
  unfold execDomainRequest; exact .inl ⟨_, rfl⟩
theorem execDomainReleased_shape at_ s : Shape s (execDomainReleased at_ s) := by
  unfold execDomainReleased; exact .inl ⟨_, rfl⟩
theorem execHousekeepingRound_shape v vpp s : Shape s (execHousekeepingRound v vpp s) := by
  unfold execHousekeepingRound; exact .inl ⟨_, rfl⟩
theorem execThermalWarning_shape s : Shape s (execThermalWarning s) := by
  unfold execThermalWarning; exact .inl ⟨_, rfl⟩
theorem execThermalWarningClear_shape s : Shape s (execThermalWarningClear s) := by
  unfold execThermalWarningClear; exact .inl ⟨_, rfl⟩
theorem execThermalShutdown_shape elapsed s : Shape s (execThermalShutdown elapsed s) := by
  unfold execThermalShutdown; exact .inl ⟨_, rfl⟩
theorem execThermalLaneStop_shape s : Shape s (execThermalLaneStop s) := by
  unfold execThermalLaneStop; exact .inl ⟨_, rfl⟩
theorem execThermalDomainRemove_shape s : Shape s (execThermalDomainRemove s) := by
  unfold execThermalDomainRemove; exact .inl ⟨_, rfl⟩
theorem execThermalRelease_shape elapsed s : Shape s (execThermalRelease elapsed s) := by
  unfold execThermalRelease; exact .inl ⟨_, rfl⟩
theorem execHarbourKeyWrite_shape k s : Shape s (execHarbourKeyWrite k s) := by
  unfold execHarbourKeyWrite; exact .inl ⟨_, rfl⟩
theorem execNodeSampleTrainRx_shape r i_ b hd avg inst temp ready s : Shape s (execNodeSampleTrainRx r i_ b hd avg inst temp ready s) := by
  unfold execNodeSampleTrainRx; exact .inl ⟨_, rfl⟩
theorem execVddAonLoss_shape s : Shape s (execVddAonLoss s) := by
  unfold execVddAonLoss; exact .inl ⟨_, rfl⟩
theorem execEthernetLinkChange_shape up s : Shape s (execEthernetLinkChange up s) := by
  unfold execEthernetLinkChange; exact .inl ⟨_, rfl⟩
theorem execCanBusOff_shape s : Shape s (execCanBusOff s) := by
  unfold execCanBusOff; exact .inl ⟨_, rfl⟩
theorem execJtagInstructionLoad_shape ins s : Shape s (execJtagInstructionLoad ins s) := by
  unfold execJtagInstructionLoad; exact .inl ⟨_, rfl⟩
theorem execReservedAddressRelease_shape a s : Shape s (execReservedAddressRelease a s) := by
  unfold execReservedAddressRelease; exact .inl ⟨_, rfl⟩

set_option maxRecDepth 20000 in
/-- Every command answers by one of the three. -/
theorem exec_shape (c : Instr) (s : State) : Shape s (exec c s) := by
  cases c
  · exact execMainClockFault_shape _ _ s
  · exact execMainClockRelease_shape _ s
  · exact execClassAClockFault_shape _ _ _ s
  · exact execReferenceLossOfLock_shape _ s
  · exact execScrubAccess_shape _ _ _ _ _ _ s
  · exact execEccWriteBack_shape _ _ _ s
  · exact execSupervisorRestartDone_shape s
  · exact execSupervisorWatchdog_shape s
  · exact execTickEdge_shape _ _ s
  · exact execTidePeriodWrite_shape _ s
  · exact execTideGuardWrite_shape _ s
  · exact execStepReq_shape s
  · exact execSyncFerryRx_shape _ _ _ _ s
  · exact execAcquireTimeout_shape s
  · exact execLockedSyncTimeout_shape s
  · exact execHoldoverExp_shape s
  · exact execDelayRequestTimer_shape _ s
  · exact execDelayReqRx_shape _ _ s
  · exact execDelayRespRx_shape _ _ _ _ s
  · exact execTickGuardExpiry_shape s
  · exact execIsleStall_shape _ _ s
  · exact execSampleContainerRx_shape _ _ _ _ _ _ _ _ s
  · exact execNodeSilent_shape _ _ _ s
  · exact execIsleWake_shape _ _ _ s
  · exact execChRange_shape _ _ _ s
  · exact execChStale_shape _ _ _ s
  · exact execOscWindowEnd_shape _ _ _ s
  · exact execSwStale_shape _ _ _ s
  · exact execLatRst_shape _ s
  · exact execPlanImageWrite_shape _ _ _ s
  · exact execIsleLoadDone_shape _ _ s
  · exact execAbort_shape s
  · exact execCommit_shape s
  · exact execEfOverrideWrite_shape _ _ _ s
  · exact execStringCmdOff_shape _ s
  · exact execStringCmdPrecharge_shape _ _ _ s
  · exact execStringCmdRun_shape _ _ s
  · exact execStringCmdSafe_shape _ s
  · exact execBypassRequest_shape _ _ _ s
  · exact execBarrierDeadline_shape _ _ s
  · exact execRankingDelivered_shape _ _ s
  · exact execRespreadComplete_shape _ s
  · exact execPreDone_shape _ s
  · exact execPreTmo_shape _ _ s
  · exact execSegLost_shape _ _ s
  · exact execCwListRx_shape _ _ _ _ _ _ s
  · exact execCwWordRx_shape _ _ _ _ s
  · exact execCwFaultRx_shape _ _ _ _ _ _ s
  · exact execCausewayDeadline_shape s
  · exact execBlockRx_shape _ _ _ _ _ s
  · exact execLosAssert_shape _ _ s
  · exact execLosClear_shape _ _ s
  · exact execLol_shape _ s
  · exact execCdrLock_shape _ s
  · exact execBlockLock_shape _ s
  · exact execBlockLockLoss_shape _ s
  · exact execPolarityDetect_shape _ _ s
  · exact execHandshakeComplete_shape _ _ _ s
  · exact execRingTrainingComplete_shape _ s
  · exact execTrainTmo_shape _ _ s
  · exact execMarkerLock_shape _ s
  · exact execMarkerLockLoss_shape _ s
  · exact execDeskewComplete_shape _ _ _ s
  · exact execLaneRateWrite_shape _ _ s
  · exact execLpmRequest_shape _ _ s
  · exact execEidleRx_shape _ _ s
  · exact execElectricalIdleExit_shape _ _ _ s
  · exact execDeepIdleExit_shape _ s
  · exact execPrbsGenEn_shape _ _ s
  · exact execChkLock_shape _ _ _ s
  · exact execInjOne_shape _ s
  · exact execInjRateFlip_shape _ s
  · exact execInjPayload_shape _ s
  · exact execInjSyncHeader_shape _ s
  · exact execMod2wStart_shape _ s
  · exact execMod2wDone_shape _ _ _ s
  · exact execModabsChange_shape _ _ s
  · exact execLaneEqWrite_shape _ _ s
  · exact execSampleTrainTx_shape _ s
  · exact execEdgeFrameTx_shape _ _ s
  · exact execServiceFrameTx_shape _ _ s
  · exact execTideEchoRx_shape _ _ _ s
  · exact execEdgeEchoRx_shape _ _ _ s
  · exact execEnumReplyRx_shape _ _ s
  · exact execEnumErr_shape _ s
  · exact execRingReady_shape _ s
  · exact execServiceRequest_shape _ _ s
  · exact execServiceReplyRx_shape _ _ _ _ _ s
  · exact execSvcTmo_shape _ _ _ s
  · exact execEnum_shape _ _ _ _ _ _ s
  · exact execIdent_shape _ _ _ _ _ s
  · exact execOffset_shape _ _ _ _ _ _ s
  · exact execNodeCfg_shape _ _ _ _ _ _ s
  · exact execDrvWr_shape _ _ _ _ _ _ _ _ s
  · exact execDrvRd_shape _ _ _ _ _ _ _ s
  · exact execSelftest_shape _ _ _ _ _ _ _ _ s
  · exact execStat_shape _ _ _ _ _ _ s
  · exact execAlertRx_shape _ _ _ _ _ _ s
  · exact execHaltEchoRx_shape _ _ _ s
  · exact execHaltEchoTimeout_shape _ _ s
  · exact execHaltRelease_shape _ _ _ s
  · exact execHaltPolicyWrite_shape _ _ _ s
  · exact execDrvCheckPeriod_shape _ s
  · exact execNodeTickEdge_shape _ _ _ _ s
  · exact execNodeTideHeaderRx_shape _ _ _ _ _ _ s
  · exact execNodeEdgeFrameRx_shape _ _ _ _ _ _ s
  · exact execNodeHaltRx_shape _ _ _ _ _ _ _ _ s
  · exact execNodeDriverReport_shape _ _ _ _ _ s
  · exact execNodeSilence_shape _ _ s
  · exact execNodeOrphan_shape _ _ s
  · exact execNodeBootstrapRefresh_shape _ _ _ s
  · exact execHelloTimer_shape _ s
  · exact execHelloRx_shape _ _ _ s
  · exact execNeighbourTimeout_shape _ _ s
  · exact execPortAdminWrite_shape _ _ s
  · exact execLsaRx_shape _ _ _ s
  · exact execLsaRefresh_shape _ s
  · exact execLsaWithdraw_shape _ s
  · exact execRouteRecomputeDone_shape s
  · exact execLeaseReq_shape s
  · exact execLeaseGrant_shape _ s
  · exact execLeaseRx_shape _ _ _ _ _ _ s
  · exact execLeaseRenewal_shape s
  · exact execLeaseLost_shape s
  · exact execBecomeRoot_shape s
  · exact execResign_shape s
  · exact execEpochRx_shape _ _ _ s
  · exact execPartitionHoldExpiry_shape _ _ _ s
  · exact execMergeRx_shape _ _ _ _ s
  · exact execMergeCompletion_shape _ _ _ _ s
  · exact execFerryRx_shape _ _ _ _ _ _ _ s
  · exact execFerryTxStart_shape _ _ s
  · exact execCreditRx_shape _ _ _ _ s
  · exact execCsyncRx_shape _ _ _ _ s
  · exact execCreditSend_shape _ _ _ s
  · exact execCsyncTimer_shape _ _ s
  · exact execCreditTimeout_shape _ _ _ _ s
  · exact execResidenceExpiry_shape _ s
  · exact execCapArm_shape _ s
  · exact execCapTrigNow_shape _ s
  · exact execCapRelease_shape _ s
  · exact execCapTrigRx_shape _ _ s
  · exact execCaptureHeld_shape _ s
  · exact execCapDataTx_shape _ _ s
  · exact execCapAckRx_shape _ _ s
  · exact execCapResend_shape _ s
  · exact execDicReqRx_shape _ _ _ _ _ _ _ _ _ _ _ s
  · exact execDicRspRx_shape _ _ _ _ _ _ _ s
  · exact execReassemblyTimeout_shape _ _ _ s
  · exact execPairHbRx_shape _ _ s
  · exact execPairDigRx_shape _ _ _ _ s
  · exact execPairAliveInTransition_shape s
  · exact execPartnerLost_shape s
  · exact execMirCfgRx_shape _ _ _ s
  · exact execMirCfgIdleTimer_shape _ s
  · exact execMirrorAgeExpiry_shape _ s
  · exact execRevertHoldoffExpiry_shape s
  · exact execRevertReqRx_shape _ _ s
  · exact execRevertAckRx_shape _ _ s
  · exact execRevertFail_shape s
  · exact execSwitch_shape s
  · exact execSfiAccept_shape _ _ _ _ s
  · exact execDiscrepancyFault_shape _ _ _ s
  · exact execStoTestPulse_shape _ _ _ s
  · exact execReadbackMismatch_shape _ s
  · exact execSs1TimerExpiry_shape _ _ _ s
  · exact execSafetySpeedCheck_shape _ _ s
  · exact execSkerrySlsWindow_shape _ _ s
  · exact execXchk_shape _ s
  · exact execWdg_shape _ s
  · exact execSkerrySelfCheck_shape _ s
  · exact execLockstepMismatch_shape s
  · exact execHostReset_shape _ s
  · exact execSpbWrite_shape _ s
  · exact execConfirm_shape _ _ s
  · exact execFuseBurnDone_shape _ s
  · exact execClassBAck_shape _ s
  · exact execMvLoss_shape _ s
  · exact execEnReqWrite_shape _ _ s
  · exact execPortSettingWrite_shape _ _ _ s
  · exact execPortWake_shape _ s
  · exact execLatchEvent_shape _ _ s
  · exact execReloadPoint_shape _ _ s
  · exact execTBscExpiry_shape _ _ s
  · exact execTripAccept_shape _ _ _ s
  · exact execFaultInputAccept_shape _ _ _ s
  · exact execReadyTimeout_shape _ _ s
  · exact execToggleComplete_shape _ _ s
  · exact execBootstrapRefresh_shape _ _ _ s
  · exact execDelayLineCalibration_shape _ _ s
  · exact execQuadEdge_shape _ _ _ _ s
  · exact execSincosSample_shape _ _ _ _ s
  · exact execAmpErr_shape _ s
  · exact execAmpErrClear_shape _ s
  · exact execCableFlt_shape _ _ s
  · exact execSsiFrameStart_shape _ _ s
  · exact execSsiFrameEnd_shape _ _ _ _ _ _ _ s
  · exact execSsiFlt_shape _ s
  · exact execIndexEvent_shape _ _ s
  · exact execRefArm_shape _ s
  · exact execSet_shape _ s
  · exact execEncFltClr_shape _ _ s
  · exact execEncModeWrite_shape _ _ s
  · exact execStandstill_shape _ _ s
  · exact execSequenceStart_shape _ s
  · exact execConversionEnd_shape _ _ s
  · exact execConversionTimeout_shape _ _ s
  · exact execAdcStale_shape _ s
  · exact execCalZero_shape _ s
  · exact execCalFs_shape _ _ s
  · exact execCalAbort_shape _ s
  · exact execCalDone_shape _ s
  · exact execCalTimeout_shape _ s
  · exact execAdcFltClr_shape _ _ s
  · exact execRefSelWrite_shape _ s
  · exact execRefSettled_shape _ s
  · exact execRefErr_shape s
  · exact execSessionOpen_shape _ _ s
  · exact execSessionClose_shape _ _ s
  · exact execKeepalive_shape _ _ s
  · exact execRead_shape _ _ s
  · exact execWrite_shape _ _ s
  · exact execTxOpen_shape _ _ s
  · exact execTxWrite_shape _ _ _ s
  · exact execTxCommit_shape _ _ s
  · exact execTxAbort_shape _ _ s
  · exact execSessionIdleExpiry_shape _ _ s
  · exact execTransactionTimeout_shape _ _ s
  · exact execLockout_shape _ _ s
  · exact execLockoutExpiry_shape _ _ s
  · exact execHarbourPartTimeout_shape _ _ s
  · exact execRemoteTimeout_shape _ _ s
  · exact execPublicationTx_shape _ s
  · exact execPubRx_shape _ _ _ _ s
  · exact execSubscriptionStale_shape _ _ s
  · exact execSubscriptionHoldEnd_shape _ _ _ s
  · exact execEthernetFrameRx_shape _ s
  · exact execUsdoRequest_shape _ _ _ _ _ _ _ _ _ s
  · exact execRpdoRx_shape _ _ _ s
  · exact execRpdoTmo_shape _ _ s
  · exact execNmtCommand_shape _ _ s
  · exact execSyncRx_shape _ s
  · exact execTpdoEventTimer_shape _ _ _ s
  · exact execHeartbeatTx_shape _ s
  · exact execBusOffRecovery_shape _ s
  · exact execDeviceReset_shape _ s
  · exact execModeCommand_shape _ s
  · exact execDormantReq_shape s
  · exact execRegisterWindowRead_shape _ s
  · exact execRegisterWindowWrite_shape _ _ _ s
  · exact execFlushTimer_shape _ s
  · exact execFlushNow_shape s
  · exact execFlushPageDone_shape _ s
  · exact execRegisterWrite_shape _ _ s
  · exact execRcRead_shape _ _ s
  · exact execPairLowRead_shape _ _ s
  · exact execDomainStallTimeout_shape _ _ s
  · exact execCfcSweepStart_shape s
  · exact execCfcSweepDone_shape _ s
  · exact execCfcCommit_shape s
  · exact execCfcRefWrite_shape _ s
  · exact execHoldTmo_shape _ s
  · exact execVddAonUp_shape s
  · exact execPowerGood_shape _ s
  · exact execBootStageDone_shape _ s
  · exact execBootRetry_shape _ s
  · exact execBrownout_shape _ s
  · exact execResetNEdge_shape _ s
  · exact execWakeTimer_shape _ s
  · exact execDomainRequest_shape _ _ s
  · exact execDomainReleased_shape _ s
  · exact execHousekeepingRound_shape _ _ s
  · exact execThermalWarning_shape s
  · exact execThermalWarningClear_shape s
  · exact execThermalShutdown_shape _ s
  · exact execThermalLaneStop_shape s
  · exact execThermalDomainRemove_shape s
  · exact execThermalRelease_shape _ s
  · exact execHarbourKeyWrite_shape _ s
  · exact execNodeSampleTrainRx_shape _ _ _ _ _ _ _ _ s
  · exact execVddAonLoss_shape s
  · exact execEthernetLinkChange_shape _ s
  · exact execCanBusOff_shape s
  · exact execJtagInstructionLoad_shape _ s
  · exact execReservedAddressRelease_shape _ s

end Sys2Proof.Machine
end

