-- ==== Sys2Proof/Tests/States.lean ====
section
/-! SUPPORT. Small states for the tests and the witnesses of the statements: a device in RUN with every domain powered, and what each
test adds. -/
namespace Sys2Proof.Tests
open Sys2Proof.Machine

/-- The reset state in RUN, every domain powered, with registers written and the device changed by `f`. -/
def stW (regs : List (Nat × Nat)) (f : Dev → Dev := id) : State :=
  let d := (State.reset.dev.wr 0x40010004 4).wr 0x4001000C 0xFFF
  { pending := [], dev := f (regs.foldl (fun d x => d.wr x.1 (BitVec.ofNat 32 x.2)) d), fuses := State.reset.fuses }
def stRun : State := stW []
def stMode (m : Nat) : State := stW [(0x40010004, m)]

/-! ### Power, memories, time -/

def stHeld : State := stW [] fun d => { d with pow := { d.pow with held := true } }
def stRestart : State := stW [] fun d => { d with pow := { d.pow with restart := true } }
def stJrn : State := stW [] fun d => { d with jrn := { d.jrn with seq := 1, slots := [(1, { seq := 1, kind := 3, st := 1 })] } }
/-- BOOT at a stage, with factory words of the IZ7256 in every bank. -/
def stBoot (n : Nat) : State :=
  { (stW [(0x40010004, 1)] fun d => { d with pow := { d.pow with stage := n } }) with
    fuses := List.replicate 4 (List.replicate 255 0 ++ [0x56]) }
def stTide (ts silent : Nat) : State := stW [] fun d => { d with tide := { d.tide with tstate := ts, silent := silent } }
def stPortUp (p : Nat) : State := stW [] fun d => d.setF (portState p) 4
def stSync : State := stW [] fun d =>
  { d.setF (portState 0) 4 with
    fab := { d.fab with root := some (0, ownUid + 1), routes := [(ownUid + 1, 1, [0])] }, tide := { d.tide with delays := [(0, { meas := [1] })] } }
def stDelay : State := stW [] fun d => { d.setF (portState 0) 4 with tide := { d.tide with delays := [(0, { t1 := some 10 })] } }
def stDelay16 : State := stW [] fun d => { d.setF (portState 0) 4 with tide := { d.tide with delays := [(0, { t1 := some 0, meas := List.replicate 16 0 })] } }
def stPortEn : State := stW [] fun d => d.setF (mpoEn 3) 1

/-! ### Isles and strings -/

def defn3 : StringEntry := { n := 3, order := [0, 1, 2], devices := [0], variants := [⟨3, 1000, 16384, 0, 1, []⟩, ⟨2, 1000, 16384, 0, 1, []⟩] }
def strU (n : Nat) : StringU := { held := true, sstate := n, defn := defn3, preDone := n = 1 }
def stStr (u : StringU) : State := stW [] fun d => d.setStr 0 u
def stString (n : Nat) : State := stStr (strU n)
def stQueued (n : Nat) : State := stStr { strU 2 with fq := (List.range n).map fun i => ⟨if i = 0 then 8 else 1, i, 0, 0⟩ }
def stBarred : State := stStr { strU 2 with list := some ⟨0, [], 7, 0, 0, {}⟩ }
def stPre (run : Nat) : State := stStr { strU 1 with preDone := false, preRun := run }
def stRespread (l : List Nat) : State := stStr { strU 2 with respread := some ⟨7, l⟩ }
def stSplit : State := stStr { strU 2 with defn := { defn3 with segs := 2, devices := [0, 1] } }
def stSplit1 : State := stStr { strU 2 with defn := { defn3 with segs := 2, segIdx := 1, devices := [0, 1] } }
def stSplitLost : State := stStr { strU 2 with defn := { defn3 with segs := 2, devices := [0, 1] }, segs := [(1, { missing := 8 })] }
def hdSplit : CwHead := ⟨0, 0, 0, 1, 0, 0⟩
def hdSplit1 : CwHead := ⟨0, 0, 0, 0, 0, 0⟩
def stI (u : IsleU) : State := stW [] fun d => d.setIsle 5 u
def stIsle (n : Nat) : State := stI { istate := n }
def stStall : State := stI { istate := 1, consec := 16 }
def stIsleValid : State := stI { istate := 1, slot0 := { valid := true } }
def stCellRun : State := stW [] fun d => (d.setStr 0 (strU 2)).setIsle 5 { istate := 1, entry := { role := 1, string := 0, ring := 2 } }
def stChan : State := stI { istate := 2, bankA := { chans := List.replicate 7 {} ++ [{ freeze := 1 }] }, chans := [(7, { viol := 1, same := 1 })] }
def stOsc : State := stI { istate := 2, bankA := { nodes := [{ typ := 10, st := 0 }], params := [0, 0, 1] }, words := [(1, 0x10000)] }
def stStrr : State := stI { istate := 2, bankA := { nodes := [{ typ := 12 }], params := [0, 0] } }
def stLoading : State := stW [] fun d => { d.setIsle 5 { loading := true } with plan := { d.plan with staged := some ⟨1, [], [], []⟩, state := 1 } }
def stCommitting : State := stW [] fun d => { d with plan := { d.plan with staged := some ⟨1, [], [], []⟩, state := 3 } }
def stReady : State := stW [(0x4110001C, 1)] fun d => { d with plan := { d.plan with staged := some ⟨1, [], [], []⟩, state := 2 } }

/-! ### Lanes, nodes, the host -/

def stLanes (ls : List Nat) (n : Nat) (u : LaneU) : State :=
  stW [] fun d => ls.foldl (fun d l => ((d.setF ⟨0x42200004 + 0x400 * l, 0, 4⟩ n).setF ⟨0x42200004 + 0x400 * l, 12, 1⟩ 0).setLane l u) d
/-- Lane 5 sends in a mode; the SL_LOS pin of lane 20 at a level, with MOD_LOS_USE. -/
def stTx (m : Nat) : State := stW [] fun d => d.setF ⟨0x42201404, 8, 2⟩ m
def stPinLos (b : Nat) : State := stW [] fun d => ((d.setF ⟨0x42205000, 13, 1⟩ 1).setF ⟨0x42205030, 1, 1⟩ b).setLane 20 { amp := false }
def stNoRetrain : State := stW [] fun d => (d.setF ⟨0x42201404, 0, 4⟩ 4).setF ⟨0x42201400, 1, 1⟩ 0
def stIdleLane (lpm n : Nat) : State := stW [] fun d => (d.setF ⟨0x42201404, 0, 4⟩ n).setF ⟨0x42201400, 10, 2⟩ lpm
def stLaneMode (m : Nat) : State := stW [(0x40010004, m)] fun d => d.setF ⟨0x42201404, 0, 4⟩ 6
def stChecker : State := stW [(0x4220141C, 0x808)]
def stMod2w : State := stW [(0x42205034, 0x800)]
def stNode (u : NodeDev) : State := stW [] fun d => d.setNode 0 3 u
/-- The header of a sound frame. -/
def hdOf (typ node : Nat) (bcast : Bool) (len trailer : Nat) (body : List Byte) : FrameHdr :=
  let h : FrameHdr := ⟨typ, 1, node, 0, bcast, 0, len, 0, 0, blocksOf (len + trailer), false⟩
  { h with crc := crc16 (hdrBytes h ++ body) }
def svcHd (code : Nat) (q : SvcHead) (args : List Byte) (bcast : Bool) (node : Nat) : FrameHdr :=
  hdOf 4 node bcast (18 + q.rlen) 0 (svcBody code q.tag q.rlen args)
def tideHd (h : TideHdr) : FrameHdr := hdOf 1 0 true 32 2 (tideBody h)
def edgeHd (f : EdgeFrame) : FrameHdr := hdOf 2 f.node false (8 * edgeBlocks f - 16) 2 (edgeBody f)
def trainHd (n : Nat) : FrameHdr := hdOf 3 0 true (48 * n) 0 []
def hdr7 : TideHdr := ⟨0, 0, 7, 0, 8000, 64, true, false, false, 0xFFF7, 0, 0⟩
def frame7 : EdgeFrame := { node := 3, cover := [⟨0, 3, 4000, 0, 4000⟩], recs := [] }
def stCal (m : Nat) (sum : Int) : State := stW [(0x40010004, m)] fun d =>
  { d with adc := { d.adc with slots := [(3, { cal := some { fs := false, vfs := 0, begun := true, cnt := 64, sum := sum } })] } }
/-- A protection set-up of zeros but for some bytes. -/
def spbOf (l : List (Nat × Nat)) : List Byte :=
  (List.range 192).map fun i => match l.find? fun x => x.1 = i with | some x => BitVec.ofNat 8 x.2 | none => 0
/-- A protection set-up that passes every check of Tables SAF-8 and SAF-9. -/
def spbMin : List Byte := spbOf ([(0, 1), (68, 56), (69, 56), (70, 255), (71, 1)] ++ ((List.range 8).flatMap fun i => [(86 + 4 * i, 1), (87 + 4 * i, 1)]) ++
  (List.range 4).flatMap fun p => [(118 + 16 * p, 100), (122 + 16 * p, 1), (124 + 16 * p, 1), (126 + 16 * p, 1), (128 + 16 * p, 1)])
def stConfirm : State := stW [(0x40010004, 2), (0x4001003C, 0x10000)] fun d => { d with saf := { d.saf with staged := some spbMin } }
/-- This device at the root of its fabric. -/
def stRoot (f : FabU → FabU := id) : State := stW [(0x42100000, 0x8001)] fun d => { d with fab := f { d.fab with root := some (1, ownUid) } }
/-- The UID of this device, and another. -/
def uidSelf : BitVec 64 := BitVec.ofNat 64 ownUid
def uidNext : BitVec 64 := BitVec.ofNat 64 (ownUid + 1)
theorem uidSelf_toNat : uidSelf.toNat = ownUid := by simp [uidSelf, ownUid]
theorem uidNext_ne : uidNext.toNat ≠ ownUid := by
  simp only [uidNext, ownUid, BitVec.toNat_ofNat]; omega
/-- The set-up is one that a confirmation accepts. -/
theorem confirm_ok : confirmRefusal (BitVec.ofNat 32 (crc32c spbMin)) stConfirm.dev = 0 := by
  unfold confirmRefusal
  rw [show stConfirm.dev.saf.staged = some spbMin from rfl]
  dsimp only
  rw [if_neg (by decide +kernel), if_neg (by simp), if_neg (by decide +kernel), if_neg (by decide +kernel), if_neg (by decide +kernel),
    if_neg (by decide +kernel)]
/-- A firmware slot without payload, of version 1, signed with the key 7 and the nonce 1 (20 R580), and the hash of that key. -/
def slotOne : List Byte := [73, 90, 70, 87, 1, 0, 0, 0, 0, 0, 0, 0, 163, 178, 135, 49, 112, 40, 6, 48, 91, 239, 15, 168, 184, 248, 249, 126, 96, 251, 1, 124] ++
  [102, 48, 187, 37, 70, 123, 191, 160, 111, 59, 83, 142, 180, 0, 244, 193, 134, 26, 94, 197, 33, 27, 4, 203, 51, 54, 199, 83, 0, 144, 245, 166] ++
  [131, 159, 6, 109, 54, 24, 51, 224, 189, 29, 235, 115, 150, 194, 152, 216, 69, 57, 161, 244, 160, 51, 235, 45, 129, 125, 3, 119, 242, 64, 164, 99] ++
  [229, 230, 188, 248, 71, 66, 44, 225, 242, 209, 23, 107, 108, 30, 230, 23, 25, 209, 223, 231, 123, 108, 93, 21, 20, 33, 95, 169, 63, 180, 191, 144] ++
  [147, 245, 150, 254, 53, 202, 243, 40, 13, 82, 255, 31] ++
  List.replicate 116 0
def keyHash7 : List Byte := [144, 198, 223, 65, 187, 201, 252, 232, 196, 16, 123, 34, 85, 120, 186]
theorem slotOne_ok : slotVersion keyHash7 slotOne = some 1 := by decide +kernel
def stSigned : State := stW [(0x40010004, 1)] fun d =>
  { d with pow := { d.pow with stage := 6 }, banks := List.replicate 4 (List.replicate 240 0 ++ keyHash7 ++ [0]) }
theorem signed_ok : slotVersion (firmwareHash stSigned.dev) slotOne = some 1 := by
  rw [show firmwareHash stSigned.dev = keyHash7 by decide +kernel]; exact slotOne_ok
/-- Port 0 leads to the root of `stSync`. -/
theorem sync_ok : syncPort stSync.dev = some 0 := by
  unfold syncPort
  rw [show stSync.dev.fab.root = some (0, ownUid + 1) from rfl, show stSync.dev.fab.routes = [(ownUid + 1, 1, [0])] from rfl]
  simp
  decide +kernel
/-- A Harbour message with the tag of its key. -/
def sgnMsg (key : List Byte) (typ : Nat) (m : HbMsg) : HbMsg :=
  { m with tag := hbTag key (hbHeader typ m.session m.seq m.req m.target m.lenField m.tx (b2n m.first + 2 * b2n m.last) ++ m.body) }

end Sys2Proof.Tests
end

