-- ==== Sys2Proof/WellFormed.lean ====
section
/-! DEFINITION. Well-formed commands: every operand lies within the width or the length that its message, register or memory gives it. A
command that is not well-formed spells nothing the block can receive; `exec` is total on it all the same. -/
namespace Sys2Proof

/-- A number of at most `n` bits. -/
def fits (n x : Nat) : Bool := decide (x < 2 ^ n)

/-- 10 R298: a sync ferry. -/
def wfSync (m : SyncMsg) : Bool := fits 48 m.tick && fits 16 m.epoch && fits 64 m.tx && fits 17 m.period && fits 64 m.rootUid && fits 8 m.rootPrio
/-- 03 Table ISL-5: a sample record of at most eight averages and eight instantaneous values. -/
def wfSample (r : SampleRec) : Bool := decide (r.avg.length ≤ 8) && decide (r.inst.length ≤ 8) && fits 64 r.status
/-- 11 R339: the head of a Causeway message. -/
def wfHead (h : CwHead) : Bool := fits 48 h.tick && fits 10 h.gen && fits 2 h.variant && fits 8 h.seg && fits 12 h.head && fits 6 h.string
/-- 08 R241, Table NRW-8, 05 Table MOD-5: an edge frame for one of 16 nodes, each field in its bits. -/
def wfFrame (f : EdgeFrame) : Bool :=
  fits 4 f.node && decide (f.cover.length ≤ 255) && decide (f.recs.length ≤ 255) &&
    (f.cover.all fun c => fits 3 c.pair && fits 2 c.fromPar && fits 2 c.toPar && fits 24 c.fromSt && fits 24 c.toSt) &&
    f.recs.all fun e => fits 2 e.typ && fits 4 e.gate && fits 5 e.frac && fits 24 e.stamp && fits 2 e.parity && fits 10 e.gen && fits 16 e.seq
/-- 08 Table NRW-1: a frame header, each field in its bits. -/
def wfHdr (h : FrameHdr) : Bool :=
  fits 4 h.typ && fits 4 h.version && fits 4 h.node && fits 4 h.ring && fits 2 h.par && fits 16 h.len && fits 16 h.seq && fits 16 h.crc
/-- 08 R260: a tag and a reply length of 8 to 128 bytes in multiples of 8. -/
def wfSvc (q : SvcHead) : Bool := fits 8 q.tag && decide (8 ≤ q.rlen) && decide (q.rlen ≤ 128) && q.rlen % 8 == 0
/-- 08 Table NRW-3: a tide frame's body. -/
def wfTide (h : TideHdr) : Bool :=
  fits 4 h.ring && fits 64 h.time && fits 48 h.tick && fits 16 h.epoch && fits 16 h.tc && fits 16 h.launch && fits 16 h.en && fits 16 h.byp && fits 16 h.halt
/-- 10 Table FTP-2: a HELLO. -/
def wfHello (h : Hello) : Bool :=
  fits 64 h.uid && fits 32 h.fab && fits 12 h.addr && fits 8 h.prio && fits 2 h.port && fits 64 h.rootUid && fits 8 h.rootPrio && fits 8 h.hops &&
    fits 16 h.epoch && fits 64 h.heard && fits 32 h.lsaSeq
/-- 10 Table FTP-4: an advertisement with the neighbours of four ports. -/
def wfLsa (l : Lsa) : Bool :=
  fits 64 l.uid && fits 32 l.seq && fits 12 l.addr && fits 8 l.prio && fits 17 l.lease && l.nbrs.length == 4 && l.nbrs.all (fits 64)
/-- 10 R302: an EPOCH ferry. -/
def wfEpoch (m : EpochMsg) : Bool := fits 16 m.epoch && fits 48 m.k0 && fits 17 m.period && fits 8 m.prio && fits 64 m.uid
/-- 10 R312, R314: a MERGE ferry. -/
def wfMerge (m : MergeMsg) : Bool :=
  match m with
  | .measure _ => true
  | .start _ km _ => fits 48 km
  | .done kd epoch k0 period => fits 48 kd && fits 16 epoch && fits 48 k0 && fits 17 period
/-- 11 Table FTR-1: a ferry's header. -/
def wfFerry (f : Ferry) : Bool :=
  fits 12 f.dest && fits 2 f.cls && fits 12 f.src && fits 8 f.typ && fits 7 f.hops && decide (f.len ≤ 512) && fits 16 f.seq && fits 16 f.epoch && fits 64 f.time
/-- 12 Table RED-1: a heartbeat of up to 16 rings and 64 strings. -/
def wfHb (h : Heartbeat) : Bool := fits 48 h.tick && fits 3 h.mode && decide (h.rings.length ≤ 16) && decide (h.strings.length ≤ 64)
/-- 17 Table DIC-6: a Harbour datagram. -/
def wfHarbour (m : HbMsg) : Bool :=
  fits 32 m.ip && fits 8 m.version && fits 32 m.session && fits 64 m.seq && fits 32 m.req && fits 12 m.target && fits 16 m.lenField && fits 32 m.tx &&
    decide (m.body.length ≤ 1400) && decide (m.tag.length ≤ 16)
/-- 19 Table REG-1, R550: an access of 1, 2, 4 or 8 bytes by one of the initiators. -/
def wfAccess (x : Access) : Bool :=
  decide (x.init ≤ 5) && fits 32 x.addr && (x.size = 1 || x.size = 2 || x.size = 4 || x.size = 8) && fits (8 * x.size) x.data
/-- 20 R577, R580, 18 R529: the words and versions that an event of BOOT names. -/
def wfBoot (e : BootEvent) : Bool :=
  match e with
  | .fuses _ bad => bad.all fun x => decide (x.1 < 4) && decide (x.2 < 64)
  | .sweep _ _ l => l.all (fits 14)
  | .clock | .firmware _ _ | .power | .bist _ | .supervisor | .config _ | .commit | .done _ => true

/-- Every operand within its width. -/
def wellFormed (c : Instr) : Bool :=
  match c with
  | .mainClockFault _ _ => true
  | .mainClockRelease _ => true
  | .classAClockFault _ _ _ => true
  | .referenceLossOfLock _ => true
  | .scrubAccess _ bank c _ _ _ => fits 8 bank && (match c with | .scrub => true | .both w _ | .access w _ => fits 15 w)
  | .eccWriteBack _ bank word => fits 8 bank && fits 15 word
  | .supervisorRestartDone => true
  | .supervisorWatchdog => true
  | .tickEdge _ _ => true
  | .tidePeriodWrite _ => true
  | .tideGuardWrite _ => true
  | .stepReq => true
  | .syncFerryRx _ m _ _ => wfSync m
  | .acquireTimeout => true
  | .lockedSyncTimeout => true
  | .holdoverExp => true
  | .delayRequestTimer _ => true
  | .delayReqRx _ _ => true
  | .delayRespRx _ _ _ _ => true
  | .tickGuardExpiry => true
  | .isleStall _ _ => true
  | .sampleContainerRx _ _ _ _ _ rec _ _ => wfSample rec
  | .nodeSilent _ _ _ => true
  | .isleWake _ _ _ => true
  | .chRange _ _ _ => true
  | .chStale _ _ _ => true
  | .oscWindowEnd _ _ _ => true
  | .swStale _ _ _ => true
  | .latRst _ => true
  | .planImageWrite _ bytes _ => decide (bytes.length ≤ 1048576)
  | .isleLoadDone _ _ => true
  | .abort => true
  | .commit => true
  | .efOverrideWrite _ _ _ => true
  | .stringCmdOff _ => true
  | .stringCmdPrecharge _ _ _ => true
  | .stringCmdRun _ _ => true
  | .stringCmdSafe _ => true
  | .bypassRequest _ _ _ => true
  | .barrierDeadline _ _ => true
  | .rankingDelivered _ _ => true
  | .respreadComplete _ => true
  | .preDone _ => true
  | .preTmo _ _ => true
  | .segLost _ _ => true
  | .cwListRx h part parts tot cells _ => wfHead h && decide (part.val < parts.val) && decide (cells.length ≤ 60) && decide (tot.act ≤ 512)
  | .cwWordRx h _ fields _ => wfHead h && decide (fields.length ≤ 8)
  | .cwFaultRx h _ _ _ _ _ => wfHead h
  | .causewayDeadline => true
  | .blockRx _ _ _ _ _ => true
  | .losAssert _ _ => true
  | .losClear _ _ => true
  | .lol _ => true
  | .cdrLock _ => true
  | .blockLock _ => true
  | .blockLockLoss _ => true
  | .polarityDetect _ _ => true
  | .handshakeComplete _ _ _ => true
  | .ringTrainingComplete _ => true
  | .trainTmo _ _ => true
  | .markerLock _ => true
  | .markerLockLoss _ => true
  | .deskewComplete _ _ _ => true
  | .laneRateWrite _ _ => true
  | .lpmRequest _ _ => true
  | .eidleRx _ _ => true
  | .electricalIdleExit _ _ _ => true
  | .deepIdleExit _ => true
  | .prbsGenEn _ _ => true
  | .chkLock _ _ _ => true
  | .injOne _ => true
  | .injRateFlip _ => true
  | .injPayload _ => true
  | .injSyncHeader _ => true
  | .mod2wStart _ => true
  | .mod2wDone _ _ _ => true
  | .modabsChange _ _ => true
  | .laneEqWrite _ _ => true
  | .sampleTrainTx _ => true
  | .edgeFrameTx _ _ => true
  | .serviceFrameTx _ _ => true
  | .tideEchoRx _ _ _ => true
  | .edgeEchoRx _ _ f => wfFrame f
  | .enumReplyRx _ _ => true
  | .enumErr _ => true
  | .ringReady _ => true
  | .serviceRequest _ obj => match obj with | some x => decide (x.2.length ≤ 16) | none => true
  | .serviceReplyRx _ _ _ l _ => decide (l.length ≤ 128)
  | .svcTmo _ _ _ => true
  | .enum _ _ _ hd q _ => wfHdr hd && wfSvc q
  | .ident _ _ _ hd q => wfHdr hd && wfSvc q
  | .offset _ _ _ hd q _ => wfHdr hd && wfSvc q
  | .nodeCfg _ _ _ hd q args => wfHdr hd && wfSvc q && decide (args.length ≤ 12)
  | .drvWr _ _ _ hd q _ _ _ => wfHdr hd && wfSvc q
  | .drvRd _ _ _ hd q _ _ => wfHdr hd && wfSvc q
  | .selftest _ _ _ hd q _ _ _ => wfHdr hd && wfSvc q
  | .stat _ _ _ hd q code => wfHdr hd && wfSvc q && (code.toNat = 0 || 8 ≤ code.toNat)
  | .alertRx _ _ _ _ _ _ => true
  | .haltEchoRx _ _ _ => true
  | .haltEchoTimeout _ _ => true
  | .haltRelease _ _ _ => true
  | .haltPolicyWrite _ _ _ => true
  | .drvCheckPeriod _ => true
  | .nodeTickEdge _ _ _ _ => true
  | .nodeTideHeaderRx _ _ _ hd h _ => wfHdr hd && wfTide h
  | .nodeEdgeFrameRx _ _ _ hd f _ => wfHdr hd && wfFrame f
  | .nodeHaltRx _ _ _ _ _ _ _ _ => true
  | .nodeDriverReport _ _ _ _ _ => true
  | .nodeSilence _ _ => true
  | .nodeOrphan _ _ => true
  | .nodeBootstrapRefresh _ _ _ => true
  | .helloTimer _ => true
  | .helloRx _ h _ => wfHello h
  | .neighbourTimeout _ _ => true
  | .portAdminWrite _ _ => true
  | .lsaRx _ l _ => wfLsa l
  | .lsaRefresh _ => true
  | .lsaWithdraw _ => true
  | .routeRecomputeDone => true
  | .leaseReq => true
  | .leaseGrant _ => true
  | .leaseRx _ _ _ time _ _ => fits 17 time
  | .leaseRenewal => true
  | .leaseLost => true
  | .becomeRoot => true
  | .resign => true
  | .epochRx _ m _ => wfEpoch m
  | .partitionHoldExpiry _ _ _ => true
  | .mergeRx _ m _ _ => wfMerge m
  | .mergeCompletion _ k0 period _ => fits 48 k0 && fits 17 period
  | .ferryRx _ f _ _ _ _ _ => wfFerry f
  | .ferryTxStart _ _ => true
  | .creditRx _ _ _ _ => true
  | .csyncRx _ _ _ _ => true
  | .creditSend _ _ _ => true
  | .csyncTimer _ _ => true
  | .creditTimeout _ _ _ _ => true
  | .residenceExpiry _ => true
  | .capArm _ => true
  | .capTrigNow _ => true
  | .capRelease _ => true
  | .capTrigRx _ _ => true
  | .captureHeld _ => true
  | .capDataTx _ _ => true
  | .capAckRx _ _ => true
  | .capResend _ => true
  | .dicReqRx _ id typ tx seq _ _ body _ _ _ => fits 32 id && fits 8 typ && fits 32 tx && fits 16 seq && decide (body.length ≤ 512)
  | .dicRspRx _ id seq _ _ body _ => fits 32 id && fits 16 seq && decide (body.length ≤ 512)
  | .reassemblyTimeout _ _ _ => true
  | .pairHbRx h _ => wfHb h
  | .pairDigRx tick first digests _ => fits 48 tick && fits 8 first && digests.all (fits 32)
  | .pairAliveInTransition => true
  | .partnerLost => true
  | .mirCfgRx _ _ _ => true
  | .mirCfgIdleTimer _ => true
  | .mirrorAgeExpiry _ => true
  | .revertHoldoffExpiry => true
  | .revertReqRx _ _ => true
  | .revertAckRx _ _ => true
  | .revertFail => true
  | .switch => true
  | .sfiAccept _ _ _ _ => true
  | .discrepancyFault _ _ _ => true
  | .stoTestPulse _ _ _ => true
  | .readbackMismatch _ => true
  | .ss1TimerExpiry _ _ _ => true
  | .safetySpeedCheck _ _ => true
  | .skerrySlsWindow _ _ => true
  | .xchk _ => true
  | .wdg _ => true
  | .skerrySelfCheck _ => true
  | .lockstepMismatch => true
  | .hostReset _ => true
  | .spbWrite l => l.length == 192
  | .confirm _ _ => true
  | .fuseBurnDone taken => taken.length == 256
  | .classBAck _ => true
  | .mvLoss _ => true
  | .enReqWrite _ _ => true
  | .portSettingWrite _ _ _ => true
  | .portWake _ => true
  | .latchEvent _ _ => true
  | .reloadPoint _ _ => true
  | .tBscExpiry _ _ => true
  | .tripAccept _ _ _ => true
  | .faultInputAccept _ _ _ => true
  | .readyTimeout _ _ => true
  | .toggleComplete _ _ => true
  | .bootstrapRefresh _ _ _ => true
  | .delayLineCalibration _ _ => true
  | .quadEdge _ _ _ _ => true
  | .sincosSample _ _ _ _ => true
  | .ampErr _ => true
  | .ampErrClear _ => true
  | .cableFlt _ _ => true
  | .ssiFrameStart _ _ => true
  | .ssiFrameEnd _ _ _ _ _ _ _ => true
  | .ssiFlt _ => true
  | .indexEvent _ _ => true
  | .refArm _ => true
  | .set _ => true
  | .encFltClr _ _ => true
  | .encModeWrite _ _ => true
  | .standstill _ _ => true
  | .sequenceStart _ => true
  | .conversionEnd _ _ => true
  | .conversionTimeout _ _ => true
  | .adcStale _ => true
  | .calZero _ => true
  | .calFs _ _ => true
  | .calAbort _ => true
  | .calDone _ => true
  | .calTimeout _ => true
  | .adcFltClr _ _ => true
  | .refSelWrite _ => true
  | .refSettled _ => true
  | .refErr => true
  | .sessionOpen m _ => wfHarbour m
  | .sessionClose m _ => wfHarbour m
  | .keepalive m _ => wfHarbour m
  | .read m _ => wfHarbour m
  | .write m _ => wfHarbour m
  | .txOpen m _ => wfHarbour m
  | .txWrite m _ _ => wfHarbour m
  | .txCommit m _ => wfHarbour m
  | .txAbort m _ => wfHarbour m
  | .sessionIdleExpiry sid _ => fits 32 sid
  | .transactionTimeout tx _ => fits 32 tx
  | .lockout ip _ => fits 32 ip
  | .lockoutExpiry ip _ => fits 32 ip
  | .harbourPartTimeout sid _ => fits 32 sid
  | .remoteTimeout id _ => fits 32 id
  | .publicationTx _ => true
  | .pubRx _ body _ _ => decide (body.length ≤ 512)
  | .subscriptionStale _ _ => true
  | .subscriptionHoldEnd _ _ _ => true
  | .ethernetFrameRx _ => true
  | .usdoRequest node cob _ ix sub typ _ _ _ => fits 7 node && fits 11 cob && fits 16 ix && fits 8 sub && fits 8 typ
  | .rpdoRx cob data _ => fits 11 cob && decide (data.length ≤ 64)
  | .rpdoTmo _ _ => true
  | .nmtCommand cmd node => fits 8 cmd && fits 7 node
  | .syncRx _ => true
  | .tpdoEventTimer _ _ _ => true
  | .heartbeatTx _ => true
  | .busOffRecovery _ => true
  | .deviceReset _ => true
  | .modeCommand _ => true
  | .dormantReq => true
  | .registerWindowRead _ => true
  | .registerWindowWrite o _ _ => fits 3 o.chan && fits 32 o.source
  | .flushTimer _ => true
  | .flushNow => true
  | .flushPageDone _ => true
  | .registerWrite x _ => wfAccess x
  | .rcRead x _ => wfAccess x
  | .pairLowRead x _ => wfAccess x
  | .domainStallTimeout _ _ => true
  | .cfcSweepStart => true
  | .cfcSweepDone _ => true
  | .cfcCommit => true
  | .cfcRefWrite _ => true
  | .holdTmo _ => true
  | .vddAonUp => true
  | .powerGood _ => true
  | .bootStageDone e => wfBoot e
  | .bootRetry _ => true
  | .brownout _ => true
  | .resetNEdge _ => true
  | .wakeTimer _ => true
  | .domainRequest _ _ => true
  | .domainReleased _ => true
  | .housekeepingRound v _ => v.length == 32
  | .thermalWarning => true
  | .thermalWarningClear => true
  | .thermalShutdown _ => true
  | .thermalLaneStop => true
  | .thermalDomainRemove => true
  | .thermalRelease _ => true
  | .harbourKeyWrite k => k.length == 32
  | .nodeSampleTrainRx _ _ _ hd avg inst _ _ => wfHdr hd && decide (avg.length ≤ 8) && decide (inst.length ≤ 8)
  | .vddAonLoss => true
  | .ethernetLinkChange _ => true
  | .canBusOff => true
  | .jtagInstructionLoad _ => true
  | .reservedAddressRelease _ => true

end Sys2Proof
end

