-- ==== Sys2Proof/Tests/Slice0.lean ====
section
/-! SUPPORT. The tests of the model: ill-formed commands that `wellFormed` refuses, values the spec states in words, and one witness theorem per
statement, which shows for each of its clauses a concrete state and operands that meet all of the clause's hypotheses. -/
namespace Sys2Proof.Tests
open Sys2Proof.Machine
set_option Elab.async false
set_option linter.unusedVariables false

/-- A frame header of zeros. -/
def hdrNone : FrameHdr := ⟨0, 0, 0, 0, false, 0, 0, 0, 0, 0, false⟩

/-! ### Ill-formed commands are refused -/


theorem test_wellFormed_memory_place :
    wellFormed (.scrubAccess 0 256 .scrub 0 .free 0) = false ∧
    wellFormed (.scrubAccess 0 0 (.access 32768 false) 0 .free 0) = false ∧
    wellFormed (.scrubAccess 0 0 (.both 32768 true) 0 .free 0) = false ∧
    wellFormed (.eccWriteBack 0 256 0) = false ∧
    wellFormed (.eccWriteBack 0 0 32768) = false := by
  decide +kernel

theorem test_wellFormed_sync_ferry :
    wellFormed (.syncFerryRx 0 { tick := 281474976710656, epoch := 0, tx := 0, period := 0, rootUid := 0, rootPrio := 0 } 0 true) = false ∧
    wellFormed (.syncFerryRx 0 { tick := 0, epoch := 65536, tx := 0, period := 0, rootUid := 0, rootPrio := 0 } 0 true) = false ∧
    wellFormed (.syncFerryRx 0 { tick := 0, epoch := 0, tx := 18446744073709551616, period := 0, rootUid := 0, rootPrio := 0 } 0 true) = false ∧
    wellFormed (.syncFerryRx 0 { tick := 0, epoch := 0, tx := 0, period := 131072, rootUid := 0, rootPrio := 0 } 0 true) = false ∧
    wellFormed (.syncFerryRx 0 { tick := 0, epoch := 0, tx := 0, period := 0, rootUid := 18446744073709551616, rootPrio := 0 } 0 true) = false ∧
    wellFormed (.syncFerryRx 0 { tick := 0, epoch := 0, tx := 0, period := 0, rootUid := 0, rootPrio := 256 } 0 true) = false := by
  decide +kernel

theorem test_wellFormed_sample_record :
    wellFormed (.sampleContainerRx 0 0 true true 0 { avg := List.replicate 9 0, inst := [], status := 0 } 0 false) = false ∧
    wellFormed (.sampleContainerRx 0 0 true true 0 { avg := [], inst := List.replicate 9 0, status := 0 } 0 false) = false ∧
    wellFormed (.sampleContainerRx 0 0 true true 0 { avg := [], inst := [], status := 2 ^ 64 } 0 false) = false := by
  decide +kernel

theorem test_wellFormed_causeway_head :
    wellFormed (.cwFaultRx { tick := 2 ^ 48, gen := 0, variant := 0, seg := 0, head := 0, string := 0 } true 0 0 0 0) = false ∧
    wellFormed (.cwFaultRx { tick := 0, gen := 2 ^ 10, variant := 0, seg := 0, head := 0, string := 0 } true 0 0 0 0) = false ∧
    wellFormed (.cwFaultRx { tick := 0, gen := 0, variant := 2 ^ 2, seg := 0, head := 0, string := 0 } true 0 0 0 0) = false ∧
    wellFormed (.cwFaultRx { tick := 0, gen := 0, variant := 0, seg := 2 ^ 8, head := 0, string := 0 } true 0 0 0 0) = false ∧
    wellFormed (.cwFaultRx { tick := 0, gen := 0, variant := 0, seg := 0, head := 2 ^ 12, string := 0 } true 0 0 0 0) = false ∧
    wellFormed (.cwFaultRx { tick := 0, gen := 0, variant := 0, seg := 0, head := 0, string := 2 ^ 6 } true 0 0 0 0) = false ∧
    wellFormed (.cwWordRx { tick := 2 ^ 48, gen := 0, variant := 0, seg := 0, head := 0, string := 0 } 0 [] []) = false ∧
    wellFormed (.cwWordRx { tick := 0, gen := 0, variant := 0, seg := 0, head := 0, string := 0 } 0 (List.replicate 9 0) []) = false ∧
    wellFormed (.cwListRx { tick := 0, gen := 2 ^ 10, variant := 0, seg := 0, head := 0, string := 0 } 0 1 {} [] 0) = false ∧
    wellFormed (.cwListRx { tick := 0, gen := 0, variant := 0, seg := 0, head := 0, string := 0 } 1 1 {} [] 0) = false ∧
    wellFormed (.cwListRx { tick := 0, gen := 0, variant := 0, seg := 0, head := 0, string := 0 } 0 1 { act := 513 } [] 0) = false ∧
    wellFormed (.cwListRx { tick := 0, gen := 0, variant := 0, seg := 0, head := 0, string := 0 } 0 1 {} (List.replicate 61 { sortv := 0, key := 0, gPos := 0 }) 0) = false := by
  decide +kernel

theorem test_wellFormed_narrows_frame :
    wellFormed (.edgeEchoRx 0 true { node := 16, cover := [], recs := [] }) = false ∧
    wellFormed (.edgeEchoRx 0 true { node := 0, cover := [⟨8, 0, 0, 0, 0⟩], recs := [] }) = false ∧
    wellFormed (.edgeEchoRx 0 true { node := 0, cover := [], recs := [⟨16, true, 0, 0, 0, 0, 0, 1⟩] }) = false ∧
    wellFormed (.nodeEdgeFrameRx 0 0 false hdrNone { node := 16, cover := [], recs := [] } 0) = false ∧
    wellFormed (.nodeEdgeFrameRx 0 0 false { hdrNone with typ := 16 } { node := 0, cover := [], recs := [] } 0) = false ∧
    wellFormed (.nodeEdgeFrameRx 0 0 false { hdrNone with version := 16 } { node := 0, cover := [], recs := [] } 0) = false ∧
    wellFormed (.nodeEdgeFrameRx 0 0 false { hdrNone with node := 16 } { node := 0, cover := [], recs := [] } 0) = false ∧
    wellFormed (.nodeEdgeFrameRx 0 0 false { hdrNone with ring := 16 } { node := 0, cover := [], recs := [] } 0) = false ∧
    wellFormed (.nodeEdgeFrameRx 0 0 false { hdrNone with par := 4 } { node := 0, cover := [], recs := [] } 0) = false ∧
    wellFormed (.nodeEdgeFrameRx 0 0 false { hdrNone with len := 65536 } { node := 0, cover := [], recs := [] } 0) = false ∧
    wellFormed (.nodeEdgeFrameRx 0 0 false { hdrNone with seq := 65536 } { node := 0, cover := [], recs := [] } 0) = false ∧
    wellFormed (.nodeEdgeFrameRx 0 0 false { hdrNone with crc := 65536 } { node := 0, cover := [], recs := [] } 0) = false ∧
    wellFormed (.nodeTideHeaderRx 0 0 false hdrNone { ring := 2 ^ 4, time := 0, tick := 0, epoch := 0, tc := 0, launch := 0, master := false, paired := false, local_ := false, en := 0, byp := 0, halt := 0 } 0) = false ∧
    wellFormed (.nodeTideHeaderRx 0 0 false hdrNone { ring := 0, time := 2 ^ 64, tick := 0, epoch := 0, tc := 0, launch := 0, master := false, paired := false, local_ := false, en := 0, byp := 0, halt := 0 } 0) = false ∧
    wellFormed (.nodeTideHeaderRx 0 0 false hdrNone { ring := 0, time := 0, tick := 2 ^ 48, epoch := 0, tc := 0, launch := 0, master := false, paired := false, local_ := false, en := 0, byp := 0, halt := 0 } 0) = false ∧
    wellFormed (.nodeTideHeaderRx 0 0 false hdrNone { ring := 0, time := 0, tick := 0, epoch := 2 ^ 16, tc := 0, launch := 0, master := false, paired := false, local_ := false, en := 0, byp := 0, halt := 0 } 0) = false ∧
    wellFormed (.nodeTideHeaderRx 0 0 false hdrNone { ring := 0, time := 0, tick := 0, epoch := 0, tc := 2 ^ 16, launch := 0, master := false, paired := false, local_ := false, en := 0, byp := 0, halt := 0 } 0) = false ∧
    wellFormed (.nodeTideHeaderRx 0 0 false hdrNone { ring := 0, time := 0, tick := 0, epoch := 0, tc := 0, launch := 2 ^ 16, master := false, paired := false, local_ := false, en := 0, byp := 0, halt := 0 } 0) = false ∧
    wellFormed (.nodeTideHeaderRx 0 0 false hdrNone { ring := 0, time := 0, tick := 0, epoch := 0, tc := 0, launch := 0, master := false, paired := false, local_ := false, en := 2 ^ 16, byp := 0, halt := 0 } 0) = false ∧
    wellFormed (.nodeTideHeaderRx 0 0 false hdrNone { ring := 0, time := 0, tick := 0, epoch := 0, tc := 0, launch := 0, master := false, paired := false, local_ := false, en := 0, byp := 2 ^ 16, halt := 0 } 0) = false ∧
    wellFormed (.nodeTideHeaderRx 0 0 false hdrNone { ring := 0, time := 0, tick := 0, epoch := 0, tc := 0, launch := 0, master := false, paired := false, local_ := false, en := 0, byp := 0, halt := 2 ^ 16 } 0) = false := by
  decide +kernel

theorem test_wellFormed_service_body :
    wellFormed (.serviceRequest 0 (some (0, List.replicate 17 0))) = false ∧
    wellFormed (.serviceReplyRx 0 0 true (List.replicate 129 0) 0) = false ∧
    wellFormed (.nodeCfg 0 0 false hdrNone ⟨0, 8⟩ (List.replicate 13 0)) = false ∧
    wellFormed (.ident 0 0 false hdrNone ⟨256, 8⟩) = false ∧
    wellFormed (.ident 0 0 false hdrNone ⟨0, 12⟩) = false ∧
    wellFormed (.ident 0 0 false hdrNone ⟨0, 136⟩) = false ∧
    wellFormed (.stat 0 0 false hdrNone ⟨0, 8⟩ 7) = false ∧
    wellFormed (.nodeSampleTrainRx 0 0 false hdrNone (List.replicate 9 0) [] 0 true) = false ∧
    wellFormed (.nodeSampleTrainRx 0 0 false hdrNone [] (List.replicate 9 0) 0 true) = false := by
  decide +kernel

theorem test_wellFormed_hello :
    wellFormed (.helloRx 0 { uid := 2 ^ 64, fab := 0, addr := 0, prio := 0, port := 0, pair := false, solitary := false, run := false, merging := false, rootUid := 0, rootPrio := 0, hops := 0, epoch := 0, heard := 0, lsaSeq := 0 } true) = false ∧
    wellFormed (.helloRx 0 { uid := 0, fab := 2 ^ 32, addr := 0, prio := 0, port := 0, pair := false, solitary := false, run := false, merging := false, rootUid := 0, rootPrio := 0, hops := 0, epoch := 0, heard := 0, lsaSeq := 0 } true) = false ∧
    wellFormed (.helloRx 0 { uid := 0, fab := 0, addr := 2 ^ 12, prio := 0, port := 0, pair := false, solitary := false, run := false, merging := false, rootUid := 0, rootPrio := 0, hops := 0, epoch := 0, heard := 0, lsaSeq := 0 } true) = false ∧
    wellFormed (.helloRx 0 { uid := 0, fab := 0, addr := 0, prio := 2 ^ 8, port := 0, pair := false, solitary := false, run := false, merging := false, rootUid := 0, rootPrio := 0, hops := 0, epoch := 0, heard := 0, lsaSeq := 0 } true) = false ∧
    wellFormed (.helloRx 0 { uid := 0, fab := 0, addr := 0, prio := 0, port := 2 ^ 2, pair := false, solitary := false, run := false, merging := false, rootUid := 0, rootPrio := 0, hops := 0, epoch := 0, heard := 0, lsaSeq := 0 } true) = false ∧
    wellFormed (.helloRx 0 { uid := 0, fab := 0, addr := 0, prio := 0, port := 0, pair := false, solitary := false, run := false, merging := false, rootUid := 2 ^ 64, rootPrio := 0, hops := 0, epoch := 0, heard := 0, lsaSeq := 0 } true) = false ∧
    wellFormed (.helloRx 0 { uid := 0, fab := 0, addr := 0, prio := 0, port := 0, pair := false, solitary := false, run := false, merging := false, rootUid := 0, rootPrio := 2 ^ 8, hops := 0, epoch := 0, heard := 0, lsaSeq := 0 } true) = false ∧
    wellFormed (.helloRx 0 { uid := 0, fab := 0, addr := 0, prio := 0, port := 0, pair := false, solitary := false, run := false, merging := false, rootUid := 0, rootPrio := 0, hops := 2 ^ 8, epoch := 0, heard := 0, lsaSeq := 0 } true) = false ∧
    wellFormed (.helloRx 0 { uid := 0, fab := 0, addr := 0, prio := 0, port := 0, pair := false, solitary := false, run := false, merging := false, rootUid := 0, rootPrio := 0, hops := 0, epoch := 2 ^ 16, heard := 0, lsaSeq := 0 } true) = false ∧
    wellFormed (.helloRx 0 { uid := 0, fab := 0, addr := 0, prio := 0, port := 0, pair := false, solitary := false, run := false, merging := false, rootUid := 0, rootPrio := 0, hops := 0, epoch := 0, heard := 2 ^ 64, lsaSeq := 0 } true) = false ∧
    wellFormed (.helloRx 0 { uid := 0, fab := 0, addr := 0, prio := 0, port := 0, pair := false, solitary := false, run := false, merging := false, rootUid := 0, rootPrio := 0, hops := 0, epoch := 0, heard := 0, lsaSeq := 2 ^ 32 } true) = false := by
  decide +kernel

theorem test_wellFormed_lsa :
    wellFormed (.lsaRx 0 { uid := 2 ^ 64, seq := 0, addr := 0, prio := 0, run := false, solitary := false, isRoot := false, merging := false, lease := 0, nbrs := [0, 0, 0, 0] } true) = false ∧
    wellFormed (.lsaRx 0 { uid := 0, seq := 2 ^ 32, addr := 0, prio := 0, run := false, solitary := false, isRoot := false, merging := false, lease := 0, nbrs := [0, 0, 0, 0] } true) = false ∧
    wellFormed (.lsaRx 0 { uid := 0, seq := 0, addr := 2 ^ 12, prio := 0, run := false, solitary := false, isRoot := false, merging := false, lease := 0, nbrs := [0, 0, 0, 0] } true) = false ∧
    wellFormed (.lsaRx 0 { uid := 0, seq := 0, addr := 0, prio := 2 ^ 8, run := false, solitary := false, isRoot := false, merging := false, lease := 0, nbrs := [0, 0, 0, 0] } true) = false ∧
    wellFormed (.lsaRx 0 { uid := 0, seq := 0, addr := 0, prio := 0, run := false, solitary := false, isRoot := false, merging := false, lease := 2 ^ 17, nbrs := [0, 0, 0, 0] } true) = false ∧
    wellFormed (.lsaRx 0 { uid := 0, seq := 0, addr := 0, prio := 0, run := false, solitary := false, isRoot := false, merging := false, lease := 0, nbrs := [0] } true) = false ∧
    wellFormed (.lsaRx 0 { uid := 0, seq := 0, addr := 0, prio := 0, run := false, solitary := false, isRoot := false, merging := false, lease := 0, nbrs := [0, 0, 0, 2 ^ 64] } true) = false := by
  decide +kernel

theorem test_wellFormed_fabric_message :
    wellFormed (.leaseRx 0 0 0 131072 false true) = false ∧
    wellFormed (.epochRx 0 { epoch := 2 ^ 16, k0 := 0, period := 0, prio := 0, uid := 0 } true) = false ∧
    wellFormed (.epochRx 0 { epoch := 0, k0 := 2 ^ 48, period := 0, prio := 0, uid := 0 } true) = false ∧
    wellFormed (.epochRx 0 { epoch := 0, k0 := 0, period := 2 ^ 17, prio := 0, uid := 0 } true) = false ∧
    wellFormed (.epochRx 0 { epoch := 0, k0 := 0, period := 0, prio := 2 ^ 8, uid := 0 } true) = false ∧
    wellFormed (.epochRx 0 { epoch := 0, k0 := 0, period := 0, prio := 0, uid := 2 ^ 64 } true) = false ∧
    wellFormed (.mergeRx 0 (.start 0 (2 ^ 48) false) 0 true) = false ∧
    wellFormed (.mergeRx 0 (.done (2 ^ 48) 0 0 0) 0 true) = false ∧
    wellFormed (.mergeRx 0 (.done 0 65536 0 0) 0 true) = false ∧
    wellFormed (.mergeRx 0 (.done 0 0 (2 ^ 48) 0) 0 true) = false ∧
    wellFormed (.mergeRx 0 (.done 0 0 0 131072) 0 true) = false ∧
    wellFormed (.mergeCompletion 0 (2 ^ 48) 0 true) = false ∧
    wellFormed (.mergeCompletion 0 0 131072 true) = false := by
  decide +kernel

theorem test_wellFormed_ferry :
    wellFormed (.ferryRx 0 { dest := 4096, cls := 0, src := 0, typ := 0, hops := 0, len := 0, seq := 0, epoch := 0, time := 0, port := none, stomp := false, msg := .other [] } true true true false 0) = false ∧
    wellFormed (.ferryRx 0 { dest := 0, cls := 4, src := 0, typ := 0, hops := 0, len := 0, seq := 0, epoch := 0, time := 0, port := none, stomp := false, msg := .other [] } true true true false 0) = false ∧
    wellFormed (.ferryRx 0 { dest := 0, cls := 0, src := 4096, typ := 0, hops := 0, len := 0, seq := 0, epoch := 0, time := 0, port := none, stomp := false, msg := .other [] } true true true false 0) = false ∧
    wellFormed (.ferryRx 0 { dest := 0, cls := 0, src := 0, typ := 256, hops := 0, len := 0, seq := 0, epoch := 0, time := 0, port := none, stomp := false, msg := .other [] } true true true false 0) = false ∧
    wellFormed (.ferryRx 0 { dest := 0, cls := 0, src := 0, typ := 0, hops := 128, len := 0, seq := 0, epoch := 0, time := 0, port := none, stomp := false, msg := .other [] } true true true false 0) = false ∧
    wellFormed (.ferryRx 0 { dest := 0, cls := 0, src := 0, typ := 0, hops := 0, len := 513, seq := 0, epoch := 0, time := 0, port := none, stomp := false, msg := .other [] } true true true false 0) = false ∧
    wellFormed (.ferryRx 0 { dest := 0, cls := 0, src := 0, typ := 0, hops := 0, len := 0, seq := 65536, epoch := 0, time := 0, port := none, stomp := false, msg := .other [] } true true true false 0) = false ∧
    wellFormed (.ferryRx 0 { dest := 0, cls := 0, src := 0, typ := 0, hops := 0, len := 0, seq := 0, epoch := 65536, time := 0, port := none, stomp := false, msg := .other [] } true true true false 0) = false ∧
    wellFormed (.ferryRx 0 { dest := 0, cls := 0, src := 0, typ := 0, hops := 0, len := 0, seq := 0, epoch := 0, time := 2 ^ 64, port := none, stomp := false, msg := .other [] } true true true false 0) = false := by
  decide +kernel

theorem test_wellFormed_dictionary_request :
    wellFormed (.dicReqRx 0 (2 ^ 32) 0 0 0 true true [] none true 0) = false ∧
    wellFormed (.dicReqRx 0 0 256 0 0 true true [] none true 0) = false ∧
    wellFormed (.dicReqRx 0 0 0 (2 ^ 32) 0 true true [] none true 0) = false ∧
    wellFormed (.dicReqRx 0 0 0 0 65536 true true [] none true 0) = false ∧
    wellFormed (.dicReqRx 0 0 0 0 0 true true (List.replicate 513 0) none true 0) = false ∧
    wellFormed (.dicRspRx 0 (2 ^ 32) 0 true true [] true) = false ∧
    wellFormed (.dicRspRx 0 0 65536 true true [] true) = false ∧
    wellFormed (.dicRspRx 0 0 0 true true (List.replicate 513 0) true) = false ∧
    wellFormed (.pubRx 0 (List.replicate 513 0) true 0) = false ∧
    wellFormed (.remoteTimeout (2 ^ 32) 0) = false := by
  decide +kernel

theorem test_wellFormed_pair_message :
    wellFormed (.pairHbRx { tick := 2 ^ 48, mode := 0, run := false, relinquish := false, pause := false, preferred := false, takeReady := false, side := 0, rings := [], strings := [] } true) = false ∧
    wellFormed (.pairHbRx { tick := 0, mode := 8, run := false, relinquish := false, pause := false, preferred := false, takeReady := false, side := 0, rings := [], strings := [] } true) = false ∧
    wellFormed (.pairHbRx { tick := 0, mode := 0, run := false, relinquish := false, pause := false, preferred := false, takeReady := false, side := 0, rings := List.replicate 17 (0, 0, 0), strings := [] } true) = false ∧
    wellFormed (.pairHbRx { tick := 0, mode := 0, run := false, relinquish := false, pause := false, preferred := false, takeReady := false, side := 0, rings := [], strings := List.replicate 65 { sstate := 0, variant := 0, gen := 0, ex1 := 0, ex2 := 0 } } true) = false ∧
    wellFormed (.pairDigRx (2 ^ 48) 0 [] true) = false ∧
    wellFormed (.pairDigRx 0 256 [] true) = false ∧
    wellFormed (.pairDigRx 0 0 [2 ^ 32] true) = false := by
  decide +kernel

theorem test_wellFormed_protection_setup :
    wellFormed (.spbWrite (List.replicate 191 0)) = false ∧
    wellFormed (.fuseBurnDone (List.replicate 255 0)) = false := by
  decide +kernel

theorem test_wellFormed_harbour_message :
    wellFormed (.sessionOpen { ip := 2 ^ 32, session := 0, seq := 0, req := 0, lenField := 0, body := [], tag := [], version := 1, target := 0, tx := 0 } 0) = false ∧
    wellFormed (.sessionClose { ip := 0, session := 0, seq := 0, req := 0, lenField := 0, body := [], tag := [], version := 256, target := 0, tx := 0 } 0) = false ∧
    wellFormed (.keepalive { ip := 0, session := 2 ^ 32, seq := 0, req := 0, lenField := 0, body := [], tag := [], version := 1, target := 0, tx := 0 } 0) = false ∧
    wellFormed (.read { ip := 0, session := 0, seq := 2 ^ 64, req := 0, lenField := 0, body := [], tag := [], version := 1, target := 0, tx := 0 } 0) = false ∧
    wellFormed (.write { ip := 0, session := 0, seq := 0, req := 2 ^ 32, lenField := 0, body := [], tag := [], version := 1, target := 0, tx := 0 } 0) = false ∧
    wellFormed (.txOpen { ip := 0, session := 0, seq := 0, req := 0, lenField := 0, body := [], tag := [], version := 1, target := 4096, tx := 0 } 0) = false ∧
    wellFormed (.txWrite { ip := 0, session := 0, seq := 0, req := 0, lenField := 65536, body := [], tag := [], version := 1, target := 0, tx := 0 } none 0) = false ∧
    wellFormed (.txCommit { ip := 0, session := 0, seq := 0, req := 0, lenField := 0, body := [], tag := [], version := 1, target := 0, tx := 2 ^ 32 } 0) = false ∧
    wellFormed (.txAbort { ip := 0, session := 0, seq := 0, req := 0, lenField := 0, body := List.replicate 1401 0, tag := [], version := 1, target := 0, tx := 0 } 0) = false ∧
    wellFormed (.read { ip := 0, session := 0, seq := 0, req := 0, lenField := 0, body := [], tag := List.replicate 17 0, version := 1, target := 0, tx := 0 } 0) = false ∧
    wellFormed (.sessionIdleExpiry (2 ^ 32) 0) = false ∧
    wellFormed (.transactionTimeout (2 ^ 32) 0) = false ∧
    wellFormed (.lockout (2 ^ 32) 0) = false ∧
    wellFormed (.lockoutExpiry (2 ^ 32) 0) = false ∧
    wellFormed (.harbourPartTimeout (2 ^ 32) 0) = false ∧
    wellFormed (.harbourKeyWrite (List.replicate 31 0)) = false := by
  decide +kernel

theorem test_wellFormed_can_message :
    wellFormed (.usdoRequest 128 0 false 0 0 0 [] none 0) = false ∧
    wellFormed (.usdoRequest 0 2048 false 0 0 0 [] none 0) = false ∧
    wellFormed (.usdoRequest 0 0 false 65536 0 0 [] none 0) = false ∧
    wellFormed (.usdoRequest 0 0 false 0 256 0 [] none 0) = false ∧
    wellFormed (.usdoRequest 0 0 false 0 0 256 [] none 0) = false ∧
    wellFormed (.rpdoRx 2048 [] 0) = false ∧
    wellFormed (.rpdoRx 0 (List.replicate 65 0) 0) = false ∧
    wellFormed (.nmtCommand 256 0) = false ∧
    wellFormed (.nmtCommand 0 128) = false := by
  decide +kernel

theorem test_wellFormed_register_access :
    wellFormed (.registerWindowWrite { chan := 8, source := 0 } 0 0) = false ∧
    wellFormed (.registerWindowWrite { chan := 0, source := 2 ^ 32 } 0 0) = false ∧
    wellFormed (.registerWrite { init := 6, addr := 0, size := 4, write := true, data := 0 } 0) = false ∧
    wellFormed (.registerWrite { init := 0, addr := 2 ^ 32, size := 4, write := true, data := 0 } 0) = false ∧
    wellFormed (.registerWrite { init := 0, addr := 0, size := 3, write := true, data := 0 } 0) = false ∧
    wellFormed (.registerWrite { init := 0, addr := 0, size := 4, write := true, data := 2 ^ 32 } 0) = false ∧
    wellFormed (.rcRead { init := 0, addr := 0, size := 0, write := false, data := 0 } 0) = false ∧
    wellFormed (.pairLowRead { init := 0, addr := 2 ^ 32, size := 4, write := false, data := 0 } 0) = false := by
  decide +kernel

theorem test_wellFormed_boot_event :
    wellFormed (.bootStageDone (.fuses 0 [(4, 0)])) = false ∧
    wellFormed (.bootStageDone (.fuses 0 [(0, 64)])) = false ∧
    wellFormed (.bootStageDone (.sweep 0 0 [16384])) = false ∧
    wellFormed (.housekeepingRound (List.replicate 31 0) false) = false := by
  decide +kernel

theorem test_wellFormed_accepts :
    wellFormed (.tickEdge false 0) = true ∧ wellFormed (.spbWrite spbMin) = true ∧
    wellFormed (.registerWrite { init := 3, addr := 0x40010000, size := 4, write := true, data := 0xFFFFFFFF } 0) = true := by
  decide +kernel

/-! ### Values that the spec states in words -/

/-- 19, the example of lane addresses: 0x42201C44 is the status of lane 7 (an alias), 0x42201C50 its counters, 0x42202404 the status of lane 9. -/
theorem test_decodeAddr_lanes :
    decodeAddr 0x42201C44 = some ⟨.lane, 7, 4⟩ ∧ decodeAddr 0x42201C50 = some ⟨.lane, 7, 0x10⟩ ∧ decodeAddr 0x42202404 = some ⟨.lane, 9, 4⟩ ∧
    decodeAddr 0x42206004 = some ⟨.lane, 24, 4⟩ := by
  decide +kernel
/-- The check value of CRC-32C: the digits 1 to 9 give 0xE3069283. -/
theorem test_crc32c_check : crc32c [0x31, 0x32, 0x33, 0x34, 0x35, 0x36, 0x37, 0x38, 0x39] = 0xE3069283 := by
  decide +kernel
/-- No row of the opcode table gives bits. -/
theorem test_no_word_spells_a_command (nbits w : Nat) : decodeTableWord nbits w = none := rfl
/-- On an empty queue the block idles. -/
theorem test_empty_queue_idles : step State.reset = .next State.reset := rfl
/-- First in, first out. -/
theorem test_front_first (c d : Instr) : step { State.reset with pending := [c, d] } = exec c { State.reset with pending := [d] } := rfl

/-! ### The hypotheses of every statement are met -/

/-! The clauses that are stated about every state or about an operation alone. -/

theorem wit_StepRunsTheCommandAtTheFront :
    (∃ (s : State) (c : Instr) (rest : List Instr), s.pending = c :: rest) ∧ (∃ s : State, s.pending = []) :=
  ⟨⟨{ State.reset with pending := [.powerGood 0] }, .powerGood 0, [], rfl⟩, ⟨State.reset, rfl⟩⟩

theorem wit_FusesOnlyBurn :
    (∃ s t : State, step s = .next t ∧ FuseBanks s) ∧
    (∃ (s t : State) (b i k : Nat), step s = .next t ∧ burnedBit s b i k = true) :=
  ⟨⟨stBoot 1, stBoot 1, rfl, by unfold FuseBanks; decide +kernel⟩, ⟨stBoot 1, stBoot 1, 3, 255, 1, rfl, by decide +kernel⟩⟩

theorem wit_EngineArithmeticRounds :
    (∃ (a : Int) (q : Sat), (store15 a q).2 = q) ∧ (∃ (a : Int) (q : Sat), (store15 a q).2 ≠ q) ∧ (∃ n : Nat, 1 ≤ n ∧ n ≤ 8) ∧
    (∃ i a : Int, -(2 ^ 31) ≤ i + 2 * a ∧ i + 2 * a < 2 ^ 31) :=
  ⟨⟨98304, {}, by decide +kernel⟩, ⟨2 ^ 38, {}, by decide +kernel⟩, ⟨8, by decide⟩, ⟨2 ^ 31 - 3, 1, by decide⟩⟩

theorem wit_EdgeFormersNeverOverlap_operations :
    (∃ u : PairU, ¬ (u.up = true ∧ u.lo = true)) ∧ (∃ u : PairU, u.up = true ∧ u.lo = false) :=
  ⟨⟨{ lo := true }, by decide⟩, ⟨{ up := true }, by decide⟩⟩

theorem wit_FaultsAreQueuedAndReactMostSeverely_operations :
    (∃ (x : Nat) (d : Dev) (c : Nat), split (d.str x) = false ∧ ((d.str x).sstate = 1 ∨ (d.str x).sstate = 2) ∧
      ((((d.str x).fq ++ (d.str x).fqOvf.toList).filter fun e => !isBypass e.cause).map (·.cause)).min? = some c ∧ c < 256) ∧
    (∃ (x : Nat) (d : Dev) (new : List Nat), split (d.str x) = false ∧ ((d.str x).sstate = 1 ∨ (d.str x).sstate = 2) ∧ (d.str x).fqOvf = none ∧
      (∀ e ∈ (d.str x).fq, isBypass e.cause = true) ∧ new = distinct (((d.str x).fq.map (·.pos)).filter fun p => !(d.str x).excl.contains p) ∧
      new ≠ [] ∧ (d.str x).variant + new.length < (d.str x).defn.variants.length) ∧
    (∃ (x : Nat) (d : Dev) (new : List Nat), split (d.str x) = false ∧ ((d.str x).sstate = 1 ∨ (d.str x).sstate = 2) ∧ (d.str x).fqOvf = none ∧
      (∀ e ∈ (d.str x).fq, isBypass e.cause = true) ∧ new = distinct (((d.str x).fq.map (·.pos)).filter fun p => !(d.str x).excl.contains p) ∧
      new ≠ [] ∧ (d.str x).defn.variants.length ≤ (d.str x).variant + new.length) ∧
    (∃ (x : Nat) (d : Dev), (d.str x).sstate = 0 ∨ (d.str x).sstate = 3) :=
  ⟨⟨0, (stStr { strU 2 with fq := [⟨0x15, 1, 0, 0⟩, ⟨0x14, 2, 0, 0⟩] }).dev, 0x14, by decide +kernel⟩,
   ⟨0, (stStr { strU 2 with fq := [⟨1, 1, 0, 0⟩] }).dev, [1], by decide +kernel⟩,
   ⟨0, (stStr { strU 2 with fq := [⟨1, 1, 0, 0⟩, ⟨1, 2, 0, 0⟩] }).dev, [1, 2], by decide +kernel⟩,
   ⟨0, (stStr (strU 3)).dev, by decide +kernel⟩⟩

theorem wit_SorterOrdersAndDelivers_operations : ∃ r n : Nat, r < n ∧ n ≤ 512 := ⟨511, 512, by decide⟩

theorem wit_NodeInterlockHolds :
    ∃ u : NodeDev, ∀ p, ¬ ((u.pair p).up = true ∧ (u.pair p).lo = true) ∧ ((u.pair p).refresh.isSome = true → (u.pair p).up = false) :=
  ⟨{ pairs := [(0, { lo := true, refresh := some 5 })] }, fun p => by
    by_cases h : p = 0
    · subst h; decide
    · simp [NodeDev.pair, tget, h, Ne.symm h]⟩

theorem wit_ClockFaultsStopWhatTheyFeed :
    (∃ (s : State) (m : ClockMon) (elapsed : Nat), s.dev.mode ≠ 0 ∧ s.dev.pow.held = false ∧ mainFault m elapsed = true) ∧
    (∃ (s : State) (m : ClockMon) (elapsed : Nat), mainFault m elapsed = false) ∧
    (∃ (s : State) (elapsed : Nat), s.dev.pow.held = true ∧ s.dev.pow.trip = false ∧ 1000 ≤ elapsed) ∧
    (∃ (s : State) (elapsed : Nat), s.dev.pow.held = true ∧ elapsed < 1000) ∧
    (∃ (s : State) (scc sk elapsed : Nat), s.dev.coreOn = true ∧ s.dev.domOn 3 = true ∧ 10 * scc < 9 * (25 * sk) ∧ 20000 ≤ elapsed) ∧
    (∃ (s : State) (scc sk elapsed : Nat), s.dev.coreOn = true ∧ (elapsed < 20000 ∨ (9 * (25 * sk) ≤ 10 * scc ∧ 10 * scc ≤ 11 * (25 * sk) ∧ 9 * scc ≤ 10 * (25 * sk) ∧ 10 * (25 * sk) ≤ 11 * scc))) ∧
    (∃ (s : State) (ref : Fin 3), s.dev.coreOn = true) :=
  ⟨⟨stRun, (.ref 31000000), 10000, by decide +kernel⟩,
   ⟨stRun, (.ref 30000000), 10000, by decide +kernel⟩,
   ⟨stHeld, 1000, by decide +kernel⟩,
   ⟨stHeld, 999, by decide +kernel⟩,
   ⟨stRun, 350000000, 16000000, 20000, by decide +kernel⟩,
   ⟨stRun, 400000000, 16000000, 20000, by decide +kernel⟩,
   ⟨stRun, 1, by decide +kernel⟩⟩

theorem wit_MemoryErrorsCountAndReact :
    (∃ (s : State) (mem : Fin 5) (bank : Nat) (use : ShoalUse) (at_ : Nat), s.dev.coreOn = true ∧ bank < bankCount mem.val ∧ memOn mem.val bank s.dev = true) ∧
    (∃ (s : State) (mem : Fin 5) (bank : Nat) (write : Bool) (use : ShoalUse) (at_ : Nat), s.dev.coreOn = true ∧ bank < bankCount mem.val ∧ memOn mem.val bank s.dev = true) ∧
    (∃ (s : State) (mem : Fin 5) (bank : Nat) (use : ShoalUse) (at_ : Nat), s.dev.coreOn = true ∧ bank < bankCount mem.val ∧ memOn mem.val bank s.dev = true) ∧
    (∃ (s : State) (mem : Fin 5) (bank : Nat) (use : ShoalUse) (at_ : Nat), s.dev.coreOn = true ∧ bank < bankCount mem.val ∧ memOn mem.val bank s.dev = true) ∧
    (∃ (s : State) (bank word at_ : Nat), s.dev.coreOn = true ∧ bank < 32 ∧ word < 16384) ∧
    (∃ (s : State) (n : Fin 256) (word : Nat) (use : ShoalUse) (at_ : Nat), s.dev.coreOn = true ∧ memOn 0 n.val s.dev = true) ∧
    (∃ (s : State) (bank word : Nat) (use : ShoalUse) (at_ : Nat), s.dev.coreOn = true ∧ bank < 4) ∧
    (∃ (s : State) (bank word : Nat) (use : ShoalUse) (at_ : Nat), s.dev.coreOn = true ∧ bank = 0 ∧ (s.dev.jslot (word / 4)).seq ≠ 0) ∧
    (∃ (s : State) (mem : Fin 5) (bank word : Nat), s.dev.coreOn = true) ∧
    (∃ (s : State), s.dev.coreOn = true ∧ 2 ≤ s.dev.mode) ∧
    (∃ (s : State), s.dev.coreOn = true ∧ s.dev.pow.restart = true) :=
  ⟨⟨stRun, 0, 0, .free, 0, by decide +kernel⟩,
   ⟨stRun, 0, 0, true, .free, 0, by decide +kernel⟩,
   ⟨stRun, 0, 0, .free, 0, by decide +kernel⟩,
   ⟨stRun, 0, 0, .free, 0, by decide +kernel⟩,
   ⟨stRun, 31, 16383, 0, by decide +kernel⟩,
   ⟨stRun, 63, 0, .free, 0, by decide +kernel⟩,
   ⟨stRun, 3, 32767, .free, 0, by decide +kernel⟩,
   ⟨stJrn, 0, 4, .free, 0, by decide +kernel⟩,
   ⟨stRun, 1, 0, 0, by decide +kernel⟩,
   ⟨stRun, by decide +kernel⟩,
   ⟨stRestart, by decide +kernel⟩⟩

theorem wit_TidePeriodAndGuardWrites :
    (∃ (s : State) (v : BitVec 15), s.dev.coreOn = true ∧ within 2000 v.toNat 20000 = true ∧ periodOk v.toNat s.dev = true ∧ isRoot s.dev = false) ∧
    (∃ (s : State) (v : BitVec 15) (e : Nat × StringU), s.dev.coreOn = true ∧ e ∈ s.dev.strings ∧ (e.2.sstate = 1 ∨ e.2.sstate = 2)) ∧
    (∃ (s : State) (v : BitVec 15) (p : Fin 4), s.dev.coreOn = true ∧ s.dev.flag (mpoEn p.val) = true) ∧
    (∃ (s : State) (g : BitVec 11), s.dev.coreOn = true ∧ 200 ≤ g.toNat ∧ g.toNat ≤ 2000) ∧
    (∃ (s : State) (g : BitVec 11), s.dev.coreOn = true ∧ (g.toNat < 200 ∨ 2000 < g.toNat)) :=
  ⟨⟨stRun, 2000, by decide +kernel⟩,
   ⟨stString 2, 4000, (0, strU 2), by decide +kernel⟩,
   ⟨stPortEn, 4000, 3, by decide +kernel⟩,
   ⟨stRun, 200, by decide +kernel⟩,
   ⟨stRun, 199, by decide +kernel⟩⟩

theorem wit_TideStatesMoveAndLinksAreMeasured :
    (∃ (s : State), s.dev.coreOn = true ∧ s.dev.tide.tstate = 1 ∧ 16 ≤ s.dev.tide.silent) ∧
    (∃ (s : State), s.dev.coreOn = true ∧ (s.dev.tide.tstate ≠ 1 ∨ s.dev.tide.silent < 16)) ∧
    (∃ (s : State), s.dev.coreOn = true ∧ s.dev.tide.tstate = 2 ∧ 4 ≤ s.dev.tide.silent ∧ isRoot s.dev = false) ∧
    (∃ (s : State), s.dev.coreOn = true ∧ s.dev.tide.tstate = 3 ∧ 64 ≤ s.dev.tide.silent) ∧
    (∃ (s : State), s.dev.coreOn = true ∧ s.dev.anyRun = false) ∧
    (∃ (s : State), s.dev.coreOn = true ∧ s.dev.anyRun = true) ∧
    (∃ (s : State) (p : Fin 4) (m : SyncMsg) (rx : Nat), s.dev.coreOn = true ∧ s.dev.fab.queue = [] ∧ 2 ≤ s.dev.f (portState p.val) ∧ s.dev.fab.merge = none ∧ s.dev.flag localOnly = false ∧ m.rootUid = rootUid s.dev ∧ isRoot s.dev = false ∧ syncPort s.dev = some p.val ∧ s.dev.tide.tstate = 0 ∧ s.dev.tide.next = none ∧ m.period = 5 * s.dev.tide.period) ∧
    (∃ (s : State) (p : Fin 4) (m : SyncMsg) (rx : Nat), s.dev.coreOn = true) ∧
    (∃ (s : State) (p : Fin 4), s.dev.coreOn = true ∧ mayPass p.val 2 s.dev = true) ∧
    (∃ (s : State) (p : Fin 4) (t2 : Nat), s.dev.coreOn = true ∧ s.dev.fab.queue = [] ∧ mayPass p.val 3 s.dev = true) ∧
    (∃ (s : State) (p : Fin 4) (t1 t2 t3 t4 : Nat), s.dev.coreOn = true ∧ s.dev.fab.queue = [] ∧ (s.dev.f (portState p.val) = 2 ∨ s.dev.f (portState p.val) = 4) ∧ (s.dev.delayU p.val).t1 = some t1 ∧ (s.dev.delayU p.val).meas.length < 16) ∧
    (∃ (s : State) (p : Fin 4) (t1 t2 t3 t4 : Nat), s.dev.coreOn = true ∧ s.dev.fab.queue = [] ∧ (s.dev.f (portState p.val) = 2 ∨ s.dev.f (portState p.val) = 4) ∧ (s.dev.delayU p.val).t1 = some t1 ∧ 16 ≤ (s.dev.delayU p.val).meas.length ∧ 160 < (((t4 : Int) - t1 - ((t3 : Int) - t2) + 1) / 2 + (2 * 16 * s.dev.sf ⟨0x40100030 + 4 * p.val, 0, 16⟩ + 1000) / 2000 - s.dev.f ⟨0x40100040 + 4 * p.val, 0, 32⟩).natAbs) :=
  ⟨⟨stTide 1 16, by decide +kernel⟩,
   ⟨stTide 1 15, by decide +kernel⟩,
   ⟨stTide 2 4, by decide +kernel⟩,
   ⟨stTide 3 64, by decide +kernel⟩,
   ⟨stRun, by decide +kernel⟩,
   ⟨stString 2, by decide +kernel⟩,
   ⟨stSync, 0, ⟨0, 1, 0, 20000, ownUid + 1, 0⟩, 0, by
     repeat' apply And.intro
     all_goals first | decide +kernel | rfl | exact sync_ok | exact uidSelf_toNat | exact uidNext_ne | (simp; done) | (simp [stRoot, stSync, stW, isRoot, rootUid, ownUid, lsasOf, lsaOf, Dev.wr, State.reset]; done) | omega⟩,
   ⟨stRun, 0, ⟨0, 1, 0, 20000, 0, 0⟩, 0, by
     repeat' apply And.intro
     all_goals first | decide +kernel | rfl | exact sync_ok | exact uidSelf_toNat | exact uidNext_ne | (simp; done) | (simp [stRoot, stSync, stW, isRoot, rootUid, ownUid, lsasOf, lsaOf, Dev.wr, State.reset]; done) | omega⟩,
   ⟨stPortUp 0, 0, by decide +kernel⟩,
   ⟨stPortUp 3, 3, 1, by decide +kernel⟩,
   ⟨stDelay, 0, 10, 100, 110, 40, by decide +kernel⟩,
   ⟨stDelay16, 0, 0, 0, 0, 100000, by decide +kernel⟩⟩

theorem wit_IslesWakeAreAbandonedAndStall :
    (∃ (s : State) (n : Nat), s.dev.coreOn = true ∧ (s.dev.isle n).istate ≠ 0 ∧ (s.dev.isle n).istate ≠ 4) ∧
    (∃ (s : State) (n : Nat), s.dev.coreOn = true ∧ ((s.dev.isle n).istate = 0 ∨ (s.dev.isle n).istate = 4)) ∧
    (∃ (s : State) (n : Fin 256) (at_ : Nat), s.dev.coreOn = true ∧ (s.dev.isle n.val).istate ≠ 0 ∧ s.dev.f ⟨0x41100000, 16, 4⟩ + 1 ≤ (s.dev.isle n.val).consec) ∧
    (∃ (s : State) (n : Fin 256) (at_ : Nat), s.dev.coreOn = true ∧ (s.dev.isle n.val).consec < s.dev.f ⟨0x41100000, 16, 4⟩ + 1) ∧
    (∃ (s : State) (n : Fin 256), s.dev.coreOn = true) ∧
    (∃ (s : State) (n : Fin 256) (at_ : Nat) (injFail : Bool), s.dev.coreOn = true ∧ ((s.dev.isle n.val).istate ≠ 1 ∨ (curSlot s.dev (s.dev.isle n.val)).valid = false)) ∧
    (∃ (s : State) (n : Fin 256) (at_ : Nat), s.dev.coreOn = true ∧ (s.dev.isle n.val).istate = 1 ∧ (s.dev.isle n.val).gone = false ∧ (curSlot s.dev (s.dev.isle n.val)).valid = true) ∧
    (∃ (s : State) (n : Fin 256) (at_ : Nat), s.dev.coreOn = true ∧ (s.dev.isle n.val).istate = 1 ∧ (s.dev.isle n.val).gone = false ∧ (curSlot s.dev (s.dev.isle n.val)).valid = true) :=
  ⟨⟨stIsle 1, 5, by decide +kernel⟩,
   ⟨stIsle 4, 5, by decide +kernel⟩,
   ⟨stStall, 5, 7600, by decide +kernel⟩,
   ⟨stIsle 1, 5, 0, by decide +kernel⟩,
   ⟨stRun, 1, by decide +kernel⟩,
   ⟨stIsle 1, 5, 0, false, by decide +kernel⟩,
   ⟨stIsleValid, 5, 0, by decide +kernel⟩,
   ⟨stIsleValid, 5, 0, by decide +kernel⟩⟩

theorem wit_PlansAreStagedLoadedAndCommitted :
    (∃ (s : State) (o : Origin) (bytes : List Byte) (i : PlanImage), s.dev.coreOn = true ∧ 2 ≤ s.dev.mode ∧ s.dev.mode ≤ 5 ∧ (s.dev.red.paired && s.dev.mode = 3) = false ∧ s.dev.plan.state ≠ 3 ∧ stageCode s.dev i = 0) ∧
    (∃ (s : State) (o : Origin) (bytes : List Byte) (i : PlanImage), s.dev.coreOn = true ∧ 2 ≤ s.dev.mode ∧ s.dev.mode ≤ 5 ∧ (s.dev.red.paired && s.dev.mode = 3) = false ∧ s.dev.plan.state ≠ 3 ∧ stageCode s.dev i ≠ 0) ∧
    (∃ (s : State) (o : Origin) (bytes : List Byte) (i : PlanImage), s.dev.coreOn = true ∧ 2 ≤ s.dev.mode ∧ s.dev.mode ≤ 5 ∧ s.dev.plan.state = 3) ∧
    (∃ (s : State) (n : Fin 256) (ok : Bool) (p : Plan), s.dev.coreOn = true ∧ s.dev.plan.staged = some p ∧ (s.dev.isle n.val).loading = true) ∧
    (∃ (s : State), s.dev.coreOn = true ∧ (s.dev.plan.state = 1 ∨ s.dev.plan.state = 2)) ∧
    (∃ (s : State), s.dev.coreOn = true ∧ (s.dev.plan.state = 0 ∨ s.dev.plan.state = 3)) ∧
    (∃ (s : State), s.dev.coreOn = true ∧ 2 ≤ s.dev.mode ∧ s.dev.mode ≤ 5 ∧ (s.dev.plan.state = 1 ∨ s.dev.plan.state = 3)) ∧
    (∃ (s : State), s.dev.coreOn = true ∧ 2 ≤ s.dev.mode ∧ s.dev.mode ≤ 5 ∧ (s.dev.plan.state = 0 ∨ s.dev.plan.state = 2) ∧ heldPlan (s.dev.f ⟨0x4110001C, 0, 32⟩) s.dev = none) ∧
    (∃ (s : State) (kc : Nat), s.dev.coreOn = true ∧ kc = s.dev.f ⟨0x41100010, 0, 32⟩ + 2 ^ 32 * s.dev.f ⟨0x41100014, 0, 16⟩ ∧ (commitRefusal (s.dev.f ⟨0x4110001C, 0, 32⟩) kc s.dev).1 = 0) :=
  ⟨⟨stRun, ⟨2, 0⟩, [], ⟨true, [], [], []⟩, by decide +kernel⟩,
   ⟨stRun, ⟨2, 0⟩, [], ⟨false, [], [], []⟩, by decide +kernel⟩,
   ⟨stCommitting, ⟨2, 0⟩, [], ⟨true, [], [], []⟩, by decide +kernel⟩,
   ⟨stLoading, 5, true, ⟨1, [], [], []⟩, by decide +kernel⟩,
   ⟨stLoading, by decide +kernel⟩,
   ⟨stRun, by decide +kernel⟩,
   ⟨stLoading, by decide +kernel⟩,
   ⟨stRun, by decide +kernel⟩,
   ⟨stReady, 0, by decide +kernel⟩⟩

theorem wit_ChannelChecksDeclare :
    (∃ (s : State) (n : Fin 256) (c : Fin 8) (at_ : Nat), s.dev.coreOn = true ∧ ((liveBank (s.dev.isle n.val)).chans.getD c.val {}).act ≠ 2 ∧ ((liveBank (s.dev.isle n.val)).chans.getD c.val {}).persist ≤ (tget (fun _ => ({} : ChanU)) (s.dev.isle n.val).chans c.val).viol ∧ 0 < (tget (fun _ => ({} : ChanU)) (s.dev.isle n.val).chans c.val).viol ∧ (tget (fun _ => ({} : ChanU)) (s.dev.isle n.val).chans c.val).range = false) ∧
    (∃ (s : State) (n : Fin 256) (c : Fin 8) (at_ : Nat), s.dev.coreOn = true ∧ ((liveBank (s.dev.isle n.val)).chans.getD c.val {}).act ≠ 2 ∧ (tget (fun _ => ({} : ChanU)) (s.dev.isle n.val).chans c.val).viol < ((liveBank (s.dev.isle n.val)).chans.getD c.val {}).persist) ∧
    (∃ (s : State) (n : Fin 256) (c : Fin 8) (at_ : Nat), s.dev.coreOn = true ∧ ((liveBank (s.dev.isle n.val)).chans.getD c.val {}).fact ≠ 2 ∧ ((liveBank (s.dev.isle n.val)).chans.getD c.val {}).freeze ≠ 0 ∧ ((liveBank (s.dev.isle n.val)).chans.getD c.val {}).freeze ≤ (tget (fun _ => ({} : ChanU)) (s.dev.isle n.val).chans c.val).same ∧ (tget (fun _ => ({} : ChanU)) (s.dev.isle n.val).chans c.val).stale = false) ∧
    (∃ (s : State) (n : Fin 256) (c : Fin 8) (at_ : Nat), s.dev.coreOn = true ∧ (((liveBank (s.dev.isle n.val)).chans.getD c.val {}).freeze = 0 ∨ (tget (fun _ => ({} : ChanU)) (s.dev.isle n.val).chans c.val).same < ((liveBank (s.dev.isle n.val)).chans.getD c.val {}).freeze)) :=
  ⟨⟨stChan, 5, 7, 0, by decide +kernel⟩,
   ⟨stIsle 1, 5, 0, 0, by decide +kernel⟩,
   ⟨stChan, 5, 7, 0, by decide +kernel⟩,
   ⟨stIsle 1, 5, 0, 0, by decide +kernel⟩⟩

theorem wit_NodeDeclarationsAct :
    (∃ (s : State) (n : Fin 256) (j : Fin 16) (at_ : Nat), s.dev.coreOn = true ∧ ((liveBank (s.dev.isle n.val)).nodes.getD j.val {}).typ = 10 ∧ paramAt s.dev (s.dev.isle n.val) (((liveBank (s.dev.isle n.val)).nodes.getD j.val {}).par + 2) ≠ 0 ∧ paramAt s.dev (s.dev.isle n.val) (((liveBank (s.dev.isle n.val)).nodes.getD j.val {}).par + 2) ≤ lineN (tget (fun _ => 0) (s.dev.isle n.val).words (((liveBank (s.dev.isle n.val)).nodes.getD j.val {}).st + 1)) 16 16) ∧
    (∃ (s : State) (n : Fin 256) (j : Fin 16) (at_ : Nat), s.dev.coreOn = true ∧ (((liveBank (s.dev.isle n.val)).nodes.getD j.val {}).typ ≠ 10 ∨ lineN (tget (fun _ => 0) (s.dev.isle n.val).words (((liveBank (s.dev.isle n.val)).nodes.getD j.val {}).st + 1)) 16 16 < paramAt s.dev (s.dev.isle n.val) (((liveBank (s.dev.isle n.val)).nodes.getD j.val {}).par + 2))) ∧
    (∃ (s : State) (n : Fin 256) (j : Fin 16) (at_ : Nat), s.dev.coreOn = true ∧ ((liveBank (s.dev.isle n.val)).nodes.getD j.val {}).typ = 12 ∧ (tget (fun _ => ({} : NodeU)) (s.dev.isle n.val).nodes j.val).stale = false ∧ (runStrr s.dev (s.dev.isle n.val) ((liveBank (s.dev.isle n.val)).nodes.getD j.val {}) (tget (fun _ => ({} : NodeU)) (s.dev.isle n.val).nodes j.val)).flag = true) ∧
    (∃ (s : State) (n : Fin 256) (j : Fin 16) (at_ : Nat), s.dev.coreOn = true ∧ (((liveBank (s.dev.isle n.val)).nodes.getD j.val {}).typ ≠ 12 ∨ (tget (fun _ => ({} : NodeU)) (s.dev.isle n.val).nodes j.val).stale = true)) :=
  ⟨⟨stOsc, 5, 0, 0, by decide +kernel⟩,
   ⟨stIsle 1, 5, 0, 0, by decide +kernel⟩,
   ⟨stStrr, 5, 0, 0, by decide +kernel⟩,
   ⟨stIsle 1, 5, 0, 0, by decide +kernel⟩⟩

theorem wit_EdgeFormersNeverOverlap :
    (∃ (s : State) (n : Fin 256) (w : Word) (f : Nat), s.dev.coreOn = true ∧ ovrLock s.dev = false ∧ (s.dev.mode = 2 ∨ ((s.dev.isle n.val).entry.role = 1 ∧ (s.dev.str (s.dev.isle n.val).entry.string).sstate = 0))) ∧
    (∃ (s : State) (n : Fin 256) (w : Word) (f : Nat), s.dev.coreOn = true ∧ (ovrLock s.dev = true ∨ (s.dev.mode ≠ 2 ∧ (s.dev.isle n.val).entry.role = 1 ∧ (s.dev.str (s.dev.isle n.val).entry.string).sstate ≠ 0))) :=
  ⟨⟨stMode 2, 5, 4, 0, by decide +kernel⟩,
   ⟨stCellRun, 5, 4, 0, by decide +kernel⟩⟩

theorem wit_StringCommandsFollowTableBal2 :
    (∃ (s : State) (x : Fin 64), s.dev.coreOn = true ∧ (s.dev.str x.val).held = true ∧ (s.dev.str x.val).cmds = [] ∧ (split (s.dev.str x.val) = false ∨ isHead (s.dev.str x.val) = true) ∧ (s.dev.str x.val).sstate = 3) ∧
    (∃ (s : State) (x : Fin 64) (hops : Nat) (others : Bool), s.dev.coreOn = true ∧ (s.dev.str x.val).held = true ∧ (s.dev.str x.val).cmds = [] ∧ split (s.dev.str x.val) = false ∧ (s.dev.str x.val).sstate = 0 ∧ s.dev.mode = 4 ∧ (∀ n ∈ s.dev.cells x.val, haltStands (s.dev.isle n).entry.ring (s.dev.isle n).entry.node s.dev = false) ∧ (keptExcl x.val s.dev).length < (s.dev.str x.val).defn.variants.length) ∧
    (∃ (s : State) (x : Fin 64) (others : Bool), s.dev.coreOn = true ∧ (s.dev.str x.val).held = true ∧ (s.dev.str x.val).cmds = [] ∧ split (s.dev.str x.val) = false ∧ (s.dev.str x.val).sstate = 1 ∧ (s.dev.str x.val).preDone = true) ∧
    (∃ (s : State) (x : Fin 64), s.dev.coreOn = true ∧ (s.dev.str x.val).held = true ∧ (s.dev.str x.val).cmds = [] ∧ (split (s.dev.str x.val) = false ∨ isHead (s.dev.str x.val) = true) ∧ ((s.dev.str x.val).sstate = 1 ∨ (s.dev.str x.val).sstate = 2)) ∧
    (∃ (s : State) (x : Fin 64), s.dev.coreOn = true ∧ cmdAllowed x.val 1 true s.dev = false) ∧
    (∃ (s : State) (x : Fin 64) (hops : Nat) (others : Bool), s.dev.coreOn = true ∧ cmdAllowed x.val 2 others s.dev = false ∧ hops ≤ 3) ∧
    (∃ (s : State) (x : Fin 64) (others : Bool), s.dev.coreOn = true ∧ cmdAllowed x.val 3 others s.dev = false) ∧
    (∃ (s : State) (x : Fin 64), s.dev.coreOn = true ∧ cmdAllowed x.val 4 true s.dev = false) ∧
    (∃ (s : State) (x : Fin 64) (hops : Nat) (others : Bool), s.dev.coreOn = true ∧ split (s.dev.str x.val) = true ∧ 3 < hops) :=
  ⟨⟨stString 3, 0, by decide +kernel⟩,
   ⟨stString 0, 0, 0, false, by decide +kernel⟩,
   ⟨stString 1, 0, false, by decide +kernel⟩,
   ⟨stString 2, 0, by decide +kernel⟩,
   ⟨stRun, 63, by decide +kernel⟩,
   ⟨stRun, 63, 0, false, by decide +kernel⟩,
   ⟨stRun, 63, false, by decide +kernel⟩,
   ⟨stRun, 63, by decide +kernel⟩,
   ⟨stSplit, 0, 4, true, by decide +kernel⟩⟩

theorem wit_FaultsAreQueuedAndReactMostSeverely :
    (∃ (s : State) (x : Fin 64) (pos : BitVec 9) (at_ : Nat), s.dev.coreOn = true ∧ (s.dev.str x.val).held = true ∧ split (s.dev.str x.val) = false ∧ pos.toNat < (s.dev.str x.val).defn.order.length ∧ ((s.dev.str x.val).fq.any fun e => e.cause = 8 && e.pos = pos.toNat) = false ∧ (s.dev.str x.val).fq.length < 16) ∧
    (∃ (s : State) (x : Fin 64) (pos : BitVec 9) (at_ : Nat), s.dev.coreOn = true ∧ (s.dev.str x.val).held = true ∧ pos.toNat < (s.dev.str x.val).defn.order.length ∧ ((s.dev.str x.val).fq.any fun e => e.cause = 8 && e.pos = pos.toNat) = true) ∧
    (∃ (s : State) (x : Fin 64) (pos : BitVec 9) (at_ : Nat), s.dev.coreOn = true ∧ (s.dev.str x.val).held = true ∧ split (s.dev.str x.val) = false ∧ pos.toNat < (s.dev.str x.val).defn.order.length ∧ ((s.dev.str x.val).fq.any fun e => e.cause = 8 && e.pos = pos.toNat) = false ∧ 16 ≤ (s.dev.str x.val).fq.length ∧ (s.dev.str x.val).fqOvf = none) ∧
    (∃ (s : State) (x : Fin 64) (pos : BitVec 9) (at_ : Nat), s.dev.coreOn = true ∧ (s.dev.str x.val).defn.order.length ≤ pos.toNat) :=
  ⟨⟨stString 2, 0, 2, 5, by decide +kernel⟩,
   ⟨stQueued 1, 0, 0, 5, by decide +kernel⟩,
   ⟨stQueued 16, 0, 2, 5, by decide +kernel⟩,
   ⟨stString 2, 0, 3, 5, by decide +kernel⟩⟩

theorem wit_SorterOrdersAndDelivers :
    (∃ (s : State) (x : Fin 64) (at_ : Nat), s.dev.coreOn = true ∧ (s.dev.str x.val).held = true ∧ (s.dev.str x.val).list = none ∧ split (s.dev.str x.val) = false ∧ s.dev.f (srtTb x.val) ≤ at_) ∧
    (∃ (s : State) (x : Fin 64) (at_ : Nat), s.dev.coreOn = true ∧ ((s.dev.str x.val).list.isSome = true ∨ at_ < s.dev.f (srtTb x.val))) ∧
    (∃ (s : State) (x : Fin 64) (at_ : Nat) (l : PartList), s.dev.coreOn = true ∧ (s.dev.str x.val).list = some l ∧ (s.dev.str x.val).delivered = false ∧ otherSegs (s.dev.str x.val) = [] ∧ (∀ n ∈ s.dev.cells x.val, (s.dev.isle n).istate ≠ 3)) :=
  ⟨⟨stCellRun, 0, 4000, by decide +kernel⟩,
   ⟨stBarred, 0, 4000, by decide +kernel⟩,
   ⟨stBarred, 0, 680, ⟨0, [], 7, 0, 0, {}⟩, by decide +kernel⟩⟩

theorem wit_PrechargeEnds :
    (∃ (s : State) (x : Fin 64), s.dev.coreOn = true ∧ (s.dev.str x.val).sstate = 1 ∧ 16 ≤ (s.dev.str x.val).preRun) ∧
    (∃ (s : State) (x : Fin 64), s.dev.coreOn = true ∧ ((s.dev.str x.val).sstate ≠ 1 ∨ (s.dev.str x.val).preRun < 16)) ∧
    (∃ (s : State) (x : Fin 64) (at_ : Nat), s.dev.coreOn = true ∧ (s.dev.str x.val).sstate = 1 ∧ (s.dev.str x.val).preDone = false ∧ (s.dev.str x.val).preTick + 4000000 * s.dev.f ⟨0x42301030 + 0x40 * x.val, 16, 16⟩ ≤ s.dev.tide.abs + at_) ∧
    (∃ (s : State) (x : Fin 64) (at_ : Nat), s.dev.coreOn = true ∧ ((s.dev.str x.val).sstate ≠ 1 ∨ (s.dev.str x.val).preDone = true ∨ s.dev.tide.abs + at_ < (s.dev.str x.val).preTick + 4000000 * s.dev.f ⟨0x42301030 + 0x40 * x.val, 16, 16⟩)) ∧
    (∃ (s : State) (x : Fin 64) (r : RespreadU), s.dev.coreOn = true ∧ (s.dev.str x.val).respread = some r ∧ (r.waiting.all fun n => (s.dev.str x.val).excl.contains (s.dev.isle n).entry.gPos) = true) ∧
    (∃ (s : State) (x : Fin 64) (r : RespreadU), s.dev.coreOn = true ∧ (s.dev.str x.val).respread = some r ∧ (r.waiting.all fun n => (s.dev.str x.val).excl.contains (s.dev.isle n).entry.gPos) = false) :=
  ⟨⟨stPre 16, 0, by decide +kernel⟩,
   ⟨stPre 15, 0, by decide +kernel⟩,
   ⟨stPre 15, 0, 2000000000, by decide +kernel⟩,
   ⟨stPre 15, 0, 1999999999, by decide +kernel⟩,
   ⟨stRespread [], 0, ⟨7, []⟩, by decide +kernel⟩,
   ⟨stRespread [5], 0, ⟨7, [5]⟩, by decide +kernel⟩⟩

theorem wit_CausewayMessagesApply :
    (∃ (s : State) (h : CwHead) (part parts : Fin 4) (tot : CwTot) (cells : List CellKey) (at_ : Nat), s.dev.coreOn = true ∧ cwNames h s.dev = false) ∧
    (∃ (s : State) (h : CwHead) (tot : CwTot) (cells : List CellKey) (at_ : Nat), s.dev.coreOn = true ∧ cwNames h s.dev = true ∧ cwMatches h s.dev = true ∧ h.tick = s.dev.tide.k ∧ (s.dev.str h.string).cwPast = false ∧ at_ ≤ 2 * s.dev.tc / 5 ∧ h.seg ∈ otherSegs (s.dev.str h.string)) ∧
    (∃ (s : State) (h : CwHead) (sstate : Fin 4) (fields integ : List Int), s.dev.coreOn = true ∧ cwNames h s.dev = true ∧ cwMatches h s.dev = true ∧ isHead (s.dev.str h.string) = false ∧ ((s.dev.str h.string).words.any fun w => h.tick ≤ w.tick) = false) ∧
    (∃ (s : State) (h : CwHead) (cause : BitVec 8) (pos : BitVec 16) (stamp at_ : Nat), s.dev.coreOn = true ∧ cwNames h s.dev = true ∧ cwMatches h s.dev = true) ∧
    (∃ (s : State) (h : CwHead) (cause : BitVec 8) (pos : BitVec 16) (stamp at_ : Nat), s.dev.coreOn = true ∧ cwNames h s.dev = true ∧ cwMatches h s.dev = true ∧ s.dev.tide.k < (if 2 * stamp < s.dev.tc then h.tick + 1 else h.tick + 2) ∧ (s.dev.str h.string).anns = []) ∧
    (∃ (s : State) (x i : Nat), s.dev.coreOn = true ∧ x ∈ s.dev.heldStrings ∧ split (s.dev.str x) = true ∧ (s.dev.str x).cwPast = false ∧ i ∈ otherSegs (s.dev.str x)) ∧
    (∃ (s : State) (x : Fin 64) (at_ i : Nat), s.dev.coreOn = true ∧ (s.dev.str x.val).held = true ∧ i ∈ otherSegs (s.dev.str x.val) ∧ s.dev.f ⟨0x42301034 + 0x40 * x.val, 16, 4⟩ ≤ (segOf (s.dev.str x.val) i).missing ∧ 1 ≤ (segOf (s.dev.str x.val) i).missing ∧ (s.dev.str x.val).fq = []) :=
  ⟨⟨stRun, ⟨0, 1, 1, 7, 0, 0⟩, 0, 1, {}, [], 0, by decide +kernel⟩,
   ⟨stSplit, hdSplit, {}, [], 0, by decide +kernel⟩,
   ⟨stSplit1, hdSplit1, 2, [1], [], by decide +kernel⟩,
   ⟨stSplit, hdSplit, 0x11, 0x1FF, 0, 0, by decide +kernel⟩,
   ⟨stSplit, hdSplit, 3, 1, 4000, 0, by decide +kernel⟩,
   ⟨stSplit, 0, 1, by decide +kernel⟩,
   ⟨stSplitLost, 0, 3200, 1, by decide +kernel⟩⟩

theorem wit_LanesComeUp :
    (∃ (s : State) (n : Fin 24), s.dev.laneOn n = true ∧ s.dev.f ⟨0x42200004 + 0x400 * n.val, 0, 4⟩ = 1 ∧ modAbsent n.val s.dev = false ∧ (n.val < 16 ∨ s.dev.f ⟨0x42200000 + 0x400 * n.val, 13, 1⟩ = 0)) ∧
    (∃ (s : State) (n : Fin 24), s.dev.laneOn n = true ∧ 16 ≤ n.val ∧ s.dev.f ⟨0x42200000 + 0x400 * n.val, 13, 1⟩ = 1) ∧
    (∃ (s : State) (n : Fin 24), s.dev.laneOn n = true ∧ 16 ≤ n.val ∧ s.dev.f ⟨0x42200000 + 0x400 * n.val, 13, 1⟩ = 1 ∧ (s.dev.lane n.val).amp = false) ∧
    (∃ (s : State) (n : Fin 24), s.dev.laneOn n = true ∧ s.dev.f ⟨0x42200004 + 0x400 * n.val, 0, 4⟩ = 2 ∧ (s.dev.lane n.val).held = false) ∧
    (∃ (s : State) (n : Fin 24), s.dev.laneOn n = true ∧ (s.dev.f ⟨0x42200004 + 0x400 * n.val, 0, 4⟩ ≠ 2 ∨ (s.dev.lane n.val).held = true)) ∧
    (∃ (s : State) (n : Fin 24), s.dev.laneOn n = true ∧ s.dev.f ⟨0x42200004 + 0x400 * n.val, 0, 4⟩ = 3 ∧ (16 ≤ n.val ∨ (s.dev.lane n.val).wasUp = false)) ∧
    (∃ (s : State) (n : Fin 24), s.dev.laneOn n = true ∧ s.dev.f ⟨0x42200004 + 0x400 * n.val, 0, 4⟩ = 3 ∧ n.val < 16 ∧ (s.dev.lane n.val).wasUp = true) ∧
    (∃ (s : State) (n : Fin 24) (inverted : Bool), s.dev.laneOn n = true ∧ s.dev.f ⟨0x42200004 + 0x400 * n.val, 0, 4⟩ = 4 ∧ s.dev.f ⟨0x42200000 + 0x400 * n.val, 6, 2⟩ = 0) ∧
    (∃ (s : State) (p : Fin 4) (id0 : Bool), s.dev.laneOn (16 + 2 * p.val) = true ∧ s.dev.f ⟨0x42200004 + 0x400 * (16 + 2 * p.val + 0), 0, 4⟩ = 4 ∧ s.dev.f ⟨0x42200004 + 0x400 * (16 + 2 * p.val + 1), 0, 4⟩ = 4 ∧ (s.dev.lane (16 + 2 * p.val + 0)).ready = true ∧ (s.dev.lane (16 + 2 * p.val + 1)).ready = true ∧ s.dev.f ⟨0x42204000 + 0x800 * p.val, 8, 2⟩ = 0 ∧ s.dev.f ⟨0x42204000 + 0x800 * p.val, 10, 2⟩ = 0 ∧ s.dev.f ⟨0x42204400 + 0x800 * p.val, 10, 2⟩ = 0) ∧
    (∃ (s : State) (p : Fin 4) (id : Bool), s.dev.laneOn (16 + 2 * p.val) = true) ∧
    (∃ (s : State) (r : Fin 16), s.dev.laneOn r = true ∧ s.dev.f ⟨0x42200000 + 0x400 * r.val, 10, 2⟩ = 0 ∧ s.dev.f ⟨0x42200004 + 0x400 * r.val, 0, 4⟩ = 4 ∧ (s.dev.lane r.val).ready = true) ∧
    (∃ (s : State) (n : Fin 24), s.dev.laneOn n = true ∧ 16 ≤ n.val ∧ (s.dev.f ⟨0x42200004 + 0x400 * n.val, 0, 4⟩ = 5 ∨ s.dev.f ⟨0x42200004 + 0x400 * n.val, 0, 4⟩ = 6)) ∧
    (∃ (s : State) (p : Fin 4) (skew : Nat) (later : Bool), s.dev.laneOn (16 + 2 * p.val) = true ∧ s.dev.f ⟨0x42200004 + 0x400 * (16 + 2 * p.val + 0), 0, 4⟩ = 5 ∧ s.dev.f ⟨0x42200004 + 0x400 * (16 + 2 * p.val + 1), 0, 4⟩ = 5 ∧ (s.dev.lane (16 + 2 * p.val + 0)).marker = true ∧ (s.dev.lane (16 + 2 * p.val + 1)).marker = true ∧ skew ≤ 31 * 66) ∧
    (∃ (s : State) (p : Fin 4) (skew : Nat) (later : Bool), s.dev.laneOn (16 + 2 * p.val) = true ∧ s.dev.f ⟨0x42200004 + 0x400 * (16 + 2 * p.val + 0), 0, 4⟩ = 5 ∧ s.dev.f ⟨0x42200004 + 0x400 * (16 + 2 * p.val + 1), 0, 4⟩ = 5 ∧ (s.dev.lane (16 + 2 * p.val + 0)).marker = true ∧ (s.dev.lane (16 + 2 * p.val + 1)).marker = true ∧ 31 * 66 < skew) :=
  ⟨⟨stLanes [5] 1 {}, 5, by decide +kernel⟩,
   ⟨stPinLos 0, 20, by decide +kernel⟩,
   ⟨stPinLos 1, 20, by decide +kernel⟩,
   ⟨stLanes [5] 2 {}, 5, by decide +kernel⟩,
   ⟨stLanes [5] 3 {}, 5, by decide +kernel⟩,
   ⟨stLanes [5] 3 {}, 5, by decide +kernel⟩,
   ⟨stLanes [5] 3 { wasUp := true }, 5, by decide +kernel⟩,
   ⟨stLanes [5] 4 {}, 5, true, by decide +kernel⟩,
   ⟨stLanes [18, 19] 4 { ready := true }, 1, true, by decide +kernel⟩,
   ⟨stRun, 1, true, by decide +kernel⟩,
   ⟨stLanes [5] 4 { ready := true }, 5, by decide +kernel⟩,
   ⟨stLanes [18] 5 {}, 18, by decide +kernel⟩,
   ⟨stLanes [18, 19] 5 { marker := true }, 1, 2046, true, by decide +kernel⟩,
   ⟨stLanes [18, 19] 5 { marker := true }, 1, 2047, false, by decide +kernel⟩⟩

theorem wit_LaneLossesFollowTableLan7 :
    (∃ (s : State) (n : Fin 24), s.dev.laneOn n = true ∧ n.val < 16 ∧ s.dev.f ⟨0x42200004 + 0x400 * n.val, 12, 1⟩ = 0 ∧ s.dev.f ⟨0x42200004 + 0x400 * n.val, 0, 4⟩ ≠ 0 ∧ s.dev.f ⟨0x42200004 + 0x400 * n.val, 0, 4⟩ ≠ 7 ∧ s.dev.f ⟨0x42200004 + 0x400 * n.val, 0, 4⟩ ≠ 8 ∧ s.dev.f ⟨0x42200004 + 0x400 * n.val, 0, 4⟩ ≠ 9 ∧ (s.dev.lane n.val).eidle = 0) ∧
    (∃ (s : State) (n : Fin 24) (m : Nat), s.dev.laneOn n = true ∧ m ∈ bonded n.val ∧ 16 ≤ n.val ∧ s.dev.f ⟨0x42200004 + 0x400 * n.val, 12, 1⟩ = 0 ∧ s.dev.f ⟨0x42200000 + 0x400 * m, 10, 2⟩ = 0 ∧ s.dev.f ⟨0x42200004 + 0x400 * n.val, 0, 4⟩ ≠ 0 ∧ s.dev.f ⟨0x42200004 + 0x400 * n.val, 0, 4⟩ ≠ 7 ∧ s.dev.f ⟨0x42200004 + 0x400 * n.val, 0, 4⟩ ≠ 8 ∧ s.dev.f ⟨0x42200004 + 0x400 * n.val, 0, 4⟩ ≠ 9 ∧ (s.dev.lane n.val).eidle = 0 ∧ s.dev.f ⟨0x42200004 + 0x400 * m, 0, 4⟩ ≠ 0 ∧ s.dev.f ⟨0x42200004 + 0x400 * m, 0, 4⟩ ≠ 9) ∧
    (∃ (s : State) (n : Fin 24), s.dev.laneOn n = true ∧ s.dev.f ⟨0x42200004 + 0x400 * n.val, 12, 1⟩ = 0 ∧ s.dev.f ⟨0x42200004 + 0x400 * n.val, 0, 4⟩ ≠ 0 ∧ s.dev.f ⟨0x42200004 + 0x400 * n.val, 0, 4⟩ ≠ 7 ∧ s.dev.f ⟨0x42200004 + 0x400 * n.val, 0, 4⟩ ≠ 8 ∧ s.dev.f ⟨0x42200004 + 0x400 * n.val, 0, 4⟩ ≠ 9 ∧ (s.dev.lane n.val).eidle ≠ 0) ∧
    (∃ (s : State) (n : Fin 24), s.dev.laneOn n = true ∧ n.val < 16 ∧ 3 ≤ s.dev.f ⟨0x42200004 + 0x400 * n.val, 0, 4⟩ ∧ s.dev.f ⟨0x42200004 + 0x400 * n.val, 0, 4⟩ ≤ 6) ∧
    (∃ (s : State) (n : Fin 24), s.dev.laneOn n = true ∧ n.val < 16 ∧ 4 ≤ s.dev.f ⟨0x42200004 + 0x400 * n.val, 0, 4⟩ ∧ s.dev.f ⟨0x42200004 + 0x400 * n.val, 0, 4⟩ ≤ 6) ∧
    (∃ (s : State) (n : Fin 24), s.dev.laneOn n = true ∧ (s.dev.f ⟨0x42200004 + 0x400 * n.val, 0, 4⟩ < 4 ∨ 6 < s.dev.f ⟨0x42200004 + 0x400 * n.val, 0, 4⟩)) ∧
    (∃ (s : State) (n : Fin 24), s.dev.laneOn n = true ∧ 16 ≤ n.val ∧ (s.dev.f ⟨0x42200004 + 0x400 * n.val, 0, 4⟩ = 5 ∨ s.dev.f ⟨0x42200004 + 0x400 * n.val, 0, 4⟩ = 6) ∧ (s.dev.lane n.val).marker = true ∧ s.dev.f ⟨0x42200000 + 0x400 * n.val, 10, 2⟩ = 0) ∧
    (∃ (s : State) (n : Fin 24) (elapsed : Nat), s.dev.laneOn n = true ∧ n.val < 16 ∧ 3 ≤ s.dev.f ⟨0x42200004 + 0x400 * n.val, 0, 4⟩ ∧ s.dev.f ⟨0x42200004 + 0x400 * n.val, 0, 4⟩ ≤ 5 ∧ s.dev.f ⟨0x42200008 + 0x400 * n.val, 0, 7⟩ ≤ elapsed ∧ s.dev.f ⟨0x42200000 + 0x400 * n.val, 1, 1⟩ = 1) ∧
    (∃ (s : State) (n : Fin 24) (elapsed : Nat), s.dev.laneOn n = true ∧ n.val < 16 ∧ 3 ≤ s.dev.f ⟨0x42200004 + 0x400 * n.val, 0, 4⟩ ∧ s.dev.f ⟨0x42200004 + 0x400 * n.val, 0, 4⟩ ≤ 5 ∧ s.dev.f ⟨0x42200008 + 0x400 * n.val, 0, 7⟩ ≤ elapsed ∧ s.dev.f ⟨0x42200000 + 0x400 * n.val, 1, 1⟩ = 0) ∧
    (∃ (s : State) (n : Fin 24) (elapsed : Nat), s.dev.laneOn n = true ∧ (s.dev.f ⟨0x42200004 + 0x400 * n.val, 0, 4⟩ < 3 ∨ 5 < s.dev.f ⟨0x42200004 + 0x400 * n.val, 0, 4⟩ ∨ elapsed < s.dev.f ⟨0x42200008 + 0x400 * n.val, 0, 7⟩)) ∧
    (∃ (s : State) (n : Fin 24) (hdr : Fin 4) (x : BitVec 64) (slip : Int) (at_ : Nat), s.dev.laneOn n = true ∧ (hdr.val = 0 ∨ hdr.val = 3) ∧ 3 ≤ s.dev.f ⟨0x42200004 + 0x400 * n.val, 0, 4⟩ ∧ s.dev.f ⟨0x42200004 + 0x400 * n.val, 0, 4⟩ ≤ 6) ∧
    (∃ (s : State) (n : Fin 24) (x : BitVec 64) (at_ : Nat), s.dev.laneOn n = true ∧ s.dev.f ⟨0x42200004 + 0x400 * n.val, 0, 4⟩ = 6 ∧ n.val < 16 ∧ s.dev.f ⟨0x42200004 + 0x400 * n.val, 10, 1⟩ = 0 ∧ (s.dev.lane n.val).skip = false ∧ (s.dev.lane n.val).bad = 0 ∧ (s.dev.lane n.val).fill ≤ 16 ∧ s.dev.f ⟨0x4220001C + 0x400 * n.val, 3, 1⟩ = 0) ∧
    (∃ (s : State) (n : Fin 24) (x : BitVec 64) (at_ : Nat), s.dev.laneOn n = true ∧ s.dev.f ⟨0x42200004 + 0x400 * n.val, 0, 4⟩ = 6 ∧ n.val < 16 ∧ s.dev.f ⟨0x42200004 + 0x400 * n.val, 10, 1⟩ = 0 ∧ (s.dev.lane n.val).skip = false ∧ (s.dev.lane n.val).bad = 0 ∧ (s.dev.lane n.val).fill ≤ 16 ∧ payByte x 0 ≠ 0x2D ∧ payByte x 0 ≠ 0x55 ∧ payByte (descramble (s.dev.lane n.val).line x) 0 = 0x78) ∧
    (∃ (s : State) (n : Fin 24) (x : BitVec 64) (at_ : Nat), s.dev.laneOn n = true ∧ s.dev.f ⟨0x42200004 + 0x400 * n.val, 0, 4⟩ = 6 ∧ n.val < 16 ∧ s.dev.f ⟨0x42200004 + 0x400 * n.val, 10, 1⟩ = 0 ∧ (s.dev.lane n.val).skip = false ∧ (s.dev.lane n.val).bad = 0 ∧ (s.dev.lane n.val).fill ≤ 16 ∧ payByte x 0 ≠ 0x2D ∧ payByte x 0 ≠ 0x55 ∧ payByte (descramble (s.dev.lane n.val).line x) 0 = 0x87 ∧ (s.dev.lane n.val).inFrame = true) ∧
    (∃ (s : State) (n : Fin 24) (x : BitVec 64) (slip : Int) (at_ : Nat), s.dev.laneOn n = true ∧ 3 ≤ s.dev.f ⟨0x42200004 + 0x400 * n.val, 0, 4⟩ ∧ s.dev.f ⟨0x42200004 + 0x400 * n.val, 0, 4⟩ ≤ 4 ∧ s.dev.f ⟨0x42200004 + 0x400 * n.val, 10, 1⟩ = 0 ∧ (s.dev.lane n.val).bad = 0 ∧ x = trainPay true true 0) ∧
    (∃ (s : State) (n : Fin 24) (x : BitVec 64) (slip : Int) (at_ : Nat), s.dev.laneOn n = true ∧ s.dev.f ⟨0x42200004 + 0x400 * n.val, 0, 4⟩ = 6 ∧ n.val < 16 ∧ s.dev.f ⟨0x42200004 + 0x400 * n.val, 10, 1⟩ = 0 ∧ (s.dev.lane n.val).bad = 0 ∧ (((s.dev.lane n.val).fill : Int) + slip < 0 ∨ 16 < ((s.dev.lane n.val).fill : Int) + slip)) ∧
    (∃ (s : State) (n : Fin 24) (hdr : Fin 4) (x : BitVec 64) (slip : Int) (at_ : Nat), s.dev.laneOn n = true ∧ s.dev.f ⟨0x4220001C + 0x400 * n.val, 3, 1⟩ = 0 ∧ (s.dev.f ⟨0x42200004 + 0x400 * n.val, 0, 4⟩ < 3 ∨ 6 < s.dev.f ⟨0x42200004 + 0x400 * n.val, 0, 4⟩)) :=
  ⟨⟨stLanes [5] 6 {}, 5, by decide +kernel⟩,
   ⟨stLanes [18, 19] 4 {}, 18, 19, by decide +kernel⟩,
   ⟨stLanes [5] 6 { eidle := 2 }, 5, by decide +kernel⟩,
   ⟨stLanes [5] 6 {}, 5, by decide +kernel⟩,
   ⟨stLanes [5] 4 {}, 5, by decide +kernel⟩,
   ⟨stLanes [5] 7 {}, 5, by decide +kernel⟩,
   ⟨stLanes [18, 19] 5 { marker := true }, 18, by decide +kernel⟩,
   ⟨stLanes [5] 4 {}, 5, 10, by decide +kernel⟩,
   ⟨stNoRetrain, 5, 10, by decide +kernel⟩,
   ⟨stLanes [5] 4 {}, 5, 9, by decide +kernel⟩,
   ⟨stLanes [5] 6 {}, 5, 0, 0, 0, 0, by decide +kernel⟩,
   ⟨stLanes [5] 6 {}, 5, 0x123456789ABCDEF0, 0, by decide +kernel⟩,
   ⟨stLanes [5] 6 {}, 5, (scramble 0 0x78), 0, by decide +kernel⟩,
   ⟨stLanes [5] 6 { inFrame := true, errored := true }, 5, (scramble 0 0x87), 0, by decide +kernel⟩,
   ⟨stLanes [5] 4 {}, 5, (trainPay true true 0), 0, 0, by decide +kernel⟩,
   ⟨stLanes [5] 6 {}, 5, 0, 9, 0, by decide +kernel⟩,
   ⟨stLanes [5] 7 {}, 5, 0, 0, 0, 0, by decide +kernel⟩⟩

theorem wit_LanesIdleAndTest :
    (∃ (s : State) (n : Fin 24) (v : Fin 4), s.dev.laneOn n = true ∧ v.val ≠ 0 ∧ (v.val = 3 ∨ lpmFree n.val s.dev = false ∨ (v.val = 1 ∧ (s.dev.lane n.val).rate = 0))) ∧
    (∃ (s : State) (n : Fin 24) (v : Fin 4), s.dev.laneOn n = true ∧ (v.val = 1 ∨ v.val = 2) ∧ lpmFree n.val s.dev = true ∧ (v.val = 2 ∨ (s.dev.lane n.val).rate ≠ 0) ∧ s.dev.f ⟨0x42200000 + 0x400 * n.val, 10, 2⟩ ≠ v.val) ∧
    (∃ (s : State) (n : Fin 24) (deep : Bool), s.dev.laneOn n = true ∧ s.dev.f ⟨0x42200004 + 0x400 * n.val, 0, 4⟩ = 6) ∧
    (∃ (s : State) (n : Fin 24) (burst : Bool), s.dev.laneOn n = true ∧ s.dev.f ⟨0x42200000 + 0x400 * n.val, 10, 2⟩ = 1 ∧ 5 ≤ s.dev.f ⟨0x42200004 + 0x400 * n.val, 0, 4⟩ ∧ s.dev.f ⟨0x42200004 + 0x400 * n.val, 0, 4⟩ ≠ 7 ∧ s.dev.f ⟨0x42200004 + 0x400 * n.val, 0, 4⟩ ≠ 9 ∧ s.dev.f ⟨0x42200004 + 0x400 * n.val, 8, 2⟩ = 0) ∧
    (∃ (s : State) (n : Fin 24) (host : Bool), s.dev.laneOn n = true ∧ s.dev.f ⟨0x42200004 + 0x400 * n.val, 0, 4⟩ = 7) ∧
    (∃ (s : State) (n : Fin 24), s.dev.laneOn n = true ∧ (s.dev.f ⟨0x42200000 + 0x400 * n.val, 10, 2⟩ = 2 ∨ (s.dev.f ⟨0x42200000 + 0x400 * n.val, 10, 2⟩ = 0 ∧ s.dev.f ⟨0x42200004 + 0x400 * n.val, 0, 4⟩ = 8)) ∧ s.dev.f ⟨0x42200004 + 0x400 * n.val, 0, 4⟩ ≠ 0 ∧ s.dev.f ⟨0x42200004 + 0x400 * n.val, 0, 4⟩ ≠ 6 ∧ s.dev.f ⟨0x42200004 + 0x400 * n.val, 0, 4⟩ ≠ 9) ∧
    (∃ (s : State) (n : Fin 24), s.dev.laneOn n = true ∧ s.dev.mode = 2 ∧ s.dev.f ⟨0x4220001C + 0x400 * n.val, 2, 1⟩ = 0 ∧ s.dev.f ⟨0x42200004 + 0x400 * n.val, 0, 4⟩ ≠ 0) ∧
    (∃ (s : State) (n : Fin 24), s.dev.laneOn n = true ∧ s.dev.mode ≠ 2 ∧ lpmFree n.val s.dev = false ∧ s.dev.f ⟨0x4220001C + 0x400 * n.val, 2, 1⟩ = 0) ∧
    (∃ (s : State) (n : Fin 24) (locked : Bool) (errors : Nat), s.dev.laneOn n = true ∧ s.dev.f ⟨0x4220001C + 0x400 * n.val, 3, 1⟩ = 1) ∧
    (∃ (s : State) (n : Fin 24), s.dev.laneOn n = true ∧ s.dev.f ⟨0x42200004 + 0x400 * n.val, 8, 2⟩ = 2) ∧
    (∃ (s : State) (n : Fin 24), s.dev.laneOn n = true ∧ (s.dev.f ⟨0x42200004 + 0x400 * n.val, 8, 2⟩ = 1 ∨ s.dev.f ⟨0x42200004 + 0x400 * n.val, 8, 2⟩ = 3)) ∧
    (∃ (s : State) (n : Fin 24), s.dev.laneOn n = true ∧ 1 ≤ s.dev.f ⟨0x4220001C + 0x400 * n.val, 11, 5⟩ ∧ s.dev.f ⟨0x4220001C + 0x400 * n.val, 11, 5⟩ ≤ 24) ∧
    (∃ (s : State) (n : Fin 24), s.dev.laneOn n = true ∧ testOk n.val s.dev = true ∧ s.dev.f ⟨0x42200004 + 0x400 * n.val, 0, 4⟩ ≠ 9) ∧
    (∃ (s : State) (n : Fin 24), s.dev.laneOn n = true ∧ testOk n.val s.dev = true ∧ s.dev.f ⟨0x42200004 + 0x400 * n.val, 0, 4⟩ ≠ 9) ∧
    (∃ (s : State) (n : Fin 24), s.dev.laneOn n = true ∧ testOk n.val s.dev = false) :=
  ⟨⟨stRun, 5, 3, by decide +kernel⟩,
   ⟨stLanes [5] 6 {}, 5, 1, by decide +kernel⟩,
   ⟨stLanes [5] 6 {}, 5, true, by decide +kernel⟩,
   ⟨stIdleLane 1 6, 5, false, by decide +kernel⟩,
   ⟨stLanes [5] 7 {}, 5, false, by decide +kernel⟩,
   ⟨stLanes [5] 8 {}, 5, by decide +kernel⟩,
   ⟨stLaneMode 2, 5, by decide +kernel⟩,
   ⟨stCellRun, 2, by decide +kernel⟩,
   ⟨stChecker, 5, true, 7, by decide +kernel⟩,
   ⟨stTx 2, 5, by decide +kernel⟩,
   ⟨stTx 3, 5, by decide +kernel⟩,
   ⟨stChecker, 5, by decide +kernel⟩,
   ⟨stLaneMode 2, 5, by decide +kernel⟩,
   ⟨stLaneMode 2, 5, by decide +kernel⟩,
   ⟨stCellRun, 2, by decide +kernel⟩⟩

theorem wit_LaneSettingsAreChecked :
    (∃ (s : State) (n : Fin 24) (v : Fin 4), s.dev.laneOn n = true ∧ (if n.val < 16 then v.val ≤ 2 else 2 ≤ v.val)) ∧
    (∃ (s : State) (n : Fin 24) (v : Fin 4), s.dev.laneOn n = true ∧ (if n.val < 16 then v.val = 3 else v.val < 2)) ∧
    (∃ (s : State) (n : Fin 24) (v : Word), s.dev.laneOn n = true ∧ fget v 0 4 ≤ 12 ∧ fget v 4 4 ≤ 10 ∧ fget v 8 4 ≤ 8) ∧
    (∃ (s : State) (n : Fin 24) (v : Word), s.dev.laneOn n = true ∧ (12 < fget v 0 4 ∨ 10 < fget v 4 4 ∨ 8 < fget v 8 4)) ∧
    (∃ (s : State) (n : Fin 24), s.dev.laneOn n = true ∧ 16 ≤ n.val ∧ s.dev.f ⟨0x42200034 + 0x400 * n.val, 11, 1⟩ = 0) ∧
    (∃ (s : State) (n : Fin 24), s.dev.laneOn n = true ∧ (n.val < 16 ∨ s.dev.f ⟨0x42200034 + 0x400 * n.val, 11, 1⟩ = 1)) ∧
    (∃ (s : State) (n : Fin 24) (nack : Bool) (data : BitVec 8), s.dev.laneOn n = true ∧ s.dev.f ⟨0x42200034 + 0x400 * n.val, 11, 1⟩ = 1 ∧ s.dev.f ⟨0x42200034 + 0x400 * n.val, 9, 1⟩ = 0) ∧
    (∃ (s : State) (n : Fin 24), s.dev.laneOn n = true ∧ 16 ≤ n.val) ∧
    (∃ (s : State) (n : Fin 24), s.dev.laneOn n = true ∧ n.val < 16) :=
  ⟨⟨stRun, 5, 2, by decide +kernel⟩,
   ⟨stRun, 16, 1, by decide +kernel⟩,
   ⟨stRun, 5, 0x8AC, by decide +kernel⟩,
   ⟨stRun, 23, 0x0D, by decide +kernel⟩,
   ⟨stRun, 16, by decide +kernel⟩,
   ⟨stRun, 15, by decide +kernel⟩,
   ⟨stMod2w, 20, false, 0xAB, by decide +kernel⟩,
   ⟨stRun, 23, by decide +kernel⟩,
   ⟨stRun, 0, by decide +kernel⟩⟩

theorem wit_SampleRecordsReachTheirMailbox :
    (∃ (s : State) (r i : Fin 16) (smp : SampleRec) (at_ n : Nat) (parity : Fin 4), s.dev.ringOn r = true ∧ s.dev.f ⟨0x42000000 + 0x1000 * r.val, 0, 1⟩ = 1 ∧ i.val ≤ s.dev.f ⟨0x42000000 + 0x1000 * r.val, 4, 4⟩ ∧ parity.val = s.dev.tide.k % 4 ∧ isleOf r.val i.val s.dev = some n ∧ at_ < s.dev.window ∧ frameErr r.val s.dev = false ∧ (curSlot s.dev (s.dev.isle n)).valid = false) ∧
    (∃ (s : State) (r i : Fin 16) (smp : SampleRec) (at_ : Nat), s.dev.ringOn r = true ∧ s.dev.f ⟨0x42000000 + 0x1000 * r.val, 0, 1⟩ = 1 ∧ i.val ≤ s.dev.f ⟨0x42000000 + 0x1000 * r.val, 4, 4⟩ ∧ (rnode (s.dev.ring r.val) i.val).seen = false) ∧
    (∃ (s : State) (r i : Fin 16) (filled crcOk ue : Bool) (parity : Fin 4) (smp : SampleRec) (at_ : Nat), s.dev.ringOn r = true ∧ s.dev.f ⟨0x42000000 + 0x1000 * r.val, 0, 1⟩ = 0) ∧
    (∃ (s : State) (r i : Fin 16) (at_ n : Nat), s.dev.ringOn r = true ∧ s.dev.f ⟨0x42000000 + 0x1000 * r.val, 12, 4⟩ ≤ s.dev.f ⟨0x42000080 + 0x1000 * r.val + 4 * i.val, 24, 8⟩ ∧ 1 ≤ s.dev.f ⟨0x42000080 + 0x1000 * r.val + 4 * i.val, 24, 8⟩ ∧ isleOf r.val i.val s.dev = some n ∧ (s.dev.isle n).entry.role = 1 ∧ (s.dev.str (s.dev.isle n).entry.string).fq = []) ∧
    (∃ (s : State) (r i : Fin 16) (at_ : Nat), s.dev.ringOn r = true ∧ s.dev.f ⟨0x42000080 + 0x1000 * r.val + 4 * i.val, 24, 8⟩ < s.dev.f ⟨0x42000000 + 0x1000 * r.val, 12, 4⟩) :=
  ⟨⟨(stW [(0x42001000, 0x402013)] fun d => d.setIsle 5 { entry := { role := 1, string := 0, ring := 1, node := 1 } }), 1, 1, ⟨[7], [8], 0⟩, 356, 5, 0, by decide +kernel⟩,
   ⟨(stW [(0x42001000, 0x402013)]), 1, 1, ⟨[], [], 0⟩, 356, by decide +kernel⟩,
   ⟨stRun, 1, 1, true, true, false, 0, ⟨[], [], 0⟩, 356, by decide +kernel⟩,
   ⟨(stW [(0x42001000, 0x402013), (0x42001084, 0x02000000)] fun d => d.setIsle 5 { entry := { role := 1, string := 0, ring := 1, node := 1 } }), 1, 1, 356, 5, by decide +kernel⟩,
   ⟨(stW [(0x42001000, 0x402013), (0x42001084, 0x01000000)]), 1, 1, 356, by decide +kernel⟩⟩

theorem wit_FramesGoDownTheRing :
    (∃ (s : State) (r : Fin 16), s.dev.ringOn r = true ∧ ringSends r.val s.dev = true ∧ s.dev.f ⟨0x42200000 + 0x400 * r.val, 10, 2⟩ ≠ 1 ∧ (s.dev.ring r.val).trainSent = false) ∧
    (∃ (s : State) (r : Fin 16), s.dev.ringOn r = true ∧ s.dev.f ⟨0x42200000 + 0x400 * r.val, 10, 2⟩ ≠ 1 ∧ (ringSends r.val s.dev = false ∨ (s.dev.ring r.val).trainSent = true)) ∧
    (∃ (s : State) (r : Fin 16) (at_ : Nat) (f : EdgeFrame) (l : List EdgeFrame), s.dev.ringOn r = true ∧ ringSends r.val s.dev = true ∧ s.dev.f ⟨0x42200000 + 0x400 * r.val, 10, 2⟩ ≠ 1 ∧ (s.dev.ring r.val).trainSent = true ∧ (s.dev.ring r.val).egress = f :: l ∧ fitsTick r.val at_ (edgeBlocks f) s.dev = true ∧ s.dev.f ⟨0x42000004 + 0x1000 * r.val, 0, 2⟩ ≠ 0) ∧
    (∃ (s : State) (r : Fin 16) (at_ : Nat) (f : EdgeFrame), s.dev.ringOn r = true ∧ ringSends r.val s.dev = true ∧ s.dev.f ⟨0x42200000 + 0x400 * r.val, 10, 2⟩ ≠ 1 ∧ (s.dev.ring r.val).trainSent = true ∧ (s.dev.ring r.val).egress = [f] ∧ f.waited = false ∧ fitsTick r.val at_ (edgeBlocks f) s.dev = false) ∧
    (∃ (s : State) (r : Fin 16) (at_ : Nat) (j : SvcJob) (l : List SvcJob), s.dev.ringOn r = true ∧ ringSends r.val s.dev = true ∧ s.dev.f ⟨0x42200000 + 0x400 * r.val, 10, 2⟩ ≠ 1 ∧ (s.dev.ring r.val).svcSent = false ∧ (s.dev.ring r.val).trainSent = true ∧ (s.dev.ring r.val).egress = [] ∧ (s.dev.ring r.val).out = [] ∧ (s.dev.ring r.val).jobs = j :: l ∧ fitsTick r.val at_ (blocksOf (18 + j.req.rlen)) s.dev = true) ∧
    (∃ (s : State) (r : Fin 16) (at_ : Nat), s.dev.ringOn r = true ∧ ((s.dev.ring r.val).svcSent = true ∨ (s.dev.ring r.val).egress ≠ [])) ∧
    (∃ (s : State) (r : Fin 16) (f : EdgeFrame) (l : List EdgeFrame), s.dev.ringOn r = true ∧ frameErr r.val s.dev = false ∧ (s.dev.ring r.val).sentFrames = f :: l) ∧
    (∃ (s : State) (r : Fin 16) (crcOk : Bool) (f g : EdgeFrame) (l : List EdgeFrame), s.dev.ringOn r = true ∧ (s.dev.ring r.val).sentFrames = g :: l ∧ (crcOk = false ∨ f ≠ g ∨ frameErr r.val s.dev = true) ∧ s.dev.f ⟨0x42000000 + 0x1000 * r.val, 1, 1⟩ = 1) :=
  ⟨⟨(stW [(0x42001000, 0x402013), (0x42200404, 0x206)]), 1, by decide +kernel⟩,
   ⟨(stW [(0x42001000, 0x402013)]), 1, by decide +kernel⟩,
   ⟨(stW [(0x42001000, 0x402013), (0x42001004, 3), (0x42200404, 0x206)] fun d => d.setRing 1 { trainSent := true, egress := [{ node := 0, cover := [], recs := [] }] }), 1, 6100000, { node := 0, cover := [], recs := [] }, [], by decide +kernel⟩,
   ⟨(stW [(0x42001000, 0x402013), (0x42200404, 0x206)] fun d => d.setRing 1 { trainSent := true, egress := [{ node := 0, cover := [], recs := [] }] }), 1, 19990000, { node := 0, cover := [], recs := [] }, by decide +kernel⟩,
   ⟨(stW [(0x42001000, 0x402013), (0x42200404, 0x206)] fun d => d.setRing 1 { trainSent := true, jobs := [jobFor 2 0 3 [] 32] }), 1, 6100000, (jobFor 2 0 3 [] 32), [], by decide +kernel⟩,
   ⟨(stW [(0x42001000, 0x402013)] fun d => d.setRing 1 { trainSent := true, egress := [{ node := 0, cover := [], recs := [] }] }), 1, 0, by decide +kernel⟩,
   ⟨(stW [(0x42001000, 0x402013)] fun d => d.setRing 1 { sentFrames := [{ node := 0, cover := [], recs := [] }] }), 1, { node := 0, cover := [], recs := [] }, [], by decide +kernel⟩,
   ⟨(stW [(0x42001000, 0x402013)] fun d => d.setRing 1 { sentFrames := [{ node := 0, cover := [], recs := [] }] }), 1, false, { node := 0, cover := [], recs := [] }, { node := 0, cover := [], recs := [] }, [], by decide +kernel⟩⟩

theorem wit_RingsAreMeasuredAndBroughtUp :
    (∃ (s : State) (r : Fin 16) (delay : Nat), s.dev.ringOn r = true ∧ s.dev.f ⟨0x42000000 + 0x1000 * r.val, 0, 1⟩ = 1 ∧ frameErr r.val s.dev = false ∧ ((s.dev.ring r.val).delays = [] ∨ ((delay : Int) - s.dev.f ⟨0x42000014 + 0x1000 * r.val, 0, 24⟩).natAbs ≤ 80)) ∧
    (∃ (s : State) (r : Fin 16) (delay : Nat), s.dev.ringOn r = true ∧ s.dev.f ⟨0x42000000 + 0x1000 * r.val, 0, 1⟩ = 1 ∧ (s.dev.ring r.val).discards < 15) ∧
    (∃ (s : State) (r : Fin 16) (delay : Nat), s.dev.ringOn r = true ∧ s.dev.f ⟨0x42000000 + 0x1000 * r.val, 0, 1⟩ = 1 ∧ 15 ≤ (s.dev.ring r.val).discards) ∧
    (∃ (s : State) (r : Fin 16) (filled : Fin 17), s.dev.ringOn r = true ∧ frameErr r.val s.dev = false ∧ s.dev.f ⟨0x42000004 + 0x1000 * r.val, 0, 2⟩ = 1 ∧ filled.val = s.dev.f ⟨0x42000000 + 0x1000 * r.val, 4, 4⟩ + 1) ∧
    (∃ (s : State) (r : Fin 16) (filled : Fin 17), s.dev.ringOn r = true ∧ frameErr r.val s.dev = false ∧ s.dev.f ⟨0x42000004 + 0x1000 * r.val, 0, 2⟩ = 1 ∧ filled.val ≠ s.dev.f ⟨0x42000000 + 0x1000 * r.val, 4, 4⟩ + 1) ∧
    (∃ (s : State) (r : Fin 16) (filled : Fin 17), s.dev.ringOn r = true ∧ frameErr r.val s.dev = true) ∧
    (∃ (s : State) (r : Fin 16) (filled : Fin 17), s.dev.ringOn r = true ∧ s.dev.f ⟨0x42000004 + 0x1000 * r.val, 0, 2⟩ ≠ 1) ∧
    (∃ (s : State) (r : Fin 16), s.dev.ringOn r = true ∧ s.dev.f ⟨0x42000004 + 0x1000 * r.val, 0, 2⟩ = 1 ∧ 16 ≤ (s.dev.ring r.val).enumTicks) ∧
    (∃ (s : State) (r : Fin 16), s.dev.ringOn r = true ∧ (s.dev.f ⟨0x42000004 + 0x1000 * r.val, 0, 2⟩ ≠ 1 ∨ (s.dev.ring r.val).enumTicks < 16)) ∧
    (∃ (s : State) (r : Fin 16), s.dev.ringOn r = true ∧ s.dev.f ⟨0x42000004 + 0x1000 * r.val, 0, 2⟩ = 2 ∧ cfgOver r.val s.dev = true) ∧
    (∃ (s : State) (r : Fin 16), s.dev.ringOn r = true ∧ s.dev.f ⟨0x42000004 + 0x1000 * r.val, 0, 2⟩ = 2 ∧ cfgOver r.val s.dev = false) ∧
    (∃ (s : State) (r : Fin 16), s.dev.ringOn r = true ∧ s.dev.f ⟨0x42000004 + 0x1000 * r.val, 0, 2⟩ = 3) :=
  ⟨⟨(stW [(0x42001000, 0x402013), (0x42001014, 6368)] fun d => d.setRing 1 { delays := [6368] }), 1, 6448, by decide +kernel⟩,
   ⟨(stW [(0x42001000, 0x402013)]), 1, 0, by decide +kernel⟩,
   ⟨(stW [(0x42001000, 0x402013)] fun d => d.setRing 1 { discards := 15 }), 1, 0, by decide +kernel⟩,
   ⟨(stW [(0x42001000, 0x402013), (0x42001004, 1)]), 1, 2, by decide +kernel⟩,
   ⟨(stW [(0x42001000, 0x402013), (0x42001004, 1)]), 1, 3, by decide +kernel⟩,
   ⟨(stW [(0x42001000, 0x402013), (0x42001004, 1)] fun d => d.setLane 1 { cut := true }), 1, 2, by decide +kernel⟩,
   ⟨stRun, 1, 1, by decide +kernel⟩,
   ⟨(stW [(0x42001000, 0x402013), (0x42001004, 1)] fun d => d.setRing 1 { enumTicks := 16 }), 1, by decide +kernel⟩,
   ⟨(stW [(0x42001000, 0x402013), (0x42001004, 1)] fun d => d.setRing 1 { enumTicks := 15 }), 1, by decide +kernel⟩,
   ⟨(stW [(0x42001000, 0x402013), (0x42001004, 2), (0x42001080, 0x800000), (0x42001084, 0x800000)]), 1, by decide +kernel⟩,
   ⟨(stW [(0x42001000, 0x402013), (0x42001004, 2)]), 1, by decide +kernel⟩,
   ⟨(stW [(0x42001000, 0x402013), (0x42001004, 3)]), 1, by decide +kernel⟩⟩

theorem wit_ServiceRequestsEnd :
    (∃ (s : State) (r : Fin 16), s.dev.ringOn r = true ∧ s.dev.f ⟨0x42000000 + 0x1000 * r.val, 0, 1⟩ = 1 ∧ s.dev.f ⟨0x42000030 + 0x1000 * r.val, 0, 8⟩ ≠ 7 ∧ (((s.dev.ring r.val).jobs ++ (s.dev.ring r.val).out).any fun j => j.purpose < 2) = false) ∧
    (∃ (s : State) (r : Fin 16), s.dev.ringOn r = true ∧ s.dev.f ⟨0x42000030 + 0x1000 * r.val, 0, 8⟩ = 7 ∧ s.dev.f ⟨0x4200000C + 0x1000 * r.val, s.dev.f ⟨0x42000030 + 0x1000 * r.val, 8, 4⟩, 1⟩ = 1) ∧
    (∃ (s : State) (r i : Fin 16) (l : List Byte), s.dev.ringOn r = true ∧ s.dev.f ⟨0x42000000 + 0x1000 * r.val, 0, 1⟩ = 1 ∧ leAt l 0 1 ≠ 7 ∧ (((s.dev.ring r.val).jobs ++ (s.dev.ring r.val).out).any fun j => j.purpose < 2) = false) ∧
    (∃ (s : State) (r i : Fin 16) (l : List Byte) (at_ : Nat) (j : SvcJob), s.dev.ringOn r = true ∧ (s.dev.ring r.val).out = [j] ∧ j.req.node = i.val ∧ j.purpose = 0 ∧ leAt l 0 1 ≠ 0 ∧ frameErr r.val s.dev = false) ∧
    (∃ (s : State) (r i : Fin 16) (l : List Byte) (at_ : Nat) (j : SvcJob), s.dev.ringOn r = true ∧ (s.dev.ring r.val).out = [j] ∧ j.req.node = i.val ∧ j.tries < 3) ∧
    (∃ (s : State) (r i : Fin 16) (at_ : Nat) (j : SvcJob), s.dev.ringOn r = true ∧ (s.dev.ring r.val).out = [j] ∧ j.req.node = i.val ∧ j.purpose = 0 ∧ 3 ≤ j.tries) ∧
    (∃ (s : State) (r i : Fin 16) (at_ : Nat) (j : SvcJob), s.dev.ringOn r = true ∧ (s.dev.ring r.val).out = [j] ∧ j.tries < 3) :=
  ⟨⟨(stW [(0x42001000, 0x402013), (0x42001030, 2)]), 1, by decide +kernel⟩,
   ⟨(stW [(0x42001000, 0x402013), (0x42001030, 0x107), (0x4200100C, 2)]), 1, by decide +kernel⟩,
   ⟨(stW [(0x42001000, 0x402013)]), 1, 1, [8, 0, 32, 0], by decide +kernel⟩,
   ⟨(stW [(0x42001000, 0x402013)] fun d => d.setRing 1 { out := [(jobFor 6 1 0 [0, 0, 0, 0])] }), 1, 1, [1], 0, (jobFor 6 1 0 [0, 0, 0, 0]), by decide +kernel⟩,
   ⟨(stW [(0x42001000, 0x402013)] fun d => d.setRing 1 { out := [(jobFor 6 1 0 [0, 0, 0, 0])] }), 1, 1, [], 0, (jobFor 6 1 0 [0, 0, 0, 0]), by decide +kernel⟩,
   ⟨(stW [(0x42001000, 0x402013)] fun d => d.setRing 1 { out := [{ (jobFor 6 1 0 [0, 0, 0, 0]) with tries := 3 }] }), 1, 1, 0, { (jobFor 6 1 0 [0, 0, 0, 0]) with tries := 3 }, by decide +kernel⟩,
   ⟨(stW [(0x42001000, 0x402013)] fun d => d.setRing 1 { out := [(jobFor 6 1 0 [0, 0, 0, 0])] }), 1, 1, 0, (jobFor 6 1 0 [0, 0, 0, 0]), by decide +kernel⟩⟩

theorem wit_HaltMatrixDecides :
    (∃ (s : State) (r i : Fin 16) (cause : BitVec 8) (gates : BitVec 12) (at_ : Nat), s.dev.ringOn r = true ∧ s.dev.f ⟨0x42000000 + 0x1000 * r.val, 0, 1⟩ = 1 ∧ i.val ≤ s.dev.f ⟨0x42000000 + 0x1000 * r.val, 4, 4⟩ ∧ haltAction r.val i.val (cause.toNat % 8) s.dev ≠ 0) ∧
    (∃ (s : State) (r : Fin 16) (node cause : BitVec 8) (gates : BitVec 12) (at_ : Nat), s.dev.ringOn r = true ∧ s.dev.f ⟨0x42000000 + 0x1000 * r.val, 0, 1⟩ = 1) ∧
    (∃ (s : State) (r : Fin 16) (node : BitVec 8) (loop : Nat), s.dev.ringOn r = true ∧ (s.dev.ring r.val).echoes.contains node.toNat = true ∧ node ≠ 0xFF) ∧
    (∃ (s : State) (r : Fin 16) (node : BitVec 8), s.dev.ringOn r = true ∧ (s.dev.ring r.val).echoes.contains node.toNat = true) ∧
    (∃ (s : State) (r : Fin 16) (node : BitVec 8), s.dev.ringOn r = true ∧ (s.dev.ring r.val).echoes.contains node.toNat = false) ∧
    (∃ (s : State) (r i : Fin 16) (mask : BitVec 16) (n : Nat), s.dev.ringOn r = true ∧ mask.getLsbD i.val = true ∧ isleOf r.val i.val s.dev = some n ∧ (s.dev.isle n).entry.role = 1 ∧ (s.dev.str (s.dev.isle n).entry.string).sstate = 0) ∧
    (∃ (s : State) (r i : Fin 16) (mask : BitVec 16) (n : Nat), s.dev.ringOn r = true ∧ mask.getLsbD i.val = true ∧ isleOf r.val i.val s.dev = some n ∧ (s.dev.isle n).entry.role = 1 ∧ ((s.dev.str (s.dev.isle n).entry.string).sstate = 1 ∨ (s.dev.str (s.dev.isle n).entry.string).sstate = 2) ∧ (s.dev.str (s.dev.isle n).entry.string).excl.contains (s.dev.isle n).entry.gPos = false) ∧
    (∃ (s : State) (r i : Fin 16) (mask : BitVec 16), s.dev.ringOn r = true ∧ mask.getLsbD i.val = false) ∧
    (∃ (s : State) (r i : Fin 16) (mask : BitVec 16) (at_ : Nat), s.dev.ringOn r = true ∧ (rnode (s.dev.ring r.val) i.val).alertAt = some (s.dev.tide.abs + at_)) :=
  ⟨⟨(stW [(0x42001000, 0x402013)]), 1, 1, 1, 0x100, 3694, by decide +kernel⟩,
   ⟨(stW [(0x42001000, 0x402013)]), 1, 1, 1, 1, 0, by decide +kernel⟩,
   ⟨(stW [(0x42001000, 0x402013)] fun d => d.setRing 1 { echoes := [3] }), 1, 3, 8288, by decide +kernel⟩,
   ⟨(stW [(0x42001000, 0x402013)] fun d => d.setRing 1 { echoes := [3] }), 1, 3, by decide +kernel⟩,
   ⟨(stW [(0x42001000, 0x402013)]), 1, 3, by decide +kernel⟩,
   ⟨(stW [(0x42001000, 0x402013)] fun d => (d.setIsle 5 { entry := { role := 1, string := 0, ring := 1, node := 1 } }).setRing 1 { halts := 2 }), 1, 1, 2, 5, by decide +kernel⟩,
   ⟨(stW [(0x42001000, 0x402013)] fun d => ((d.setIsle 5 { entry := { role := 1, string := 0, ring := 1, node := 1 } }).setRing 1 { halts := 2 }).setStr 0 { sstate := 2 }), 1, 1, 2, 5, by decide +kernel⟩,
   ⟨(stW [(0x42001000, 0x402013)]), 1, 1, 1, by decide +kernel⟩,
   ⟨(stW [(0x42001000, 0x402013)] fun d => d.setRing 1 { halts := 2, nodes := [(1, { alertAt := some 7 })] }), 1, 1, 2, 7, by decide +kernel⟩⟩

theorem wit_HaltPolicyWritesAreGuarded :
    (∃ (s : State) (r i : Fin 16) (v : Word), s.dev.ringOn r = true ∧ s.dev.mode = 2 ∧ fget v 0 2 ≠ 0) ∧
    (∃ (s : State) (r i : Fin 16) (v : Word), s.dev.ringOn r = true ∧ s.dev.mode ≠ 2) ∧
    (∃ (s : State) (r i : Fin 16) (v : Word), s.dev.ringOn r = true ∧ fget v 0 2 = 0) :=
  ⟨⟨stMode 2, 1, 15, 0x31B, by decide +kernel⟩,
   ⟨stMode 4, 1, 15, 0x31B, by decide +kernel⟩,
   ⟨stMode 2, 1, 15, 0x318, by decide +kernel⟩⟩

theorem wit_NodesTurnOffSafely :
    (∃ (s : State) (r i : Fin 16) (b : Bool) (target : BitVec 8) (byp : Bool) (par : Fin 4) (crc : BitVec 8) (at_ : Nat), (target = 0xFF ∨ ((s.dev.node r.val i.val).path b).num = some target.toNat) ∧ crc8 [0x4B, 2, target, BitVec.ofNat 8 (b2n byp), 0, 0, BitVec.ofNat 8 par] = crc.toNat) ∧
    (∃ (s : State) (r i : Fin 16) (b : Bool) (target : BitVec 8) (byp : Bool) (par : Fin 4) (crc : BitVec 8) (at_ : Nat), (crc8 [0x4B, 2, target, BitVec.ofNat 8 (b2n byp), 0, 0, BitVec.ofNat 8 par] ≠ crc.toNat ∨ (target ≠ 0xFF ∧ ((s.dev.node r.val i.val).path b).num ≠ some target.toNat))) ∧
    (∃ (s : State) (r i : Fin 16), 2 ≤ (s.dev.node r.val i.val).silent ∧ ((s.dev.node r.val i.val).state = 1 ∨ (s.dev.node r.val i.val).state = 2)) ∧
    (∃ (s : State) (r i : Fin 16), (s.dev.node r.val i.val).silent < 2) ∧
    (∃ (s : State) (r i : Fin 16), (s.dev.node r.val i.val).norph ≤ (s.dev.node r.val i.val).orphan ∧ ((s.dev.node r.val i.val).state = 1 ∨ (s.dev.node r.val i.val).state = 2)) ∧
    (∃ (s : State) (r i : Fin 16), (s.dev.node r.val i.val).orphan < (s.dev.node r.val i.val).norph) ∧
    (∃ (s : State) (r i : Fin 16) (b : Bool) (hd : FrameHdr) (h : TideHdr) (arr : Nat), (frameOk hd 1 32 2 = false ∨ ¬ hd.crc = crc16 (hdrBytes hd ++ tideBody h))) ∧
    (∃ (s : State) (r i : Fin 16) (hd : FrameHdr) (h : TideHdr) (arr m : Nat), frameOk hd 1 32 2 = true ∧ hd.crc = crc16 (hdrBytes hd ++ tideBody h) ∧ (s.dev.node r.val i.val).follow = some false ∧ (s.dev.node r.val i.val).a.num = some m ∧ (s.dev.node r.val i.val).a.last = none ∧ ((s.dev.node r.val i.val).a.ring = none ∨ (s.dev.node r.val i.val).a.ring = some hd.ring) ∧ (s.dev.node r.val i.val).state = 2 ∧ nbit h.en m = false ∧ nbit h.halt m = false) ∧
    (∃ (s : State) (r i : Fin 16), ((s.dev.node r.val i.val).path !(s.dev.node r.val i.val).onB).hdr = none ∧ (s.dev.node r.val i.val).state = 1 ∧ (s.dev.node r.val i.val).enNext = true ∧ (s.dev.node r.val i.val).toggled = false ∧ (s.dev.node r.val i.val).heard = true ∧ (s.dev.node r.val i.val).master = true ∧ 1 ≤ (s.dev.node r.val i.val).norph) ∧
    (∃ (s : State) (r i : Fin 16) (at_ : Nat), (s.dev.node r.val i.val).state ≠ 2) ∧
    (∃ (s : State) (r i : Fin 16), (s.dev.node r.val i.val).follow ≠ some true ∧ ((s.dev.node r.val i.val).state = 1 ∨ (s.dev.node r.val i.val).state = 2)) ∧
    (∃ (s : State) (r i : Fin 16) (at_ : Nat), (s.dev.node r.val i.val).state = 2 ∧ (s.dev.node r.val i.val).bypass = false ∧ (s.dev.node r.val i.val).played < lineOf (s.dev.node r.val i.val) at_) ∧
    (∃ (s : State) (r i : Fin 16) (b : Bool) (hd : FrameHdr) (f : EdgeFrame) (at_ : Nat), (frameOk hd 2 (8 * edgeBlocks f - 16) 2 = false ∨ ¬ hd.crc = crc16 (hdrBytes hd ++ edgeBody f))) ∧
    (∃ (s : State) (r i : Fin 16) (b : Bool) (hd : FrameHdr) (f : EdgeFrame) (at_ : Nat) (c : Cover), frameOk hd 2 (8 * edgeBlocks f - 16) 2 = true ∧ hd.crc = crc16 (hdrBytes hd ++ edgeBody f) ∧ ((s.dev.node r.val i.val).path b).num = some hd.node ∧ (s.dev.node r.val i.val).state = 2 ∧ f.cover = [c] ∧ f.recs = [] ∧ resolve (s.dev.node r.val i.val) c.fromPar c.fromSt < resolve (s.dev.node r.val i.val) c.toPar c.toSt ∧ gridOf (s.dev.node r.val i.val) at_ + 80 ≤ resolve (s.dev.node r.val i.val) c.fromPar c.fromSt) ∧
    (∃ (s : State) (r i : Fin 16) (b : Bool) (hd : FrameHdr) (f : EdgeFrame) (at_ : Nat), frameOk hd 2 (8 * edgeBlocks f - 16) 2 = true ∧ hd.crc = crc16 (hdrBytes hd ++ edgeBody f)) :=
  ⟨⟨stRun, 0, 3, false, 0xFF, true, 1, (BitVec.ofNat 8 (crc8 [0x4B, 2, 0xFF, 1, 0, 0, 1])), 0, by decide +kernel⟩,
   ⟨stRun, 0, 3, false, 2, true, 1, 0, 0, by decide +kernel⟩,
   ⟨stNode { state := 2, silent := 2 }, 0, 3, by decide +kernel⟩,
   ⟨stNode { state := 2, silent := 1 }, 0, 3, by decide +kernel⟩,
   ⟨stNode { state := 2, orphan := 6 }, 0, 3, by decide +kernel⟩,
   ⟨stNode { state := 2, orphan := 5 }, 0, 3, by decide +kernel⟩,
   ⟨stRun, 0, 3, false, { tideHd hdr7 with errored := true }, hdr7, 0, by decide +kernel⟩,
   ⟨stNode { state := 2, follow := some false, a := { num := some 3 } }, 0, 3, (tideHd hdr7), hdr7, 2608, 3, by decide +kernel⟩,
   ⟨stNode { state := 1, enNext := true, heard := true, master := true }, 0, 3, by decide +kernel⟩,
   ⟨stRun, 0, 3, 5, by decide +kernel⟩,
   ⟨stNode { state := 2, a := { num := some 3 } }, 0, 3, by decide +kernel⟩,
   ⟨stNode { state := 2, tc := 8000 }, 0, 3, 5, by decide +kernel⟩,
   ⟨stRun, 0, 3, false, { edgeHd frame7 with errored := true }, frame7, 0, by decide +kernel⟩,
   ⟨stNode { state := 2, follow := some false, tick := 7, tc := 8000, a := { num := some 3 } }, 0, 3, false, (edgeHd frame7), frame7, 0, ⟨0, 3, 4000, 0, 4000⟩, by decide +kernel⟩,
   ⟨stRun, 0, 3, false, (edgeHd frame7), frame7, 0, by decide +kernel⟩⟩

theorem wit_NodesAnswerRequests :
    (∃ (s : State) (r i : Fin 16) (b : Bool) (hd : FrameHdr) (q : SvcHead) (free : Fin 17), reqOk hd 1 q [] = true ∧ hd.bcast = true ∧ free.val < 16) ∧
    (∃ (s : State) (r i : Fin 16) (b : Bool) (hd : FrameHdr) (q : SvcHead), reqOk hd 1 q [] = true ∧ hd.bcast = true) ∧
    (∃ (s : State) (r i : Fin 16) (b : Bool) (hd : FrameHdr) (q : SvcHead) (free : Fin 17), reqOk hd 1 q [] = false) ∧
    (∃ (s : State) (r i : Fin 16) (b : Bool) (hd : FrameHdr) (q : SvcHead), reqOk hd 2 q [] = true ∧ ((s.dev.node r.val i.val).path b).num = some hd.node) ∧
    (∃ (s : State) (r i : Fin 16) (b : Bool) (hd : FrameHdr) (q : SvcHead), reqOk hd 2 q [] = false) ∧
    (∃ (s : State) (r i : Fin 16) (b : Bool) (hd : FrameHdr) (q : SvcHead), reqOk hd 2 q [] = true ∧ ((s.dev.node r.val i.val).path b).num = none) ∧
    (∃ (s : State) (r i : Fin 16) (b : Bool) (hd : FrameHdr) (q : SvcHead) (v : BitVec 32), reqOk hd 3 q (leBytes 4 v.toNat) = true ∧ ((s.dev.node r.val i.val).path b).num = some hd.node) ∧
    (∃ (s : State) (r i : Fin 16) (b : Bool) (hd : FrameHdr) (q : SvcHead), reqOk hd 8 q [] = true ∧ ((s.dev.node r.val i.val).path b).num = some hd.node) ∧
    (∃ (s : State) (r i : Fin 16) (b : Bool) (hd : FrameHdr) (q : SvcHead) (code : BitVec 8), reqOk hd code.toNat q [] = true ∧ ((s.dev.node r.val i.val).path b).num = some hd.node ∧ code ≠ 8) ∧
    (∃ (s : State) (r i : Fin 16) (b : Bool) (hd : FrameHdr) (q : SvcHead) (args : List Byte), reqOk hd 4 q args = true ∧ ((s.dev.node r.val i.val).path b).num = some hd.node ∧ ((s.dev.node r.val i.val).state ≠ 1 ∨ (s.dev.node r.val i.val).follow ≠ some b)) ∧
    (∃ (s : State) (r i : Fin 16) (b : Bool) (hd : FrameHdr) (q : SvcHead) (n sb : Byte), reqOk hd 4 q (7 :: n :: sb :: List.replicate 9 0) = true ∧ ((s.dev.node r.val i.val).path b).num = some hd.node ∧ (s.dev.node r.val i.val).state = 1 ∧ (s.dev.node r.val i.val).follow = some b ∧ 2 ≤ n.toNat ∧ n.toNat ≤ 16 ∧ sb.toNat ≤ 1) ∧
    (∃ (s : State) (r i : Fin 16) (b : Bool) (hd : FrameHdr) (q : SvcHead) (g : BitVec 8) (a : BitVec 16) (v : Word), reqOk hd 5 q (g :: 0 :: leBytes 2 a.toNat ++ leBytes 4 v.toNat) = true ∧ ((s.dev.node r.val i.val).path b).num = some hd.node ∧ ((s.dev.node r.val i.val).state ≠ 1 ∨ (s.dev.node r.val i.val).follow ≠ some b)) ∧
    (∃ (s : State) (r i : Fin 16) (b : Bool) (hd : FrameHdr) (q : SvcHead) (a : BitVec 16) (v : Word), reqOk hd 5 q (0xFF :: 0 :: leBytes 2 a.toNat ++ leBytes 4 v.toNat) = true ∧ ((s.dev.node r.val i.val).path b).num = some hd.node ∧ (s.dev.node r.val i.val).state = 1 ∧ (s.dev.node r.val i.val).follow = some b ∧ 0x100 ≤ a.toNat) ∧
    (∃ (s : State) (r i : Fin 16) (b : Bool) (hd : FrameHdr) (q : SvcHead) (a : BitVec 16), reqOk hd 6 q (0xFF :: 0 :: leBytes 2 a.toNat) = true ∧ ((s.dev.node r.val i.val).path b).num = some hd.node ∧ a.toNat ≠ 12) ∧
    (∃ (s : State) (r i : Fin 16) (b : Bool) (hd : FrameHdr) (q : SvcHead), reqOk hd 6 q (0xFF :: 0 :: leBytes 2 12) = true ∧ ((s.dev.node r.val i.val).path b).num = some hd.node) ∧
    (∃ (s : State) (r i : Fin 16) (b : Bool) (hd : FrameHdr) (q : SvcHead) (mask : BitVec 12) (alertTest : Bool) (passed : BitVec 12), reqOk hd 7 q (leBytes 2 mask.toNat ++ [BitVec.ofNat 8 (b2n alertTest)]) = true ∧ ((s.dev.node r.val i.val).path b).num = some hd.node ∧ (s.dev.node r.val i.val).state ≠ 1) ∧
    (∃ (s : State) (r i : Fin 16) (b : Bool) (hd : FrameHdr) (q : SvcHead) (mask passed : BitVec 12), reqOk hd 7 q (leBytes 2 mask.toNat ++ [0]) = true ∧ ((s.dev.node r.val i.val).path b).num = some hd.node ∧ (s.dev.node r.val i.val).state = 1 ∧ (s.dev.node r.val i.val).follow = some b ∧ (s.dev.node r.val i.val).drvFlt &&& mask.toNat = 0) ∧
    (∃ (s : State) (r i : Fin 16) (b : Bool) (hd : FrameHdr) (avg inst : List Int) (temp : BitVec 8) (m : Nat), frameOk hd 3 (hd.len / 48 * 48) 0 = true ∧ ((s.dev.node r.val i.val).path b).num = some m ∧ (s.dev.node r.val i.val).record = none) ∧
    (∃ (s : State) (r i : Fin 16) (b : Bool) (hd : FrameHdr) (avg inst : List Int) (temp : BitVec 8) (ready : Bool) (m : Nat) (x : List Int × List Int × Nat), frameOk hd 3 (hd.len / 48 * 48) 0 = true ∧ ((s.dev.node r.val i.val).path b).num = some m ∧ (s.dev.node r.val i.val).record = some x) ∧
    (∃ (s : State) (r i : Fin 16) (b : Bool) (hd : FrameHdr) (avg inst : List Int) (temp : BitVec 8), frameOk hd 3 (hd.len / 48 * 48) 0 = true ∧ (s.dev.node r.val i.val).record = none) :=
  ⟨⟨stRun, 0, 3, false, (svcHd 1 ⟨9, 128⟩ [] true 0), ⟨9, 128⟩, 15, by decide +kernel⟩,
   ⟨stRun, 0, 3, false, (svcHd 1 ⟨9, 128⟩ [] true 0), ⟨9, 128⟩, by decide +kernel⟩,
   ⟨stRun, 0, 3, false, (svcHd 2 ⟨9, 128⟩ [] true 0), ⟨9, 128⟩, 15, by decide +kernel⟩,
   ⟨stNode { state := 1, follow := some false, a := { num := some 3 } }, 0, 3, false, (svcHd 2 ⟨9, 64⟩ [] false 3), ⟨9, 64⟩, by decide +kernel⟩,
   ⟨stRun, 0, 3, false, (svcHd 3 ⟨9, 64⟩ [] false 3), ⟨9, 64⟩, by decide +kernel⟩,
   ⟨stRun, 0, 3, false, (svcHd 2 ⟨9, 64⟩ [] false 3), ⟨9, 64⟩, by decide +kernel⟩,
   ⟨stNode { state := 1, follow := some false, a := { num := some 3 } }, 0, 3, false, (svcHd 3 ⟨9, 64⟩ (leBytes 4 2544) false 3), ⟨9, 64⟩, 2544, by decide +kernel⟩,
   ⟨stNode { state := 1, follow := some false, a := { num := some 3 } }, 0, 3, false, (svcHd 8 ⟨9, 64⟩ [] false 3), ⟨9, 64⟩, by decide +kernel⟩,
   ⟨stNode { state := 1, follow := some false, a := { num := some 3 } }, 0, 3, false, (svcHd 9 ⟨9, 64⟩ [] false 3), ⟨9, 64⟩, 9, by decide +kernel⟩,
   ⟨stNode { state := 2, a := { num := some 3 } }, 0, 3, false, (svcHd 4 ⟨9, 64⟩ [7, 6] false 3), ⟨9, 64⟩, [7, 6], by decide +kernel⟩,
   ⟨stNode { state := 1, follow := some false, a := { num := some 3 } }, 0, 3, false, (svcHd 4 ⟨9, 64⟩ [7, 16, 1] false 3), ⟨9, 64⟩, 16, 1, by decide +kernel⟩,
   ⟨stNode { state := 2, a := { num := some 3 } }, 0, 3, false, (svcHd 5 ⟨9, 64⟩ (0 :: 0 :: leBytes 2 0x100 ++ leBytes 4 1) false 3), ⟨9, 64⟩, 0, 0x100, 1, by decide +kernel⟩,
   ⟨stNode { state := 1, follow := some false, a := { num := some 3 } }, 0, 3, false, (svcHd 5 ⟨9, 64⟩ (0xFF :: 0 :: leBytes 2 0x100 ++ leBytes 4 1) false 3), ⟨9, 64⟩, 0x100, 1, by decide +kernel⟩,
   ⟨stNode { state := 1, follow := some false, a := { num := some 3 } }, 0, 3, false, (svcHd 6 ⟨9, 64⟩ (0xFF :: 0 :: leBytes 2 8) false 3), ⟨9, 64⟩, 8, by decide +kernel⟩,
   ⟨stNode { state := 1, follow := some false, a := { num := some 3 } }, 0, 3, false, (svcHd 6 ⟨9, 64⟩ (0xFF :: 0 :: leBytes 2 12) false 3), ⟨9, 64⟩, by decide +kernel⟩,
   ⟨stNode { state := 2, a := { num := some 3 } }, 0, 3, false, (svcHd 7 ⟨9, 64⟩ (leBytes 2 1 ++ [1]) false 3), ⟨9, 64⟩, 1, true, 1, by decide +kernel⟩,
   ⟨stNode { state := 1, follow := some false, a := { num := some 3 } }, 0, 3, false, (svcHd 7 ⟨9, 64⟩ (leBytes 2 3 ++ [0]) false 3), ⟨9, 64⟩, 3, 1, by decide +kernel⟩,
   ⟨stNode { state := 1, follow := some false, a := { num := some 3 } }, 0, 3, false, (trainHd 4), [7], [], 80, 3, by decide +kernel⟩,
   ⟨stNode { state := 1, a := { num := some 3 }, record := some ([], [], 5) }, 0, 3, false, (trainHd 4), [7], [], 80, false, 3, ([], [], 5), by decide +kernel⟩,
   ⟨stRun, 0, 3, false, (trainHd 4), [], [], 80, by decide +kernel⟩⟩

theorem wit_PortsAndNeighboursFollowHello :
    (∃ (s : State) (p : Fin 4), s.dev.coreOn = true ∧ 2 ≤ s.dev.f ⟨0x42100104 + 0x20 * p.val, 0, 3⟩) ∧
    (∃ (s : State) (p : Fin 4), s.dev.coreOn = true ∧ s.dev.f ⟨0x42100104 + 0x20 * p.val, 0, 3⟩ < 2) ∧
    (∃ (s : State) (p : Fin 4) (h : Hello), s.dev.coreOn = true ∧ 2 ≤ s.dev.f ⟨0x42100104 + 0x20 * p.val, 0, 3⟩ ∧ s.dev.f ⟨0x42100104 + 0x20 * p.val, 0, 3⟩ ≠ 4 ∧ (h.hops ≤ 64 ∨ h.hops = 255) ∧ h.uid ≠ ownUid ∧ h.fab = (s.dev.rd 0x42100004).toNat ∧ h.heard = ownUid) ∧
    (∃ (s : State) (p : Fin 4) (h : Hello), s.dev.coreOn = true ∧ s.dev.f ⟨0x42100104 + 0x20 * p.val, 0, 3⟩ = 2 ∧ (h.hops ≤ 64 ∨ h.hops = 255) ∧ h.uid ≠ ownUid ∧ h.fab ≠ (s.dev.rd 0x42100004).toNat ∧ s.dev.fab.queue = []) ∧
    (∃ (s : State) (p : Fin 4) (h : Hello), s.dev.coreOn = true ∧ s.dev.f ⟨0x42100104 + 0x20 * p.val, 0, 3⟩ = 2 ∧ (h.hops ≤ 64 ∨ h.hops = 255) ∧ h.uid = ownUid ∧ s.dev.fab.queue = []) ∧
    (∃ (s : State) (p : Fin 4) (h : Hello), s.dev.coreOn = true ∧ 2 ≤ s.dev.f ⟨0x42100104 + 0x20 * p.val, 0, 3⟩ ∧ s.dev.fab.queue = []) ∧
    (∃ (s : State) (p : Fin 4) (elapsed : Nat), s.dev.coreOn = true ∧ s.dev.f ⟨0x42100104 + 0x20 * p.val, 0, 3⟩ = 4 ∧ 3000 ≤ elapsed) ∧
    (∃ (s : State) (p : Fin 4) (elapsed : Nat), s.dev.coreOn = true ∧ (s.dev.f ⟨0x42100104 + 0x20 * p.val, 0, 3⟩ ≠ 4 ∨ elapsed < 3000)) ∧
    (∃ (s : State) (p : Fin 4) (v : Word), s.dev.coreOn = true ∧ v.getLsbD 0 = true) :=
  ⟨⟨(stW [(0x42100104, 2)]), 0, by decide +kernel⟩,
   ⟨stRun, 0, by decide +kernel⟩,
   ⟨(stW [(0x42100000, 0x8001), (0x42100104, 2)]), 0, ⟨ownUid + 1, 0, 0x10, 128, 1, false, false, false, false, 0, 0, 255, 0, ownUid, 0⟩, by
     repeat' apply And.intro
     all_goals first | decide +kernel | rfl | exact sync_ok | exact uidSelf_toNat | exact uidNext_ne | (simp; done) | (simp [stRoot, stSync, stW, isRoot, rootUid, ownUid, lsasOf, lsaOf, Dev.wr, State.reset]; done) | omega⟩,
   ⟨(stW [(0x42100000, 0x8001), (0x42100104, 2)]), 0, ⟨ownUid + 1, 9, 0x10, 128, 1, false, false, false, false, 0, 0, 255, 0, 0, 0⟩, by
     repeat' apply And.intro
     all_goals first | decide +kernel | rfl | exact sync_ok | exact uidSelf_toNat | exact uidNext_ne | (simp; done) | (simp [stRoot, stSync, stW, isRoot, rootUid, ownUid, lsasOf, lsaOf, Dev.wr, State.reset]; done) | omega⟩,
   ⟨(stW [(0x42100000, 0x8001), (0x42100104, 2)]), 0, ⟨ownUid, 0, 0x10, 128, 1, false, false, false, false, 0, 0, 255, 0, 0, 0⟩, by
     repeat' apply And.intro
     all_goals first | decide +kernel | rfl | exact sync_ok | exact uidSelf_toNat | exact uidNext_ne | (simp; done) | (simp [stRoot, stSync, stW, isRoot, rootUid, ownUid, lsasOf, lsaOf, Dev.wr, State.reset]; done) | omega⟩,
   ⟨(stW [(0x42100000, 0x8001), (0x42100104, 4)]), 0, ⟨0, 0, 0x10, 128, 1, false, false, false, false, 0, 0, 255, 0, 0, 0⟩, by decide +kernel⟩,
   ⟨(stW [(0x42100000, 0x8001), (0x42100104, 4)]), 0, 3000, by decide +kernel⟩,
   ⟨(stW [(0x42100000, 0x8001), (0x42100104, 4)]), 0, 2999, by decide +kernel⟩,
   ⟨(stW [(0x42100000, 0x8001), (0x42100104, 4)]), 0, 1, by decide +kernel⟩⟩

theorem wit_LinkStateIsKept :
    (∃ (s : State) (p : Fin 4) (l : Lsa), s.dev.coreOn = true ∧ s.dev.f ⟨0x42100104 + 0x20 * p.val, 0, 3⟩ = 4 ∧ l.uid ≠ ownUid ∧ l.addr ≤ 0xFFD ∧ l.nbrs.length = 4 ∧ (match lsaOf (lsasOf s.dev) l.uid with | some h => newerSeq l.seq h.seq | none => true) = true) ∧
    (∃ (s : State) (p : Fin 4) (l h : Lsa), s.dev.coreOn = true ∧ s.dev.f ⟨0x42100104 + 0x20 * p.val, 0, 3⟩ = 4 ∧ l.addr ≤ 0xFFD ∧ l.nbrs.length = 4 ∧ lsaOf (lsasOf s.dev) l.uid = some h ∧ newerSeq l.seq h.seq = false ∧ s.dev.fab.queue = []) ∧
    (∃ (s : State) (p : Fin 4) (l : Lsa), s.dev.coreOn = true ∧ s.dev.f ⟨0x42100104 + 0x20 * p.val, 0, 3⟩ = 4 ∧ s.dev.fab.queue = []) ∧
    (∃ (s : State) (r : LsaRec), s.dev.coreOn = true ∧ r ∈ s.dev.fab.lsas ∧ r.lsa.uid ≠ ownUid) ∧
    (∃ (s : State) (u : BitVec 64) (r : LsaRec), s.dev.coreOn = true ∧ s.dev.fab.lsas = [r] ∧ r.lsa.uid = u.toNat ∧ u.toNat ≠ ownUid ∧ 4 ≤ r.age) ∧
    (∃ (s : State) (u : BitVec 64), s.dev.coreOn = true ∧ (s.dev.fab.lsas.any fun r => r.lsa.uid = u.toNat && 4 ≤ r.age) = false) ∧
    (∃ (s : State), s.dev.coreOn = true) ∧
    (∃ (s : State) (a : BitVec 12), s.dev.coreOn = true) :=
  ⟨⟨(stW [(0x42100000, 0x8001), (0x42100104, 4)]), 0, ⟨ownUid + 1, 5, 0, 128, false, false, false, false, 0, [0, 0, 0, 0]⟩, by
     repeat' apply And.intro
     all_goals first | decide +kernel | rfl | exact sync_ok | exact uidSelf_toNat | exact uidNext_ne | (simp; done) | (simp [stRoot, stSync, stW, isRoot, rootUid, ownUid, lsasOf, lsaOf, Dev.wr, State.reset]; done) | omega⟩,
   ⟨(stW [(0x42100000, 0x8001), (0x42100104, 4)] fun d => { d with fab := { d.fab with lsas := [⟨⟨ownUid + 1, 5, 0, 128, false, false, false, false, 0, [0, 0, 0, 0]⟩, 0⟩] } }), 0, ⟨ownUid + 1, 5, 0, 128, false, false, false, false, 0, [0, 0, 0, 0]⟩, ⟨ownUid + 1, 5, 0, 128, false, false, false, false, 0, [0, 0, 0, 0]⟩, by
     repeat' apply And.intro
     all_goals first | decide +kernel | rfl | exact sync_ok | exact uidSelf_toNat | exact uidNext_ne | (simp; done) | (simp [stRoot, stSync, stW, isRoot, rootUid, ownUid, lsasOf, lsaOf, Dev.wr, State.reset]; done) | omega⟩,
   ⟨(stW [(0x42100000, 0x8001), (0x42100104, 4)]), 0, ⟨ownUid + 1, 5, 0, 128, false, false, false, false, 0, [0, 0, 0, 0]⟩, by decide +kernel⟩,
   ⟨(stW [(0x42100000, 0x8001)] fun d => { d with fab := { d.fab with lsas := [⟨⟨ownUid + 1, 5, 0, 128, false, false, false, false, 0, [0, 0, 0, 0]⟩, 0⟩] } }), ⟨⟨ownUid + 1, 5, 0, 128, false, false, false, false, 0, [0, 0, 0, 0]⟩, 0⟩, by
     repeat' apply And.intro
     all_goals first | decide +kernel | rfl | exact sync_ok | exact uidSelf_toNat | exact uidNext_ne | (simp; done) | (simp [stRoot, stSync, stW, isRoot, rootUid, ownUid, lsasOf, lsaOf, Dev.wr, State.reset]; done) | omega⟩,
   ⟨(stW [(0x42100000, 0x8001)] fun d => { d with fab := { d.fab with lsas := [⟨⟨uidNext.toNat, 5, 0, 128, false, false, false, false, 0, [0, 0, 0, 0]⟩, 4⟩] } }), uidNext, ⟨⟨uidNext.toNat, 5, 0, 128, false, false, false, false, 0, [0, 0, 0, 0]⟩, 4⟩, by
     repeat' apply And.intro
     all_goals first | decide +kernel | rfl | exact sync_ok | exact uidSelf_toNat | exact uidNext_ne | (simp; done) | (simp [stRoot, stSync, stW, isRoot, rootUid, ownUid, lsasOf, lsaOf, Dev.wr, State.reset]; done) | omega⟩,
   ⟨(stW [(0x42100000, 0x8001)] fun d => { d with fab := { d.fab with lsas := [⟨⟨ownUid + 1, 5, 0, 128, false, false, false, false, 0, [0, 0, 0, 0]⟩, 3⟩] } }), 0, by decide +kernel⟩,
   ⟨stRun, by decide +kernel⟩,
   ⟨stRun, 1, by decide +kernel⟩⟩

theorem wit_AddressesAreLeased :
    (∃ (s : State) (p : Fin 4), s.dev.coreOn = true ∧ s.dev.f ⟨0x42100104 + 0x20 * p.val, 0, 3⟩ = 4 ∧ s.dev.f ⟨0x42100008, 0, 12⟩ = 0 ∧ s.dev.fab.addr = 0 ∧ s.dev.fab.root.isSome = true) ∧
    (∃ (s : State), s.dev.coreOn = true ∧ s.dev.f ⟨0x42100008, 0, 12⟩ ≠ 0) ∧
    (∃ (s : State) (u : BitVec 64) (r : LeaseRec), s.dev.coreOn = true ∧ isRoot s.dev = true ∧ u.toNat ≠ ownUid ∧ s.dev.fab.leases = [r] ∧ r.uid = u.toNat) ∧
    (∃ (s : State) (u : BitVec 64), s.dev.coreOn = true ∧ isRoot s.dev = false ∧ s.dev.fab.queue = []) ∧
    (∃ (s : State) (p : Fin 4) (u : BitVec 64) (a : BitVec 12) (time : Nat), s.dev.coreOn = true ∧ u.toNat = ownUid ∧ 0x800 ≤ a.toNat ∧ a.toNat ≤ 0xFFD ∧ s.dev.f ⟨0x42100008, 0, 12⟩ = 0) ∧
    (∃ (s : State) (p : Fin 4) (u : BitVec 64) (a : BitVec 12) (time : Nat) (fromRoot crcOk : Bool), s.dev.coreOn = true ∧ s.dev.fab.queue = [] ∧ (crcOk = false ∨ fromRoot = false ∨ a.toNat < 0x800 ∨ 0xFFD < a.toNat)) ∧
    (∃ (s : State) (p : Fin 4) (u : BitVec 64) (a : BitVec 12) (time : Nat), s.dev.coreOn = true ∧ s.dev.fab.queue = [] ∧ 0x800 ≤ a.toNat ∧ a.toNat ≤ 0xFFD ∧ s.dev.f ⟨0x42100008, 0, 12⟩ ≠ 0) ∧
    (∃ (s : State), s.dev.coreOn = true ∧ s.dev.fab.kind = 2 ∧ 2 * s.dev.fab.left ≤ s.dev.fab.term ∧ s.dev.fab.root.isSome = true) ∧
    (∃ (s : State), s.dev.coreOn = true ∧ (s.dev.fab.kind ≠ 2 ∨ s.dev.fab.term < 2 * s.dev.fab.left)) ∧
    (∃ (s : State), s.dev.coreOn = true ∧ s.dev.fab.kind = 2 ∧ s.dev.fab.left = 0 ∧ s.dev.f ⟨0x42100008, 0, 12⟩ = 0) :=
  ⟨⟨(stW [(0x42100000, 0x8001), (0x42100104, 4)] fun d => { d with fab := { d.fab with root := some (1, 1) } }), 0, by decide +kernel⟩,
   ⟨(stW [(0x42100000, 0x8001), (0x42100008, 5)]), by decide +kernel⟩,
   ⟨stRoot fun f => { f with leases := [⟨uidNext.toNat, 0x803, 100⟩] }, uidNext, ⟨uidNext.toNat, 0x803, 100⟩, by
     repeat' apply And.intro
     all_goals first | decide +kernel | rfl | exact sync_ok | exact uidSelf_toNat | exact uidNext_ne | (simp; done) | (simp [stRoot, stSync, stW, isRoot, rootUid, ownUid, lsasOf, lsaOf, Dev.wr, State.reset]; done) | omega⟩,
   ⟨stRun, 7, by decide +kernel⟩,
   ⟨stRun, 0, uidSelf, 0x800, 60, by
     repeat' apply And.intro
     all_goals first | decide +kernel | rfl | exact sync_ok | exact uidSelf_toNat | exact uidNext_ne | (simp; done) | (simp [stRoot, stSync, stW, isRoot, rootUid, ownUid, lsasOf, lsaOf, Dev.wr, State.reset]; done) | omega⟩,
   ⟨stRun, 2, 7, 0x7FF, 60, true, true, by decide +kernel⟩,
   ⟨(stW [(0x42100000, 0x8001), (0x42100008, 5)]), 2, 7, 0x800, 60, by decide +kernel⟩,
   ⟨(stW [(0x42100000, 0x8001)] fun d => { d with fab := { d.fab with root := some (1, 1), kind := 2, addr := 0x800, left := 1800, term := 3600 } }), by decide +kernel⟩,
   ⟨(stW [(0x42100000, 0x8001)] fun d => { d with fab := { d.fab with kind := 2, left := 1801, term := 3600 } }), by decide +kernel⟩,
   ⟨(stW [(0x42100000, 0x8001)] fun d => { d with fab := { d.fab with kind := 2, addr := 0x800 } }), by decide +kernel⟩⟩

theorem wit_RootsAndMerges :
    (∃ (s : State), s.dev.coreOn = true ∧ s.dev.flag fabEn = true ∧ ownCandidate s.dev = true ∧ 8 ≤ s.dev.fab.cand) ∧
    (∃ (s : State), s.dev.coreOn = true ∧ ownCandidate s.dev = true ∧ s.dev.flag fabEn = true ∧ s.dev.fab.cand < 8) ∧
    (∃ (s : State), s.dev.coreOn = true ∧ isRoot s.dev = true) ∧
    (∃ (s : State), s.dev.coreOn = true ∧ isRoot s.dev = false) ∧
    (∃ (s : State) (p : Fin 4) (m : EpochMsg), s.dev.coreOn = true ∧ m.uid = rootUid s.dev ∧ m.uid ≠ ownUid ∧ (m.epoch + 65536 - s.dev.fab.topEpoch) % 65536 ≠ 0 ∧ (m.epoch + 65536 - s.dev.fab.topEpoch) % 65536 < 32768) ∧
    (∃ (s : State) (p : Fin 4) (m : EpochMsg), s.dev.coreOn = true ∧ s.dev.fab.queue = []) ∧
    (∃ (s : State) (p : Fin 4) (x : Int) (km : Nat) (slew : Bool) (src : BitVec 64) (u : MergeU), s.dev.coreOn = true ∧ s.dev.fab.merge = some u ∧ src.toNat = rootUid s.dev) ∧
    (∃ (s : State) (p : Fin 4) (m : MergeMsg) (src : BitVec 64), s.dev.coreOn = true ∧ s.dev.fab.queue = []) ∧
    (∃ (s : State) (p : Fin 4) (x : Int) (km : Nat) (slew : Bool) (src : BitVec 64), s.dev.coreOn = true ∧ s.dev.fab.queue = [] ∧ s.dev.fab.merge = none ∧ src.toNat = rootUid s.dev) ∧
    (∃ (s : State) (epoch : BitVec 16) (k0 : Nat) (u : MergeU) (km : Nat), s.dev.coreOn = true ∧ s.dev.fab.merge = some u ∧ isRoot s.dev = true ∧ u.left = 0 ∧ u.km = some km ∧ u.kd = none) ∧
    (∃ (s : State) (epoch : BitVec 16) (k0 period : Nat) (near : Bool), s.dev.coreOn = true ∧ s.dev.fab.merge = none) ∧
    (∃ (s : State) (src : BitVec 12) (elapsed at_ q : Nat) (u : SubU), s.dev.coreOn = true ∧ hostUp s.dev = true ∧ partHold s.dev ≤ elapsed ∧ unreachable src.toNat s.dev = true ∧ s.dev.host.subs = [(q, u)] ∧ u.source % 4096 = src.toNat ∧ u.state = 2 ∧ u.targets = [] ∧ q < 64) ∧
    (∃ (s : State) (src : BitVec 12) (elapsed at_ q : Nat) (u : SubU) (v : Word), s.dev.coreOn = true ∧ hostUp s.dev = true ∧ partHold s.dev ≤ elapsed ∧ unreachable src.toNat s.dev = true ∧ s.dev.host.subs = [(q, u)] ∧ u.source % 4096 = src.toNat ∧ u.state = 2 ∧ u.targets = [(0x5300, 9)] ∧ u.droop = leBytes 4 v.toNat ∧ q < 64) ∧
    (∃ (s : State) (src : BitVec 12) (elapsed at_ : Nat), s.dev.coreOn = true ∧ elapsed < partHold s.dev) :=
  ⟨⟨(stW [(0x42100000, 0x8001)] fun d => { d with fab := { d.fab with cand := 8 } }), by decide +kernel⟩,
   ⟨(stW [(0x42100000, 0x8001)] fun d => { d with fab := { d.fab with cand := 7 } }), by decide +kernel⟩,
   ⟨stRoot, by
     repeat' apply And.intro
     all_goals first | decide +kernel | rfl | exact sync_ok | exact uidSelf_toNat | exact uidNext_ne | (simp; done) | (simp [stRoot, stSync, stW, isRoot, rootUid, ownUid, lsasOf, lsaOf, Dev.wr, State.reset]; done) | omega⟩,
   ⟨stRun, by decide +kernel⟩,
   ⟨(stW [(0x42100000, 0x8001)] fun d => { d with fab := { d.fab with root := some (1, ownUid + 1) } }), 0, ⟨1, 8, 20000, 1, ownUid + 1⟩, by
     repeat' apply And.intro
     all_goals first | decide +kernel | rfl | exact sync_ok | exact uidSelf_toNat | exact uidNext_ne | (simp; done) | (simp [stRoot, stSync, stW, isRoot, rootUid, ownUid, lsasOf, lsaOf, Dev.wr, State.reset]; done) | omega⟩,
   ⟨stRun, 1, ⟨1, 8, 20000, 1, 0⟩, by decide +kernel⟩,
   ⟨(stW [(0x42100000, 0x8001)] fun d => { d with fab := { d.fab with merge := some { winner := 1 }, root := some (1, 7) } }), 0, 2600000, 60, true, 7, { winner := 1 }, by decide +kernel⟩,
   ⟨stRun, 3, (.measure 5), 7, by decide +kernel⟩,
   ⟨(stW [(0x42100000, 0x8001)] fun d => { d with fab := { d.fab with root := some (1, 7) } }), 3, 5, 9, true, 7, by decide +kernel⟩,
   ⟨stRoot fun f => { f with merge := some { winner := 1, km := some 3 } }, 5, 9, { winner := 1, km := some 3 }, 3, by
     repeat' apply And.intro
     all_goals first | decide +kernel | rfl | exact sync_ok | exact uidSelf_toNat | exact uidNext_ne | (simp; done) | (simp [stRoot, stSync, stW, isRoot, rootUid, ownUid, lsasOf, lsaOf, Dev.wr, State.reset]; done) | omega⟩,
   ⟨stRun, 1, 0, 20000, true, by decide +kernel⟩,
   ⟨(stW [(0x42100000, 0x8001)] fun d => { d with host := { d.host with subs := [(3, { source := 5, state := 2 })] } }), 5, 10, 0, 3, { source := 5, state := 2 }, by decide +kernel⟩,
   ⟨(stW [(0x42100000, 0x8001)] fun d => { d with host := { d.host with subs := [(3, { source := 5, state := 2, targets := [(0x5300, 9)], droop := leBytes 4 (9 : Word).toNat })] } }), 5, 10, 0, 3, { source := 5, state := 2, targets := [(0x5300, 9)], droop := leBytes 4 (9 : Word).toNat }, 9, by decide +kernel⟩,
   ⟨stRun, 5, 9, 0, by decide +kernel⟩⟩

theorem wit_FerriesAreCheckedQueuedAndSent :
    (∃ (s : State) (p : Fin 4) (f : Ferry) (at_ : Nat), s.dev.coreOn = true ∧ s.dev.flag fabEn = true ∧ s.dev.f ⟨0x42100104 + 0x20 * p.val, 0, 3⟩ = 4 ∧ f.dest = s.dev.fab.addr ∧ f.dest ≠ 0 ∧ f.dest ≠ 0xFFF ∧ typeOk f.typ f.cls = true ∧ linkLocal f.typ = false ∧ f.len ≤ 512 ∧ f.cls ≠ 1 ∧ 2 ≤ f.cls ∧ f.hops < 64 ∧ (s.dev.fab.queue.all fun q => !q.egress.isEmpty) = true ∧ frameErr (16 + 2 * p.val) s.dev = false) ∧
    (∃ (s : State) (p : Fin 4) (f : Ferry) (lenOk trailerOk stomp : Bool) (at_ : Nat), s.dev.coreOn = true ∧ s.dev.flag fabEn = true ∧ 2 ≤ s.dev.f ⟨0x42100104 + 0x20 * p.val, 0, 3⟩ ∧ (s.dev.fab.queue.all fun q => !q.egress.isEmpty) = true) ∧
    (∃ (s : State) (p : Fin 4) (f : Ferry) (stomp : Bool) (at_ : Nat), s.dev.coreOn = true ∧ s.dev.flag fabEn = true ∧ s.dev.f ⟨0x42100104 + 0x20 * p.val, 0, 3⟩ = 4 ∧ typeOk f.typ f.cls = true ∧ 2 ≤ f.cls ∧ f.len ≤ 512 ∧ (s.dev.fab.queue.all fun q => !q.egress.isEmpty) = true) ∧
    (∃ (s : State) (p : Fin 4) (f : Ferry) (at_ : Nat), s.dev.coreOn = true ∧ s.dev.flag fabEn = true ∧ s.dev.f ⟨0x42100104 + 0x20 * p.val, 0, 3⟩ = 4 ∧ typeOk f.typ f.cls = true ∧ 2 ≤ f.cls ∧ f.len ≤ 512 ∧ 64 ≤ f.hops ∧ (s.dev.fab.queue.all fun q => !q.egress.isEmpty) = true ∧ frameErr (16 + 2 * p.val) s.dev = false) ∧
    (∃ (s : State) (p : Fin 4) (at_ : Nat) (q : QEntry), s.dev.coreOn = true ∧ s.dev.flag fabEn = true ∧ s.dev.f ⟨0x42100104 + 0x20 * p.val, 0, 3⟩ = 4 ∧ s.dev.fab.queue = [q] ∧ q.egress = [p.val] ∧ q.acct < 5 ∧ q.ferry.cls < 4 ∧ (s.dev.lane (16 + 2 * p.val)).frames = [] ∧ (match q.ferry.msg with | .sync _ | .delayReq _ | .delayResp _ _ => false | _ => true) = true ∧ eligible p.val (s.dev.tide.abs + at_) q s.dev = true ∧ s.dev.fab.waiting = []) ∧
    (∃ (s : State) (p : Fin 4) (at_ : Nat) (q : QEntry) (y : SyncMsg), s.dev.coreOn = true ∧ s.dev.flag fabEn = true ∧ s.dev.f ⟨0x42100104 + 0x20 * p.val, 0, 3⟩ = 4 ∧ s.dev.fab.queue = [q] ∧ q.egress = [p.val] ∧ q.acct < 5 ∧ q.ferry.cls < 4 ∧ (s.dev.lane (16 + 2 * p.val)).frames = [] ∧ q.ferry.msg = .sync y ∧ eligible p.val (s.dev.tide.abs + at_) q s.dev = true ∧ s.dev.fab.waiting = []) ∧
    (∃ (s : State) (p : Fin 4) (at_ : Nat), s.dev.coreOn = true ∧ (s.dev.fab.queue.all fun q => !q.egress.isEmpty) = true ∧ (s.dev.fab.queue.all fun q => !q.egress.contains p.val) = true) ∧
    (∃ (s : State) (at_ : Nat) (q : QEntry), s.dev.coreOn = true ∧ s.dev.fab.queue = [q] ∧ q.egress ≠ [] ∧ q.ferry.cls = 3 ∧ q.since + 400000 * s.dev.f ⟨0x42100200, 16, 10⟩ < s.dev.tide.abs + at_ ∧ s.dev.fab.waiting = []) ∧
    (∃ (s : State) (at_ : Nat) (q : QEntry), s.dev.coreOn = true ∧ s.dev.fab.queue = [q] ∧ q.egress ≠ [] ∧ q.ferry.cls = 3 ∧ s.dev.tide.abs + at_ ≤ q.since + 400000 * s.dev.f ⟨0x42100200, 16, 10⟩) :=
  ⟨⟨(stW [(0x42100000, 0x8001), (0x42100104, 4)] fun d => { d with fab := { d.fab with addr := 5, kind := 1 } }), 0, { dest := 5, cls := 3, src := 1, typ := 0x30, hops := 0, len := 16, seq := 0, epoch := 0, time := 0, port := none, stomp := false, msg := .dicReq 1 0x10 0 0 true true [] }, 0, by decide +kernel⟩,
   ⟨(stW [(0x42100000, 0x8001), (0x42100104, 4)] fun d => { d with fab := { d.fab with addr := 5, kind := 1 } }), 0, { dest := 5, cls := 3, src := 1, typ := 0x30, hops := 0, len := 16, seq := 0, epoch := 0, time := 0, port := none, stomp := false, msg := .dicReq 1 0x10 0 0 true true [] }, true, true, false, 0, by decide +kernel⟩,
   ⟨(stW [(0x42100000, 0x8001), (0x42100104, 4)] fun d => { d with fab := { d.fab with addr := 5, kind := 1 } }), 0, { dest := 5, cls := 3, src := 1, typ := 0x30, hops := 0, len := 16, seq := 0, epoch := 0, time := 0, port := none, stomp := false, msg := .dicReq 1 0x10 0 0 true true [] }, true, 0, by decide +kernel⟩,
   ⟨(stW [(0x42100000, 0x8001), (0x42100104, 4)] fun d => { d with fab := { d.fab with addr := 5, kind := 1 } }), 0, { dest := 5, cls := 3, src := 1, typ := 0x30, hops := 64, len := 16, seq := 0, epoch := 0, time := 0, port := none, stomp := false, msg := .dicReq 1 0x10 0 0 true true [] }, 0, by decide +kernel⟩,
   ⟨(stW [(0x42100000, 0x8001), (0x42100104, 4)] fun d => ({ d with fab := { d.fab with queue := [⟨0, [0], 1, 0, { dest := 7, cls := 3, src := 1, typ := 0x30, hops := 0, len := 16, seq := 0, epoch := 0, time := 0, port := none, stomp := false, msg := .dicReq 1 0x10 0 0 true true [] }, 0⟩] } }).modCred 0 3 fun c => { c with limit := 5 }), 0, 0, ⟨0, [0], 1, 0, { dest := 7, cls := 3, src := 1, typ := 0x30, hops := 0, len := 16, seq := 0, epoch := 0, time := 0, port := none, stomp := false, msg := .dicReq 1 0x10 0 0 true true [] }, 0⟩, by decide +kernel⟩,
   ⟨(stW [(0x42100000, 0x8001), (0x42100104, 4)] fun d => (({ d with fab := { d.fab with queue := [⟨4, [0], 1, 0, { dest := 0, cls := 0, src := 1, typ := 0x02, hops := 0, len := 16, seq := 0, epoch := 0, time := 0, port := none, stomp := false, msg := .sync ⟨0, 0, 0, 20000, 1, 1⟩ }, 0⟩] } }).modCred 0 0 fun c => { c with limit := 5 }).modStrait 0 fun u => { u with tok0 := 131072 }), 0, 0, ⟨4, [0], 1, 0, { dest := 0, cls := 0, src := 1, typ := 0x02, hops := 0, len := 16, seq := 0, epoch := 0, time := 0, port := none, stomp := false, msg := .sync ⟨0, 0, 0, 20000, 1, 1⟩ }, 0⟩, ⟨0, 0, 0, 20000, 1, 1⟩, by decide +kernel⟩,
   ⟨(stW [(0x42100000, 0x8001), (0x42100104, 4)] fun d => { d with fab := { d.fab with addr := 5, kind := 1 } }), 0, 0, by decide +kernel⟩,
   ⟨(stW [(0x42100000, 0x8001), (0x42100104, 4)] fun d => ({ d with fab := { d.fab with queue := [⟨0, [0], 1, 0, { dest := 7, cls := 3, src := 1, typ := 0x30, hops := 0, len := 16, seq := 0, epoch := 0, time := 0, port := none, stomp := false, msg := .dicReq 1 0x10 0 0 true true [] }, 0⟩] } }).modCred 0 3 fun c => { c with limit := 5 }), 40000001, ⟨0, [0], 1, 0, { dest := 7, cls := 3, src := 1, typ := 0x30, hops := 0, len := 16, seq := 0, epoch := 0, time := 0, port := none, stomp := false, msg := .dicReq 1 0x10 0 0 true true [] }, 0⟩, by decide +kernel⟩,
   ⟨(stW [(0x42100000, 0x8001), (0x42100104, 4)] fun d => ({ d with fab := { d.fab with queue := [⟨0, [0], 1, 0, { dest := 7, cls := 3, src := 1, typ := 0x30, hops := 0, len := 16, seq := 0, epoch := 0, time := 0, port := none, stomp := false, msg := .dicReq 1 0x10 0 0 true true [] }, 0⟩] } }).modCred 0 3 fun c => { c with limit := 5 }), 40000000, ⟨0, [0], 1, 0, { dest := 7, cls := 3, src := 1, typ := 0x30, hops := 0, len := 16, seq := 0, epoch := 0, time := 0, port := none, stomp := false, msg := .dicReq 1 0x10 0 0 true true [] }, 0⟩, by decide +kernel⟩⟩

theorem wit_CreditsAreKept :
    (∃ (s : State) (p c : Fin 4) (limit : BitVec 24), s.dev.coreOn = true ∧ 2 ≤ s.dev.f ⟨0x42100104 + 0x20 * p.val, 0, 3⟩) ∧
    (∃ (s : State) (p c : Fin 4) (limit : BitVec 24), s.dev.coreOn = true ∧ 2 ≤ s.dev.f ⟨0x42100104 + 0x20 * p.val, 0, 3⟩ ∧ s.dev.fab.queue = [] ∧ (s.dev.cred p.val c.val).wait = true) ∧
    (∃ (s : State) (p c : Fin 4) (limit : BitVec 24), s.dev.coreOn = true) ∧
    (∃ (s : State) (p c : Fin 4) (consumed : BitVec 24), s.dev.coreOn = true ∧ 2 ≤ s.dev.f ⟨0x42100104 + 0x20 * p.val, 0, 3⟩) ∧
    (∃ (s : State) (p c : Fin 4) (consumed : BitVec 24), s.dev.coreOn = true) ∧
    (∃ (s : State) (p c : Fin 4) (at_ : Nat), s.dev.coreOn = true ∧ 2 ≤ s.dev.f ⟨0x42100104 + 0x20 * p.val, 0, 3⟩ ∧ (s.dev.fab.queue.all fun q => !q.egress.isEmpty) = true) ∧
    (∃ (s : State) (p c : Fin 4) (at_ : Nat), s.dev.coreOn = true ∧ 2 ≤ s.dev.f ⟨0x42100104 + 0x20 * p.val, 0, 3⟩ ∧ (s.dev.fab.queue.all fun q => !q.egress.isEmpty) = true ∧ s.dev.f ⟨0x42200000 + 0x400 * (16 + 2 * p.val), 10, 2⟩ = 0 ∧ takesData (16 + 2 * p.val) s.dev = true ∧ at_ = 0) ∧
    (∃ (s : State) (p : Fin 4) (at_ : Nat), s.dev.coreOn = true ∧ 2 ≤ s.dev.f ⟨0x42100104 + 0x20 * p.val, 0, 3⟩) ∧
    (∃ (s : State) (p c : Fin 4) (elapsed at_ : Nat), s.dev.coreOn = true ∧ 2 ≤ s.dev.f ⟨0x42100104 + 0x20 * p.val, 0, 3⟩ ∧ s.dev.f ⟨0x42100204, 0, 7⟩ ≤ elapsed ∧ starved p.val c.val s.dev = true ∧ (s.dev.cred p.val c.val).tmo = 0) ∧
    (∃ (s : State) (p c : Fin 4) (elapsed at_ : Nat), s.dev.coreOn = true ∧ 2 ≤ s.dev.f ⟨0x42100104 + 0x20 * p.val, 0, 3⟩ ∧ s.dev.f ⟨0x42100204, 0, 7⟩ ≤ elapsed ∧ starved p.val c.val s.dev = true ∧ (s.dev.cred p.val c.val).tmo ≠ 0) ∧
    (∃ (s : State) (p c : Fin 4) (elapsed at_ : Nat), s.dev.coreOn = true ∧ (starved p.val c.val s.dev = false ∨ elapsed < s.dev.f ⟨0x42100204, 0, 7⟩)) :=
  ⟨⟨(stW [(0x42100000, 0x8001), (0x42100104, 4)] fun d => { d with fab := { d.fab with addr := 5, kind := 1 } }), 0, 3, 9, by decide +kernel⟩,
   ⟨(stW [(0x42100000, 0x8001), (0x42100104, 4)] fun d => d.modCred 0 3 fun c => { c with wait := true, tmo := 1 }), 0, 3, 9, by decide +kernel⟩,
   ⟨stRun, 1, 1, 1, by decide +kernel⟩,
   ⟨(stW [(0x42100000, 0x8001), (0x42100104, 4)] fun d => { d with fab := { d.fab with addr := 5, kind := 1 } }), 0, 3, 9, by decide +kernel⟩,
   ⟨stRun, 1, 1, 1, by decide +kernel⟩,
   ⟨(stW [(0x42100000, 0x8001), (0x42100104, 4)] fun d => { d with fab := { d.fab with addr := 5, kind := 1 } }), 0, 3, 0, by decide +kernel⟩,
   ⟨(stW [(0x42100000, 0x8001), (0x42100104, 4)] fun d => d.setF ⟨0x42204004, 8, 2⟩ 2), 0, 3, 0, by decide +kernel⟩,
   ⟨(stW [(0x42100000, 0x8001), (0x42100104, 4)] fun d => { d with fab := { d.fab with addr := 5, kind := 1 } }), 0, 0, by decide +kernel⟩,
   ⟨(stW [(0x42100000, 0x8001), (0x42100104, 4)] fun d => { d with fab := { d.fab with queue := [⟨0, [0], 1, 0, { dest := 7, cls := 3, src := 1, typ := 0x30, hops := 0, len := 16, seq := 0, epoch := 0, time := 0, port := none, stomp := false, msg := .dicReq 1 0x10 0 0 true true [] }, 0⟩] } }), 0, 3, 10, 0, by decide +kernel⟩,
   ⟨(stW [(0x42100000, 0x8001), (0x42100104, 4)] fun d => ({ d with fab := { d.fab with queue := [⟨0, [0], 1, 0, { dest := 7, cls := 3, src := 1, typ := 0x30, hops := 0, len := 16, seq := 0, epoch := 0, time := 0, port := none, stomp := false, msg := .dicReq 1 0x10 0 0 true true [] }, 0⟩] } }).modCred 0 3 fun c => { c with tmo := 1 }), 0, 3, 10, 0, by decide +kernel⟩,
   ⟨(stW [(0x42100000, 0x8001), (0x42100104, 4)] fun d => { d with fab := { d.fab with addr := 5, kind := 1 } }), 0, 3, 10, 0, by decide +kernel⟩⟩

theorem wit_CaptureSetsRun :
    (∃ (s : State) (j : Fin 8), s.dev.coreOn = true ∧ s.dev.f ⟨0x42100410 + 0x20 * j.val, 0, 3⟩ = 0 ∧ capTotal j.val s.dev ≤ capBuf j.val s.dev) ∧
    (∃ (s : State) (j : Fin 8), s.dev.coreOn = true ∧ (s.dev.f ⟨0x42100410 + 0x20 * j.val, 0, 3⟩ ≠ 0 ∨ capBuf j.val s.dev < capTotal j.val s.dev)) ∧
    (∃ (s : State) (j : Fin 8), s.dev.coreOn = true ∧ s.dev.f ⟨0x42100410 + 0x20 * j.val, 0, 3⟩ = 1) ∧
    (∃ (s : State) (j : Fin 8), s.dev.coreOn = true ∧ (s.dev.f ⟨0x42100410 + 0x20 * j.val, 0, 3⟩ = 2 ∨ s.dev.f ⟨0x42100410 + 0x20 * j.val, 0, 3⟩ = 3)) ∧
    (∃ (s : State) (j : Fin 8), s.dev.coreOn = true ∧ s.dev.f ⟨0x42100410 + 0x20 * j.val, 0, 3⟩ = 0) ∧
    (∃ (s : State) (j : Fin 8), s.dev.coreOn = true) ∧
    (∃ (s : State) (j : Fin 8) (k : BitVec 48) (epoch : BitVec 16), s.dev.coreOn = true ∧ epoch.toNat = s.dev.tide.epoch ∧ s.dev.f ⟨0x42100400 + 0x20 * j.val, 3, 3⟩ = 5 ∧ s.dev.f ⟨0x42100410 + 0x20 * j.val, 0, 3⟩ = 1 ∧ s.dev.f ⟨0x42100404 + 0x20 * j.val, 0, 16⟩ = 0 ∧ s.dev.tide.k < k.toNat + s.dev.f ⟨0x42100404 + 0x20 * j.val, 16, 16⟩) ∧
    (∃ (s : State) (k : BitVec 48) (epoch : BitVec 16), s.dev.coreOn = true ∧ epoch.toNat ≠ s.dev.tide.epoch ∧ s.dev.fab.queue = []) ∧
    (∃ (s : State) (j : Fin 8), s.dev.coreOn = true ∧ s.dev.f ⟨0x42100410 + 0x20 * j.val, 0, 3⟩ = 2 ∧ ((s.dev.cap j.val).recs.any fun r => capKt j.val s.dev + s.dev.f ⟨0x42100404 + 0x20 * j.val, 16, 16⟩ ≤ r.tick + 1) = true) ∧
    (∃ (s : State) (j : Fin 8), s.dev.coreOn = true ∧ s.dev.f ⟨0x42100410 + 0x20 * j.val, 0, 3⟩ ≠ 2) ∧
    (∃ (s : State) (j : Fin 8) (at_ : Nat), s.dev.coreOn = true ∧ s.dev.f ⟨0x42100410 + 0x20 * j.val, 0, 3⟩ = 3 ∧ s.dev.f ⟨0x42100408 + 0x20 * j.val, 0, 12⟩ ≠ 0 ∧ (s.dev.cap j.val).sent = 0 ∧ s.dev.f ⟨0x4210041C + 0x20 * j.val, 0, 32⟩ = 0 ∧ 1 ≤ s.dev.f ⟨0x42100408 + 0x20 * j.val, 16, 7⟩ ∧ s.dev.f ⟨0x42100410 + 0x20 * j.val, 10, 1⟩ = 0 ∧ 0 < (capBytes (s.dev.cap j.val)).length ∧ (s.dev.cap j.val).due ≤ s.dev.tide.abs + at_) ∧
    (∃ (s : State) (j : Fin 8) (bytes : Nat), s.dev.coreOn = true ∧ s.dev.f ⟨0x42100410 + 0x20 * j.val, 0, 3⟩ = 3 ∧ bytes ≤ (s.dev.cap j.val).sent ∧ s.dev.f ⟨0x4210041C + 0x20 * j.val, 0, 32⟩ < bytes ∧ bytes < 2 ^ 32 ∧ s.dev.fab.queue = []) ∧
    (∃ (s : State) (j : Fin 8), s.dev.coreOn = true ∧ s.dev.f ⟨0x42100410 + 0x20 * j.val, 0, 3⟩ = 3 ∧ s.dev.f ⟨0x4210041C + 0x20 * j.val, 0, 32⟩ < (s.dev.cap j.val).sent ∧ s.dev.f ⟨0x42100410 + 0x20 * j.val, 10, 1⟩ = 0 ∧ (s.dev.cap j.val).resends < 8) ∧
    (∃ (s : State) (j : Fin 8), s.dev.coreOn = true ∧ s.dev.f ⟨0x42100410 + 0x20 * j.val, 0, 3⟩ = 3 ∧ s.dev.f ⟨0x4210041C + 0x20 * j.val, 0, 32⟩ < (s.dev.cap j.val).sent ∧ 8 ≤ (s.dev.cap j.val).resends) :=
  ⟨⟨(stW []), 0, by decide +kernel⟩,
   ⟨(stW [(0x42100410, 2)]), 0, by decide +kernel⟩,
   ⟨(stW [(0x42100410, 1)]), 0, by decide +kernel⟩,
   ⟨(stW [(0x42100410, 3)]), 0, by decide +kernel⟩,
   ⟨(stW []), 0, by decide +kernel⟩,
   ⟨stRun, 1, by decide +kernel⟩,
   ⟨(stW [(0x42100400, 0x28), (0x42100410, 1)]), 0, 1, 0, by decide +kernel⟩,
   ⟨(stW []), 1, 1, by decide +kernel⟩,
   ⟨(stW [(0x42100410, 2)] fun d => d.setCap 0 { recs := [⟨0, false, [1]⟩] }), 0, by decide +kernel⟩,
   ⟨(stW [(0x42100410, 1)]), 0, by decide +kernel⟩,
   ⟨(stW [(0x42100410, 3), (0x42100408, 0x04080007)] fun d => d.setCap 0 { recs := [⟨0, false, [1]⟩] }), 0, 0, by decide +kernel⟩,
   ⟨(stW [(0x42100410, 3)] fun d => d.setCap 0 { sent := 496, resends := 3 }), 0, 496, by decide +kernel⟩,
   ⟨(stW [(0x42100410, 3)] fun d => d.setCap 0 { sent := 496, resends := 7 }), 0, by decide +kernel⟩,
   ⟨(stW [(0x42100410, 3)] fun d => d.setCap 0 { sent := 496, resends := 8 }), 0, by decide +kernel⟩⟩

theorem wit_RemoteRequestsAreServed :
    (∃ (s : State) (src : BitVec 12) (id at_ : Nat), s.dev.coreOn = true ∧ hostUp s.dev = true ∧ s.dev.fab.queue = [] ∧ s.dev.fab.parts = [] ∧ s.dev.fab.replies = [] ∧ s.dev.host.asker = none ∧ s.dev.host.txs = [] ∧ s.dev.pow.after = 0) ∧
    (∃ (s : State) (src : BitVec 12) (id at_ : Nat) (r : StoredReply), s.dev.coreOn = true ∧ hostUp s.dev = true ∧ s.dev.fab.queue = [] ∧ s.dev.fab.parts = [] ∧ s.dev.fab.replies = [r] ∧ r.addr = src.toNat ∧ r.id = id ∧ s.dev.tide.abs + at_ < r.at_ + 4000000000) ∧
    (∃ (s : State) (src : BitVec 12) (id typ tx seq at_ : Nat) (first last : Bool) (body : List Byte), s.dev.coreOn = true ∧ s.dev.fab.queue = []) ∧
    (∃ (s : State) (src : BitVec 12) (id typ tx at_ : Nat) (body : List Byte), s.dev.coreOn = true ∧ hostUp s.dev = true ∧ typ ≠ 0 ∧ s.dev.fab.queue = [] ∧ s.dev.fab.parts = []) ∧
    (∃ (s : State) (src : BitVec 12) (id : Nat) (body : List Byte) (r : RemoteU), s.dev.coreOn = true ∧ hostUp s.dev = true ∧ s.dev.fab.queue = [] ∧ s.dev.fab.parts = [] ∧ s.dev.host.remote = [r] ∧ r.id = id ∧ r.target = src.toNat) ∧
    (∃ (s : State) (src : BitVec 12) (elapsed : Nat) (p : Partial), s.dev.coreOn = true ∧ s.dev.fab.parts = [p] ∧ p.src = src.toNat ∧ p.typ ≠ 0 ∧ 100 < elapsed) ∧
    (∃ (s : State) (src : BitVec 12) (reply : Bool) (elapsed : Nat), s.dev.coreOn = true ∧ elapsed ≤ 100) :=
  ⟨⟨(stW [(0x42100000, 0x8001)]), 5, 1, 0, by decide +kernel⟩,
   ⟨(stW [(0x42100000, 0x8001)] fun d => { d with fab := { d.fab with replies := [⟨5, 1, 0, [0, 0, 0, 0]⟩] } }), 5, 1, 0, ⟨5, 1, 0, [0, 0, 0, 0]⟩, by decide +kernel⟩,
   ⟨stRun, 5, 1, 0x10, 0, 0, 0, true, true, [], by decide +kernel⟩,
   ⟨(stW [(0x42100000, 0x8001)]), 5, 1, 0x11, 0, 0, [1], by decide +kernel⟩,
   ⟨(stW [(0x42100000, 0x8001)] fun d => { d with host := { d.host with remote := [⟨1, 9, 2, 0x10, 0, 5⟩] } }), 5, 1, [0, 0, 0, 0], ⟨1, 9, 2, 0x10, 0, 5⟩, by decide +kernel⟩,
   ⟨(stW [(0x42100000, 0x8001)] fun d => { d with fab := { d.fab with parts := [⟨5, 1, 0x11, 0, [1], 1⟩] } }), 5, 101, ⟨5, 1, 0x11, 0, [1], 1⟩, by decide +kernel⟩,
   ⟨stRun, 5, false, 100, by decide +kernel⟩⟩

theorem wit_PairsFollowTheirHeartbeats :
    (∃ (s : State) (h : Heartbeat), s.dev.coreOn = true ∧ s.dev.f ⟨0x47000000, 0, 1⟩ = 1 ∧ (pairPort s.dev).isSome = true ∧ (h.tick = s.dev.tide.k ∨ h.tick + 1 = s.dev.tide.k) ∧ h.side ≠ s.dev.f ⟨0x47000000, 1, 1⟩) ∧
    (∃ (s : State) (h : Heartbeat), s.dev.coreOn = true ∧ s.dev.f ⟨0x47000000, 0, 1⟩ = 1 ∧ (pairPort s.dev).isSome = true ∧ (h.tick = s.dev.tide.k ∨ h.tick + 1 = s.dev.tide.k) ∧ h.side = s.dev.f ⟨0x47000000, 1, 1⟩) ∧
    (∃ (s : State) (h : Heartbeat) (crcOk : Bool), s.dev.coreOn = true ∧ (crcOk = false ∨ s.dev.f ⟨0x47000000, 0, 1⟩ = 0 ∨ ¬ (h.tick = s.dev.tide.k ∨ h.tick + 1 = s.dev.tide.k))) ∧
    (∃ (s : State) (tick first : Nat) (digests : List Nat) (i : Fin 64), s.dev.coreOn = true ∧ s.dev.red.paired = true ∧ s.dev.f ⟨0x40010004, 0, 3⟩ = 3 ∧ first % 64 = 0 ∧ first ≤ 192 ∧ tick + 1 = s.dev.tide.k ∧ tick = s.dev.red.digTick ∧ digests.getD i.val 0 ≠ 0 ∧ tget (fun _ => 0) s.dev.red.digests (first + i.val) ≠ 0 ∧ digests.getD i.val 0 ≠ tget (fun _ => 0) s.dev.red.digests (first + i.val) ∧ tget (fun _ => 0) s.dev.red.bad (first + i.val) = 1) ∧
    (∃ (s : State) (tick first : Nat) (digests : List Nat) (i : Fin 64), s.dev.coreOn = true ∧ s.dev.red.paired = true ∧ s.dev.f ⟨0x40010004, 0, 3⟩ = 3 ∧ first % 64 = 0 ∧ first ≤ 192 ∧ tick + 1 = s.dev.tide.k ∧ tick = s.dev.red.digTick ∧ digests.getD i.val 0 ≠ 0 ∧ digests.getD i.val 0 = tget (fun _ => 0) s.dev.red.digests (first + i.val) ∧ tget (fun _ => 0) s.dev.red.good (first + i.val) = 3) ∧
    (∃ (s : State) (tick first : Nat) (digests : List Nat) (crcOk : Bool), s.dev.coreOn = true ∧ ((∀ x ∈ digests, x = 0) ∨ crcOk = false ∨ s.dev.red.paired = false ∨ first % 64 ≠ 0 ∨ tick + 1 ≠ s.dev.tide.k)) ∧
    (∃ (s : State), s.dev.coreOn = true) :=
  ⟨⟨(stW [(0x47000000, 9), (0x42100164, 0xC4), (0x40010004, 3)] fun d => { d with red := {  } }), ⟨0, 4, true, false, false, false, true, 1, [], []⟩, by decide +kernel⟩,
   ⟨(stW [(0x47000000, 9), (0x42100164, 0xC4), (0x40010004, 3)] fun d => { d with red := { paired := true } }), ⟨0, 4, true, false, false, false, true, 0, [], []⟩, by decide +kernel⟩,
   ⟨(stW [(0x47000000, 9), (0x42100164, 0xC4), (0x40010004, 3)] fun d => { d with red := { paired := true } }), ⟨2, 4, true, false, false, false, true, 1, [], []⟩, true, by decide +kernel⟩,
   ⟨(stW [(0x47000000, 9), (0x42100164, 0xC4), (0x40010004, 3)] fun d => { d with red := { paired := true, digTick := 8, digests := [(65, 7)], bad := [(65, 1)] }, tide := { k := 9 } }), 8, 64, [0, 6], 1, by decide +kernel⟩,
   ⟨(stW [(0x47000000, 9), (0x42100164, 0xC4), (0x40010004, 3), (0x47000028, 2)] fun d => { d with red := { paired := true, digTick := 8, digests := [(65, 7)], good := [(65, 3)] }, tide := { k := 9 } }), 8, 64, [0, 7], 1, by decide +kernel⟩,
   ⟨(stW [(0x47000000, 9), (0x42100164, 0xC4), (0x40010004, 3)] fun d => { d with red := { paired := true, digests := [(65, 7)] }, tide := { k := 1 } }), 0, 64, [0, 0], true, by decide +kernel⟩,
   ⟨stRun, by decide +kernel⟩⟩

theorem wit_LossOfThePartnerIsDeclared :
    (∃ (s : State) (h : Heartbeat), s.dev.coreOn = true ∧ s.dev.red.paired = true ∧ s.dev.red.lost = false ∧ s.dev.red.aliveQuiet = 2 ∧ s.dev.red.hbQuiet = 2 ∧ s.dev.red.hb = some h ∧ h.run = true ∧ takeReady 0 s.dev = true) ∧
    (∃ (s : State) (h : Heartbeat), s.dev.coreOn = true ∧ s.dev.red.paired = true ∧ s.dev.red.lost = false ∧ s.dev.red.aliveQuiet = 2 ∧ s.dev.red.hbQuiet = 2 ∧ s.dev.red.hb = some h ∧ h.run = true ∧ takeReady 0 s.dev = false ∧ s.dev.f ⟨0x40010004, 0, 3⟩ = 3) ∧
    (∃ (s : State), s.dev.coreOn = true ∧ s.dev.red.paired = true ∧ s.dev.red.lost = false ∧ (s.dev.red.relNow = true ∨ (s.dev.red.aliveQuiet = 2 ∧ s.dev.red.hbQuiet = 2)) ∧ s.dev.f ⟨0x40010004, 0, 3⟩ = 4) ∧
    (∃ (s : State), s.dev.coreOn = true ∧ s.dev.red.paired = true ∧ s.dev.red.lost = false ∧ s.dev.red.relNow = false ∧ s.dev.red.aliveQuiet = 2 ∧ s.dev.red.hbQuiet < 2 ∧ s.dev.red.degr = false) ∧
    (∃ (s : State), s.dev.coreOn = true ∧ s.dev.red.paired = true ∧ s.dev.red.lost = false ∧ s.dev.red.relNow = false ∧ s.dev.red.aliveQuiet < 2 ∧ s.dev.red.hbQuiet < 2) :=
  ⟨⟨(stW [(0x47000000, 9), (0x42100164, 0xC4), (0x40010004, 3)] fun d => { d with red := { paired := true, aliveQuiet := 2, hbQuiet := 2, hb := some ⟨0, 4, true, false, false, false, true, 1, [], []⟩, mirAt := some 0 } }), ⟨0, 4, true, false, false, false, true, 1, [], []⟩, by decide +kernel⟩,
   ⟨(stW [(0x47000000, 9), (0x42100164, 0xC4), (0x40010004, 3)] fun d => { d with red := { paired := true, aliveQuiet := 2, hbQuiet := 2, hb := some ⟨0, 4, true, false, false, false, true, 1, [], []⟩ } }), ⟨0, 4, true, false, false, false, true, 1, [], []⟩, by decide +kernel⟩,
   ⟨(stW [(0x47000000, 9), (0x42100164, 0xC4), (0x40010004, 4)] fun d => { d with red := { paired := true, aliveQuiet := 2, hbQuiet := 2 } }), by decide +kernel⟩,
   ⟨(stW [(0x47000000, 9), (0x42100164, 0xC4), (0x40010004, 4)] fun d => { d with red := { paired := true, aliveQuiet := 2 } }), by decide +kernel⟩,
   ⟨(stW [(0x47000000, 9), (0x42100164, 0xC4), (0x40010004, 4)] fun d => { d with red := { paired := true } }), by decide +kernel⟩⟩

theorem wit_TheMirrorFlows :
    (∃ (s : State) (at_ : Nat), s.dev.coreOn = true ∧ s.dev.red.paired = true ∧ s.dev.f ⟨0x40010004, 0, 3⟩ = 3 ∧ s.dev.pow.restart = false) ∧
    (∃ (s : State) (items : List MirItem) (crcOk : Bool) (at_ : Nat), s.dev.coreOn = true ∧ (crcOk = false ∨ s.dev.red.paired = false ∨ s.dev.f ⟨0x40010004, 0, 3⟩ ≠ 3 ∨ s.dev.pow.restart = true)) ∧
    (∃ (s : State) (at_ : Nat) (x : MirItem) (l : List MirItem), s.dev.coreOn = true ∧ s.dev.red.paired = true ∧ s.dev.f ⟨0x40010004, 0, 3⟩ = 4 ∧ s.dev.pow.restart = false ∧ s.dev.red.mirOut = x :: l ∧ (pairPort s.dev).isSome = true) ∧
    (∃ (s : State) (at_ : Nat), s.dev.coreOn = true ∧ s.dev.red.paired = true ∧ s.dev.f ⟨0x40010004, 0, 3⟩ = 4 ∧ s.dev.pow.restart = false ∧ s.dev.red.mirOut = [] ∧ s.dev.red.mirSent + 4000000 ≤ s.dev.tide.abs + at_ ∧ (pairPort s.dev).isSome = true) ∧
    (∃ (s : State) (at_ : Nat), s.dev.coreOn = true ∧ s.dev.red.mirOut = [] ∧ s.dev.tide.abs + at_ < s.dev.red.mirSent + 4000000) ∧
    (∃ (s : State) (at_ m : Nat), s.dev.coreOn = true ∧ s.dev.red.mirAt = some m ∧ m + 400000 * (s.dev.f ⟨0x47000014, 0, 13⟩ + 1) ≤ s.dev.tide.abs + at_) :=
  ⟨⟨(stW [(0x47000000, 9), (0x42100164, 0xC4), (0x40010004, 3)] fun d => { d with red := { paired := true } }), 5, by decide +kernel⟩,
   ⟨(stW [(0x47000000, 9), (0x42100164, 0xC4), (0x40010004, 4)] fun d => { d with red := { paired := true } }), [.commit 1 8], true, 5, by decide +kernel⟩,
   ⟨(stW [(0x47000000, 9), (0x42100164, 0xC4), (0x40010004, 4)] fun d => { d with red := { paired := true, mirOut := [.commit 1 8] } }), 5, (.commit 1 8), [], by decide +kernel⟩,
   ⟨(stW [(0x47000000, 9), (0x42100164, 0xC4), (0x40010004, 4)] fun d => { d with red := { paired := true } }), 4000000, by decide +kernel⟩,
   ⟨(stW [(0x47000000, 9), (0x42100164, 0xC4), (0x40010004, 4)] fun d => { d with red := { paired := true } }), 3999999, by decide +kernel⟩,
   ⟨(stW [(0x47000000, 9), (0x42100164, 0xC4), (0x40010004, 3)] fun d => { d with red := { paired := true, mirAt := some 0 } }), 40400000, 0, by decide +kernel⟩⟩

theorem wit_ControlIsHandedBack :
    (∃ (s : State) (h0 : Nat), s.dev.coreOn = true ∧ s.dev.red.hold = some h0 ∧ revertFree s.dev = true ∧ s.dev.red.asked = none ∧ h0 + 400000000 * s.dev.f ⟨0x47000010, 0, 12⟩ ≤ s.dev.tide.abs) ∧
    (∃ (s : State) (h0 : Nat), s.dev.coreOn = true ∧ s.dev.red.hold = some h0 ∧ (revertFree s.dev = false ∨ s.dev.tide.abs < h0 + 400000000 * s.dev.f ⟨0x47000010, 0, 12⟩)) ∧
    (∃ (s : State) (kh : BitVec 48), s.dev.coreOn = true ∧ s.dev.red.paired = true ∧ s.dev.f ⟨0x40010004, 0, 3⟩ = 4 ∧ s.dev.tide.k + 2 ≤ kh.toNat ∧ s.dev.f ⟨0x4700001C, 3, 1⟩ = 0 ∧ stringsBusy s.dev = false ∧ s.dev.red.kh = none ∧ s.dev.red.kd = none) ∧
    (∃ (s : State) (kh : BitVec 48) (crcOk : Bool), s.dev.coreOn = true ∧ (crcOk = false ∨ kh.toNat < s.dev.tide.k + 2 ∨ s.dev.f ⟨0x4700001C, 3, 1⟩ = 1 ∨ stringsBusy s.dev = true)) ∧
    (∃ (s : State) (kh : BitVec 48), s.dev.coreOn = true ∧ s.dev.red.paired = true ∧ s.dev.f ⟨0x40010004, 0, 3⟩ = 3 ∧ s.dev.red.kh = none ∧ s.dev.red.asked = some kh.toNat) ∧
    (∃ (s : State) (kh : Nat), s.dev.coreOn = true ∧ s.dev.red.asked = some kh ∧ kh ≤ s.dev.tide.k + 1) ∧
    (∃ (s : State) (h : Heartbeat), s.dev.coreOn = true ∧ s.dev.red.paired = true ∧ s.dev.f ⟨0x40010004, 0, 3⟩ = 4 ∧ s.dev.red.lost = false ∧ s.dev.red.hb = some h ∧ h.takeReady = true ∧ s.dev.red.kh = none ∧ s.dev.red.kd = none ∧ s.dev.red.asked = none) ∧
    (∃ (s : State), s.dev.coreOn = true ∧ (s.dev.f ⟨0x40010004, 0, 3⟩ ≠ 4 ∨ s.dev.red.paired = false ∨ s.dev.red.lost = true)) :=
  ⟨⟨(stW [(0x47000000, 9), (0x42100164, 0xC4), (0x40010004, 3), (0x47000010, 60), (0x4700001C, 8)] fun d => { d with red := { paired := true, hold := some 0, hb := some ⟨0, 4, true, false, false, false, true, 1, [], []⟩, mirAt := some 24000000000 }, tide := { abs := 24000000000 } }), 0, by decide +kernel⟩,
   ⟨(stW [(0x47000000, 9), (0x42100164, 0xC4), (0x40010004, 3), (0x47000010, 60)] fun d => { d with red := { hold := some 0 } }), 0, by decide +kernel⟩,
   ⟨(stW [(0x47000000, 9), (0x42100164, 0xC4), (0x40010004, 4)] fun d => { d with red := { paired := true } }), 2, by decide +kernel⟩,
   ⟨(stW [(0x47000000, 9), (0x42100164, 0xC4), (0x40010004, 4)] fun d => { d with red := { paired := true } }), 1, true, by decide +kernel⟩,
   ⟨(stW [(0x47000000, 9), (0x42100164, 0xC4), (0x40010004, 3)] fun d => { d with red := { paired := true, asked := some 4 } }), 4, by decide +kernel⟩,
   ⟨(stW [(0x47000000, 9), (0x42100164, 0xC4), (0x40010004, 3)] fun d => { d with red := { asked := some 1 } }), 1, by decide +kernel⟩,
   ⟨(stW [(0x47000000, 9), (0x42100164, 0xC4), (0x40010004, 4)] fun d => { d with red := { paired := true, hb := some ⟨0, 3, false, false, false, false, true, 1, [], []⟩ } }), ⟨0, 3, false, false, false, false, true, 1, [], []⟩, by decide +kernel⟩,
   ⟨(stW [(0x47000000, 9), (0x42100164, 0xC4), (0x40010004, 3)] fun d => { d with red := { paired := true } }), by decide +kernel⟩⟩

theorem wit_SafetyInputsStopThePorts :
    (∃ (s : State) (ch : Bool) (i : Fin 8) (b lvl : Bool), s.dev.coreOn = true ∧ (s.dev.chan ch).lvl.testBit (if b then 8 + i.val else i.val) ≠ lvl ∧ contactDemand s.dev i.val b lvl = true) ∧
    (∃ (s : State) (ch : Bool) (i : Fin 8) (b lvl : Bool), s.dev.coreOn = true ∧ (s.dev.chan ch).lvl.testBit (if b then 8 + i.val else i.val) = lvl) ∧
    (∃ (s : State) (ch : Bool) (i : Fin 8) (elapsed : Nat), s.dev.coreOn = true ∧ (s.dev.chan ch).win.testBit i.val = true ∧ s.dev.saf.spb ≠ [] ∧ 2 * spbPair s.dev i.val 3 ≤ elapsed) ∧
    (∃ (s : State) (ch : Bool) (i : Fin 8) (elapsed : Nat), s.dev.coreOn = true ∧ ((s.dev.chan ch).win.testBit i.val = false ∨ (s.dev.saf.spb ≠ [] ∧ elapsed < 2 * spbPair s.dev i.val 3))) ∧
    (∃ (s : State) (mask : BitVec 4) (p : Fin 4), s.dev.coreOn = true ∧ mask.getLsbD p.val = true ∧ spbFlag s.dev p.val 4 = true ∧ spbFlag s.dev p.val 0 = true ∧ s.dev.saf.spb ≠ [] ∧ s.dev.saf.hot = false ∧ stopReq s.dev s.dev.saf.a p.val = 0 ∧ stopReq s.dev s.dev.saf.b p.val = 0) ∧
    (∃ (s : State) (mask : BitVec 4) (p : Fin 4), s.dev.coreOn = true ∧ stopReq s.dev s.dev.saf.a p.val = 2 ∧ stopReq s.dev s.dev.saf.b p.val = 2) ∧
    (∃ (s : State) (ch : Bool) (p : Fin 4) (elapsed : Nat), s.dev.coreOn = true ∧ (s.dev.chan ch).ss1.testBit p.val = true ∧ ss1Asked s.dev (s.dev.chan ch) p.val = true ∧ spbPort s.dev p.val 2 2 ≤ elapsed) ∧
    (∃ (s : State) (ch : Bool) (p : Fin 4) (elapsed : Nat), s.dev.coreOn = true ∧ ((s.dev.chan ch).ss1.testBit p.val = false ∨ elapsed < spbPort s.dev p.val 2 2)) :=
  ⟨⟨(stW [] fun d => { d with saf := { d.saf with a := { lvl := 1 }, spb := spbOf [(84, 1), (85, 15)] } }), false, 0, false, false, by decide +kernel⟩,
   ⟨stRun, true, 7, true, false, by decide +kernel⟩,
   ⟨(stW [] fun d => { d with saf := { d.saf with b := { win := 128 }, spb := spbOf [(115, 250)] } }), true, 7, 500, by decide +kernel⟩,
   ⟨(stW [] fun d => { d with saf := { d.saf with b := { win := 128 }, spb := spbOf [(115, 250)] } }), true, 7, 499, by decide +kernel⟩,
   ⟨(stW [] fun d => { d with saf := { d.saf with spb := spbOf [(132, 17)] } }), 2, 1, by decide +kernel⟩,
   ⟨(stW [(0x4400000C, 1)] fun d => { d with saf := { d.saf with spb := spbOf [(132, 17)] } }), 2, 1, by decide +kernel⟩,
   ⟨(stW [] fun d => { d with saf := { d.saf with a := { ss1 := 1, demand := 1 }, spb := spbOf [(84, 2), (85, 1), (116, 1), (118, 100)] } }), false, 0, 100, by decide +kernel⟩,
   ⟨(stW [] fun d => { d with saf := { d.saf with a := { ss1 := 1, demand := 1 }, spb := spbOf [(84, 2), (85, 1), (116, 1), (118, 100)] } }), false, 0, 99, by decide +kernel⟩⟩

theorem wit_DiagnosticsStopEveryPort :
    (∃ (s : State) (ch : Bool) (p : Fin 4), s.dev.coreOn = true ∧ s.dev.domOn 3 = true ∧ (s.dev.chan ch).out.testBit p.val = true) ∧
    (∃ (s : State) (ch : Bool) (p : Fin 4), s.dev.coreOn = true) ∧
    (∃ (s : State) (elapsed : Nat), s.dev.coreOn = true ∧ s.dev.domOn 3 = true ∧ 1000 < elapsed) ∧
    (∃ (s : State) (elapsed : Nat), s.dev.coreOn = true ∧ elapsed ≤ 1000) ∧
    (∃ (s : State) (elapsed : Nat), s.dev.coreOn = true ∧ s.dev.domOn 3 = true ∧ channelsDiffer s.dev = true ∧ 10 ≤ elapsed) ∧
    (∃ (s : State) (elapsed : Nat), s.dev.coreOn = true ∧ (channelsDiffer s.dev = false ∨ elapsed < 10)) ∧
    (∃ (s : State) (elapsed : Nat), s.dev.coreOn = true ∧ s.dev.domOn 3 = true ∧ 2 ≤ elapsed) ∧
    (∃ (s : State) (elapsed : Nat), s.dev.coreOn = true ∧ elapsed < 2) ∧
    (∃ (s : State), s.dev.coreOn = true ∧ s.dev.domOn 3 = true) ∧
    (∃ (s : State), s.dev.coreOn = true) ∧
    (∃ (s : State), s.dev.coreOn = true ∧ s.dev.domOn 3 = true) ∧
    (∃ (s : State) (p : Fin 4) (elapsed : Nat), s.dev.coreOn = true ∧ s.dev.saf.spb ≠ [] ∧ slsOn s.dev s.dev.saf.a p.val = true ∧ (encValid (spbPort s.dev p.val 1 1) s.dev = false ∨ spbPort s.dev p.val 8 2 * (16 * spbPort s.dev p.val 12 4) < portSpeed s.dev p.val * 600)) ∧
    (∃ (s : State) (p : Fin 4) (elapsed : Nat), s.dev.coreOn = true ∧ s.dev.saf.spb = []) ∧
    (∃ (s : State) (p : Fin 4) (edges : Nat), s.dev.coreOn = true ∧ slsOn s.dev s.dev.saf.b p.val = true ∧ spbPort s.dev p.val 10 1 < edges) ∧
    (∃ (s : State) (p : Fin 4) (edges : Nat), s.dev.coreOn = true ∧ edges ≤ spbPort s.dev p.val 10 1 ∧ s.dev.saf.b.viol.testBit p.val = true) ∧
    (∃ (s : State) (p : Fin 4) (edges : Nat), s.dev.coreOn = true ∧ edges ≤ spbPort s.dev p.val 10 1 ∧ s.dev.saf.b.viol.testBit p.val = false) :=
  ⟨⟨(stW [] fun d => { d with saf := { d.saf with a := { out := 1 } } }), false, 0, by decide +kernel⟩,
   ⟨stRun, true, 1, by decide +kernel⟩,
   ⟨stRun, 1001, by decide +kernel⟩,
   ⟨stRun, 1000, by decide +kernel⟩,
   ⟨(stW [] fun d => { d with saf := { d.saf with a := { demand := 1 } } }), 10, by decide +kernel⟩,
   ⟨stRun, 10, by decide +kernel⟩,
   ⟨stRun, 2, by decide +kernel⟩,
   ⟨stRun, 1, by decide +kernel⟩,
   ⟨stRun, by decide +kernel⟩,
   ⟨stRun, by decide +kernel⟩,
   ⟨stRun, by decide +kernel⟩,
   ⟨(stW [] fun d => { d with saf := { d.saf with spb := spbOf [(116, 3)] } }), 0, 0, by decide +kernel⟩,
   ⟨stRun, 0, 0, by decide +kernel⟩,
   ⟨(stW [] fun d => { d with saf := { d.saf with spb := spbOf [(116, 3), (126, 22)] } }), 0, 23, by decide +kernel⟩,
   ⟨(stW [] fun d => { d with saf := { d.saf with spb := spbOf [(116, 3), (126, 22)], b := { viol := 1 } } }), 0, 22, by decide +kernel⟩,
   ⟨(stW [] fun d => { d with saf := { d.saf with spb := spbOf [(116, 3), (126, 22)] } }), 0, 22, by decide +kernel⟩⟩

theorem wit_TheProtectionSetUpIsConfirmed :
    (∃ (s : State) (l : List Byte), s.dev.coreOn = true ∧ s.dev.mode = 2 ∧ l.length = 192) ∧
    (∃ (s : State) (l : List Byte), s.dev.coreOn = true ∧ (s.dev.mode ≠ 2 ∨ l.length ≠ 192)) ∧
    (∃ (s : State) (o : Origin) (v : Word), s.dev.coreOn = true ∧ confirmRefusal v s.dev ≠ 0 ∧ s.dev.saf.burn = none) ∧
    (∃ (s : State) (o : Origin) (v : Word) (l : List Byte) (b : Nat), s.dev.coreOn = true ∧ confirmRefusal v s.dev = 0 ∧ s.dev.saf.staged = some l ∧ freeBank s.dev = some b) ∧
    (∃ (s : State) (taken img : List Byte) (b q : Nat), s.dev.saf.burn = some (img, b, q)) ∧
    (∃ (s : State) (taken : List Byte), s.dev.saf.burn = none) ∧
    (∃ (s : State) (elapsed : Nat), s.dev.coreOn = true ∧ mvBelow s.dev = true ∧ leAt s.dev.saf.spb 71 1 ≤ elapsed) ∧
    (∃ (s : State) (elapsed : Nat), s.dev.coreOn = true ∧ (mvBelow s.dev = false ∨ elapsed < leAt s.dev.saf.spb 71 1)) ∧
    (∃ (s : State) (mask : Word), s.dev.coreOn = true) :=
  ⟨⟨stMode 2, (spbOf []), by decide +kernel⟩,
   ⟨stRun, (spbOf []), by decide +kernel⟩,
   ⟨stRun, ⟨1, 1⟩, 7, by decide +kernel⟩,
   ⟨stConfirm, ⟨0, 0⟩, BitVec.ofNat 32 (crc32c spbMin), spbMin, 0, by decide +kernel, confirm_ok, rfl, by decide +kernel⟩,
   ⟨(stW [] fun d => { d with saf := { d.saf with burn := some ([1], 0, 0) } }), [1], [1], 0, 0, by decide +kernel⟩,
   ⟨stRun, [1], by decide +kernel⟩,
   ⟨(stW [] fun d => { d with saf := { d.saf with spb := spbOf [(70, 3), (71, 5), (73, 1)] } }), 5, by decide +kernel⟩,
   ⟨(stW [] fun d => { d with saf := { d.saf with spb := spbOf [(70, 3), (71, 5), (73, 1)] } }), 4, by decide +kernel⟩,
   ⟨stRun, 5, by decide +kernel⟩⟩

theorem wit_PortsChangeStateAsTheirTableSays :
    (∃ (s : State) (p : Fin 4), s.dev.coreOn = true ∧ (1 ≤ s.dev.f ⟨0x43000004 + 0x100 * p.val, 0, 3⟩ ∧ s.dev.f ⟨0x43000004 + 0x100 * p.val, 0, 3⟩ ≤ 3)) ∧
    (∃ (s : State) (p : Fin 4) (n : Nat), s.dev.coreOn = true ∧ s.dev.f ⟨0x43000004 + 0x100 * p.val, 0, 3⟩ = 0 ∧ s.dev.f ⟨0x43000004 + 0x100 * p.val, 3, 1⟩ = 0 ∧ s.dev.mode = 4 ∧ portIsle p.val s.dev = some n ∧ (s.dev.isle n).istate ≠ 0 ∧ tripActive p.val 0 s.dev = false ∧ tripActive p.val 1 s.dev = false ∧ portRun p.val s.dev = false) ∧
    (∃ (s : State) (p : Fin 4), s.dev.coreOn = true ∧ s.dev.f ⟨0x43000004 + 0x100 * p.val, 0, 3⟩ = 0 ∧ (s.dev.f ⟨0x43000004 + 0x100 * p.val, 3, 1⟩ = 1 ∨ s.dev.mode ≠ 4 ∨ portIsle p.val s.dev = none)) ∧
    (∃ (s : State) (p : Fin 4), s.dev.coreOn = true ∧ s.dev.f ⟨0x43000004 + 0x100 * p.val, 0, 3⟩ = 4) ∧
    (∃ (s : State) (p : Fin 4) (i : Fin 2) (lvl : Bool), s.dev.coreOn = true ∧ (1 ≤ s.dev.f ⟨0x43000004 + 0x100 * p.val, 0, 3⟩ ∧ s.dev.f ⟨0x43000004 + 0x100 * p.val, 0, 3⟩ ≤ 3) ∧ s.dev.f ⟨0x43000018 + 0x100 * p.val, 13 + 16 * i.val, 1⟩ = 1 ∧ s.dev.f ⟨0x43000018 + 0x100 * p.val, 12 + 16 * i.val, 1⟩ = (if lvl then 1 else 0)) ∧
    (∃ (s : State) (p : Fin 4) (i : Fin 2) (lvl : Bool), s.dev.coreOn = true ∧ (s.dev.f ⟨0x43000018 + 0x100 * p.val, 13 + 16 * i.val, 1⟩ = 0 ∨ s.dev.f ⟨0x43000004 + 0x100 * p.val, 0, 3⟩ = 0 ∨ s.dev.f ⟨0x43000004 + 0x100 * p.val, 0, 3⟩ = 4)) ∧
    (∃ (s : State) (p : Fin 4) (lvl : Bool) (at_ : Nat), s.dev.coreOn = true ∧ (1 ≤ s.dev.f ⟨0x43000004 + 0x100 * p.val, 0, 3⟩ ∧ s.dev.f ⟨0x43000004 + 0x100 * p.val, 0, 3⟩ ≤ 3) ∧ (s.dev.port p.val).ready = true ∧ fltActive p.val lvl s.dev = true ∧ (s.dev.port p.val).lastRefresh = none) ∧
    (∃ (s : State) (p : Fin 4) (lvl : Bool) (at_ : Nat), s.dev.coreOn = true ∧ s.dev.f ⟨0x43000004 + 0x100 * p.val, 0, 3⟩ = 1 ∧ fltActive p.val lvl s.dev = false ∧ portRun p.val s.dev = false) ∧
    (∃ (s : State) (p : Fin 4) (elapsed : Nat), s.dev.coreOn = true ∧ s.dev.f ⟨0x43000004 + 0x100 * p.val, 0, 3⟩ = 1 ∧ (s.dev.port p.val).ready = false ∧ s.dev.f ⟨0x43000020 + 0x100 * p.val, 0, 10⟩ ≤ elapsed) ∧
    (∃ (s : State) (p : Fin 4) (elapsed : Nat), s.dev.coreOn = true ∧ (s.dev.f ⟨0x43000004 + 0x100 * p.val, 0, 3⟩ ≠ 1 ∨ (s.dev.port p.val).ready = true ∨ elapsed < s.dev.f ⟨0x43000020 + 0x100 * p.val, 0, 10⟩)) ∧
    (∃ (s : State) (p : Fin 4) (elapsed : Nat), s.dev.coreOn = true ∧ s.dev.f ⟨0x43000004 + 0x100 * p.val, 0, 3⟩ = 2 ∧ s.dev.f ⟨0x43000014 + 0x100 * p.val, 18, 10⟩ ≤ elapsed) ∧
    (∃ (s : State) (p : Fin 4) (elapsed n : Nat), s.dev.coreOn = true ∧ s.dev.f ⟨0x43000004 + 0x100 * p.val, 0, 3⟩ = 4 ∧ (s.dev.port p.val).toggle = 2 ∧ s.dev.f ⟨0x43000020 + 0x100 * p.val, 10, 10⟩ ≤ elapsed ∧ s.dev.mode = 4 ∧ s.dev.f ⟨0x43000004 + 0x100 * p.val, 3, 1⟩ = 0 ∧ s.dev.f ⟨0x43000000 + 0x100 * p.val, 0, 1⟩ = 1 ∧ portIsle p.val s.dev = some n ∧ (s.dev.isle n).istate ≠ 0 ∧ portRun p.val s.dev = false ∧ tripActive p.val 0 s.dev = false ∧ tripActive p.val 1 s.dev = false) ∧
    (∃ (s : State) (p : Fin 4) (elapsed : Nat), s.dev.coreOn = true ∧ ((s.dev.port p.val).toggle = 0 ∨ s.dev.f ⟨0x43000004 + 0x100 * p.val, 0, 3⟩ ≠ 4 ∨ elapsed < s.dev.f ⟨0x43000020 + 0x100 * p.val, 10, 10⟩)) :=
  ⟨⟨(stW [(0x43000100, 0xE9), (0x43000104, 3)]), 1, by decide +kernel⟩,
   ⟨(stW [(0x43000104, 0)] fun d => d.setIsle 9 { entry := { role := 3, port := 1 }, istate := 1 }), 1, 9, by decide +kernel⟩,
   ⟨(stW [(0x43000100, 0xE8), (0x43000104, 8)]), 1, by decide +kernel⟩,
   ⟨(stW [(0x43000100, 0xE9), (0x43000104, 4)]), 1, by decide +kernel⟩,
   ⟨(stW [(0x43000100, 0xE8), (0x43000104, 3), (0x43000118, 0x20282028)]), 1, 1, false, by decide +kernel⟩,
   ⟨(stW [(0x43000100, 0xE8), (0x43000104, 3)]), 1, 1, true, by decide +kernel⟩,
   ⟨(stW [(0x43000104, 3)] fun d => d.modPort 1 fun u => { u with ready := true }), 1, false, 0, by decide +kernel⟩,
   ⟨(stW [(0x43000100, 0xE8), (0x43000104, 1)]), 1, true, 0, by decide +kernel⟩,
   ⟨(stW [(0x43000100, 0xE8), (0x43000104, 1), (0x43000120, 0x2864)]), 1, 100, by decide +kernel⟩,
   ⟨(stW [(0x43000100, 0xE8), (0x43000104, 1), (0x43000120, 0x2864)]), 1, 99, by decide +kernel⟩,
   ⟨(stW [(0x43000100, 0xE8), (0x43000104, 2), (0x43000114, 0x0190A020)]), 1, 100, by decide +kernel⟩,
   ⟨(stW [(0x43000100, 0xE9), (0x43000104, 4), (0x43000120, 0x2864)] fun d => (d.modPort 1 fun u => { u with toggle := 2 }).setIsle 9 { entry := { role := 3, port := 1 }, istate := 1 }), 1, 10, 9, by decide +kernel⟩,
   ⟨(stW [(0x43000100, 0xE8), (0x43000104, 4)]), 1, 9, by decide +kernel⟩⟩

theorem wit_PortsLatchReloadAndRefresh :
    (∃ (s : State) (p : Fin 4) (off : Fin 76) (v : Word), s.dev.coreOn = true ∧ off.val ∈ [8, 0xC, 0x10, 0x14, 0x18, 0x1C, 0x20, 0x24, 0x28] ∧ s.dev.f ⟨0x43000004 + 0x100 * p.val, 0, 3⟩ ≠ 0) ∧
    (∃ (s : State) (p : Fin 4) (off : Fin 76) (v : Word), s.dev.coreOn = true ∧ off.val ∈ [8, 0xC, 0x10, 0x14, 0x18, 0x1C, 0x20, 0x24, 0x28] ∧ s.dev.f ⟨0x43000004 + 0x100 * p.val, 0, 3⟩ = 0 ∧ mpoLegal p.val off.val v s.dev = true) ∧
    (∃ (s : State) (p : Fin 4) (v : Word), s.dev.coreOn = true) ∧
    (∃ (s : State) (p : Fin 4) (n at_ : Nat), s.dev.coreOn = true ∧ portIsle p.val s.dev = some n ∧ isReload p.val (((s.dev.tide.k * s.dev.tc + at_ : Nat) : Int) + 64) s.dev = true) ∧
    (∃ (s : State) (p : Fin 4) (at_ : Nat), s.dev.coreOn = true ∧ (isReload p.val (((s.dev.tide.k * s.dev.tc + at_ : Nat) : Int) + 64) s.dev = false ∨ portIsle p.val s.dev = none)) ∧
    (∃ (s : State) (p : Fin 4) (at_ : Nat) (l : Latch), s.dev.coreOn = true ∧ isReload p.val (s.dev.tide.k * s.dev.tc + at_ : Nat) s.dev = true ∧ (s.dev.port p.val).pend = some l ∧ l.r = (s.dev.tide.k * s.dev.tc + at_ : Nat) ∧ (s.dev.f ⟨0x43000004 + 0x100 * p.val, 0, 3⟩ = 4 ∨ s.dev.f ⟨0x43000004 + 0x100 * p.val, 0, 3⟩ = 0)) ∧
    (∃ (s : State) (p : Fin 4) (at_ : Nat), s.dev.coreOn = true ∧ isReload p.val (s.dev.tide.k * s.dev.tc + at_ : Nat) s.dev = true ∧ s.dev.f ⟨0x43000004 + 0x100 * p.val, 0, 3⟩ = 2 ∧ (s.dev.port p.val).bscDone = true) ∧
    (∃ (s : State) (p : Fin 4) (at_ : Nat), s.dev.coreOn = true ∧ isReload p.val (s.dev.tide.k * s.dev.tc + at_ : Nat) s.dev = false) ∧
    (∃ (s : State) (p : Fin 4) (x : Fin 3) (at_ : Nat), s.dev.coreOn = true ∧ s.dev.f ⟨0x43000004 + 0x100 * p.val, 0, 3⟩ = 3 ∧ s.dev.f ⟨0x43000000 + 0x100 * p.val, 5, 1⟩ = 1 ∧ (((s.dev.tide.k * s.dev.tc + at_ : Nat) : Int) - s.dev.f ⟨0x4300000C + 0x100 * p.val, 0, 20⟩) % max (s.dev.f ⟨0x43000008 + 0x100 * p.val, 0, 20⟩ : Int) 2 = 0 ∧ s.dev.f ⟨0x43000014 + 0x100 * p.val, 0, 8⟩ ≤ (bsAccount (s.dev.f ⟨0x4300000C + 0x100 * p.val, 0, 20⟩) (max (s.dev.f ⟨0x43000008 + 0x100 * p.val, 0, 20⟩) 2) (bsNeed p.val s.dev) (32 * (s.dev.tide.k * s.dev.tc + at_ : Nat)) (tget (fun _ => {}) (s.dev.port p.val).phases x.val)).periods) ∧
    (∃ (s : State) (p : Fin 4) (x : Fin 3) (at_ : Nat), s.dev.coreOn = true ∧ (s.dev.f ⟨0x43000004 + 0x100 * p.val, 0, 3⟩ ≠ 3 ∨ s.dev.f ⟨0x43000000 + 0x100 * p.val, 5, 1⟩ = 0)) ∧
    (∃ (s : State) (p : Fin 4) (span : Nat), s.dev.coreOn = true ∧ 2500 ≤ span) ∧
    (∃ (s : State) (p : Fin 4) (span : Nat), s.dev.coreOn = true ∧ span < 2500) ∧
    (∃ (s : State) (p : Fin 4) (n : Nat), s.dev.coreOn = true ∧ portIsle p.val s.dev = some n) ∧
    (∃ (s : State) (p : Fin 4), s.dev.coreOn = true ∧ portIsle p.val s.dev = none) :=
  ⟨⟨(stW [(0x43000100, 0xE8), (0x43000104, 1)]), 1, 8, 8000, by decide +kernel⟩,
   ⟨(stW [(0x43000100, 0xE8), (0x43000104, 0)]), 1, 0x24, 1, by decide +kernel⟩,
   ⟨stRun, 1, 5, by decide +kernel⟩,
   ⟨(stW [(0x43000108, 8000), (0x43000100, 0xE9)] fun d => d.setIsle 9 { entry := { role := 3, port := 1 }, istate := 1 }), 1, 9, 7936, by decide +kernel⟩,
   ⟨stRun, 1, 0, by decide +kernel⟩,
   ⟨(stW [(0x43000108, 8000), (0x43000104, 0)] fun d => d.modPort 1 fun u => { u with pend := some { r := 8000 } }), 1, 8000, { r := 8000 }, by decide +kernel⟩,
   ⟨(stW [(0x43000108, 8000), (0x43000104, 2)] fun d => d.modPort 1 fun u => { u with bscDone := true }), 1, 8000, by decide +kernel⟩,
   ⟨(stW [(0x43000108, 8000)]), 1, 1, by decide +kernel⟩,
   ⟨(stW [(0x43000100, 0xE9), (0x43000108, 8000), (0x43000104, 3), (0x43000114, 1)]), 1, 2, 8000, by decide +kernel⟩,
   ⟨stRun, 1, 2, 0, by decide +kernel⟩,
   ⟨stRun, 1, 2500, by decide +kernel⟩,
   ⟨stRun, 1, 2499, by decide +kernel⟩,
   ⟨(stW [] fun d => d.setIsle 9 { entry := { role := 3, port := 1 }, istate := 1 }), 1, 9, by decide +kernel⟩,
   ⟨stRun, 1, by decide +kernel⟩⟩

theorem wit_ShaftsAreMeasured :
    (∃ (s : State) (f : Fin 4) (a b : Bool) (at_ : Nat), s.dev.coreOn = true ∧ (s.dev.f ⟨0x43100000 + 0x100 * f.val, 0, 3⟩ = 1 ∨ s.dev.f ⟨0x43100000 + 0x100 * f.val, 0, 3⟩ = 4) ∧ (s.dev.enc f.val).a = false ∧ (s.dev.enc f.val).b = false ∧ a ≠ b ∧ s.dev.f ⟨0x43100000 + 0x100 * f.val, 3, 1⟩ = 0 ∧ (s.dev.rd (0x43100014 + 0x100 * f.val)).toInt < (s.dev.enc f.val).pos ∧ (s.dev.enc f.val).pos < (s.dev.rd (0x43100018 + 0x100 * f.val)).toInt) ∧
    (∃ (s : State) (f : Fin 4) (at_ : Nat), s.dev.coreOn = true ∧ s.dev.f ⟨0x43100000 + 0x100 * f.val, 0, 3⟩ = 1 ∧ s.dev.f ⟨0x43100000 + 0x100 * f.val, 3, 1⟩ = 0 ∧ (s.dev.enc f.val).a = false ∧ (s.dev.enc f.val).b = true ∧ (s.dev.enc f.val).pos = (s.dev.rd (0x43100014 + 0x100 * f.val)).toInt) ∧
    (∃ (s : State) (f : Fin 4) (a b : Bool) (at_ : Nat), s.dev.coreOn = true ∧ (s.dev.f ⟨0x43100000 + 0x100 * f.val, 0, 3⟩ = 1 ∨ s.dev.f ⟨0x43100000 + 0x100 * f.val, 0, 3⟩ = 4) ∧ (s.dev.enc f.val).a ≠ a ∧ (s.dev.enc f.val).b ≠ b) ∧
    (∃ (s : State) (f : Fin 4) (sn cs : BitVec 16) (at_ : Nat), s.dev.coreOn = true ∧ (s.dev.f ⟨0x43100000 + 0x100 * f.val, 0, 3⟩ = 2 ∨ s.dev.f ⟨0x43100000 + 0x100 * f.val, 0, 3⟩ = 5) ∧ s.dev.domOn 11 = true ∧ at_ % 800 = 0 ∧ (s.dev.f ⟨0x43100004 + 0x100 * f.val, 11, 1⟩ = 1 ∨ s.dev.f ⟨0x43100004 + 0x100 * f.val, 12, 1⟩ = 1)) ∧
    (∃ (s : State) (f : Fin 4) (sn cs : BitVec 16) (at_ φ : Nat), s.dev.coreOn = true ∧ (s.dev.f ⟨0x43100000 + 0x100 * f.val, 0, 3⟩ = 2 ∨ s.dev.f ⟨0x43100000 + 0x100 * f.val, 0, 3⟩ = 5) ∧ s.dev.domOn 11 = true ∧ at_ % 800 = 0 ∧ s.dev.f ⟨0x43100004 + 0x100 * f.val, 11, 1⟩ = 0 ∧ s.dev.f ⟨0x43100004 + 0x100 * f.val, 12, 1⟩ = 0 ∧ (s.dev.enc f.val).phi = none ∧ φ = (encAngle (scCorrect (sn).toInt (s.dev.sf ⟨0x43100048 + 0x100 * f.val, 0, 16⟩) (s.dev.f ⟨0x4310004C + 0x100 * f.val, 0, 16⟩)) (scCorrect (cs).toInt (s.dev.sf ⟨0x43100048 + 0x100 * f.val, 16, 16⟩) (s.dev.f ⟨0x4310004C + 0x100 * f.val, 16, 16⟩)))) ∧
    (∃ (s : State) (f : Fin 4) (sn cs : BitVec 16) (at_ φ p : Nat) (st dq n : Int), s.dev.coreOn = true ∧ (s.dev.f ⟨0x43100000 + 0x100 * f.val, 0, 3⟩ = 2 ∨ s.dev.f ⟨0x43100000 + 0x100 * f.val, 0, 3⟩ = 5) ∧ s.dev.domOn 11 = true ∧ at_ % 800 = 0 ∧ s.dev.f ⟨0x43100004 + 0x100 * f.val, 11, 1⟩ = 0 ∧ s.dev.f ⟨0x43100004 + 0x100 * f.val, 12, 1⟩ = 0 ∧ s.dev.f ⟨0x43100000 + 0x100 * f.val, 3, 1⟩ = 0 ∧ (s.dev.enc f.val).phi = some p ∧ φ = (encAngle (scCorrect (sn).toInt (s.dev.sf ⟨0x43100048 + 0x100 * f.val, 0, 16⟩) (s.dev.f ⟨0x4310004C + 0x100 * f.val, 0, 16⟩)) (scCorrect (cs).toInt (s.dev.sf ⟨0x43100048 + 0x100 * f.val, 16, 16⟩) (s.dev.f ⟨0x4310004C + 0x100 * f.val, 16, 16⟩))) ∧ st = signed 12 ((φ + 4096 - p) % 4096) ∧ dq = quadStep (s.dev.enc f.val).quad ((φ / 1024 : Nat) : Int) ∧ n = (p + st) / 2 ^ (10 - min (s.dev.f ⟨0x43100050 + 0x100 * f.val, 16, 4⟩) 10) - (p : Int) / 2 ^ (10 - min (s.dev.f ⟨0x43100050 + 0x100 * f.val, 16, 4⟩) 10)) ∧
    (∃ (s : State) (f : Fin 4) (sn cs : BitVec 16) (at_ : Nat), s.dev.coreOn = true ∧ ((s.dev.f ⟨0x43100000 + 0x100 * f.val, 0, 3⟩ ≠ 2 ∧ s.dev.f ⟨0x43100000 + 0x100 * f.val, 0, 3⟩ ≠ 5) ∨ s.dev.domOn 11 = false ∨ at_ % 800 ≠ 0)) ∧
    (∃ (s : State) (f : Fin 4), s.dev.coreOn = true ∧ (s.dev.f ⟨0x43100000 + 0x100 * f.val, 0, 3⟩ = 2 ∨ s.dev.f ⟨0x43100000 + 0x100 * f.val, 0, 3⟩ = 5) ∧ 4 ≤ (s.dev.enc f.val).ampOut ∧ s.dev.f ⟨0x43100004 + 0x100 * f.val, 11, 1⟩ = 0) ∧
    (∃ (s : State) (f : Fin 4), s.dev.coreOn = true ∧ 500 ≤ (s.dev.enc f.val).ampIn) ∧
    (∃ (s : State) (f : Fin 4) (elapsed : Nat), s.dev.coreOn = true ∧ (s.dev.f ⟨0x43100000 + 0x100 * f.val, 0, 3⟩ = 1 ∨ s.dev.f ⟨0x43100000 + 0x100 * f.val, 0, 3⟩ = 4) ∧ 400 ≤ elapsed ∧ s.dev.f ⟨0x43100004 + 0x100 * f.val, 12, 1⟩ = 0) ∧
    (∃ (s : State) (f : Fin 4) (at_ : Nat), s.dev.coreOn = true ∧ 3 ≤ s.dev.f ⟨0x43100000 + 0x100 * f.val, 0, 3⟩ ∧ s.dev.f ⟨0x43100000 + 0x100 * f.val, 0, 3⟩ ≤ 5 ∧ at_ + s.dev.f ⟨0x4310005C + 0x100 * f.val, 8, 16⟩ = s.dev.tc ∧ 0 < s.dev.tc ∧ (s.dev.tide.k + 1) % (s.dev.f ⟨0x4310005C + 0x100 * f.val, 0, 8⟩ + 1) = 0) ∧
    (∃ (s : State) (f : Fin 4) (st : SsiStart) (before low : Bool) (data : BitVec 32) (errBit parBit high : Bool), s.dev.coreOn = true ∧ 3 ≤ s.dev.f ⟨0x43100000 + 0x100 * f.val, 0, 3⟩ ∧ s.dev.f ⟨0x43100000 + 0x100 * f.val, 0, 3⟩ ≤ 5 ∧ (s.dev.enc f.val).ssi = some st ∧ (before = false ∨ low = false ∨ high = false)) ∧
    (∃ (s : State) (f : Fin 4) (st : SsiStart) (data : BitVec 32) (errBit parBit : Bool), s.dev.coreOn = true ∧ s.dev.f ⟨0x43100000 + 0x100 * f.val, 0, 3⟩ = 3 ∧ (s.dev.enc f.val).ssi = some st ∧ (s.dev.enc f.val).ssiLoad = true ∧ s.dev.f ⟨0x43100004 + 0x100 * f.val, 14, 1⟩ = 0 ∧ s.dev.f ⟨0x43100058 + 0x100 * f.val, 6, 3⟩ = 0 ∧ s.dev.rd (0x43100064 + 0x100 * f.val) = 0) ∧
    (∃ (s : State) (f : Fin 4), s.dev.coreOn = true ∧ 3 ≤ (s.dev.enc f.val).ssiBad) ∧
    (∃ (s : State) (f : Fin 4), s.dev.coreOn = true ∧ (s.dev.enc f.val).ssiBad < 3) ∧
    (∃ (s : State) (f : Fin 4) (z : Bool), s.dev.coreOn = true ∧ s.dev.f ⟨0x43100000 + 0x100 * f.val, 0, 3⟩ = 1 ∧ s.dev.f ⟨0x4310002C + 0x100 * f.val, 9, 2⟩ = 0 ∧ s.dev.f ⟨0x43100004 + 0x100 * f.val, 6, 1⟩ = 1 ∧ atIndex f.val s.dev = false ∧ atIndex f.val (s.dev.modEnc f.val fun u => { u with z := z }) = true) ∧
    (∃ (s : State) (f : Fin 4) (z : Bool) (p e : Int), s.dev.coreOn = true ∧ s.dev.f ⟨0x43100000 + 0x100 * f.val, 0, 3⟩ = 1 ∧ s.dev.f ⟨0x4310002C + 0x100 * f.val, 9, 2⟩ = 0 ∧ s.dev.f ⟨0x43100004 + 0x100 * f.val, 6, 1⟩ = 0 ∧ s.dev.f ⟨0x43100004 + 0x100 * f.val, 4, 1⟩ = 1 ∧ (s.dev.enc f.val).pIdxNext = false ∧ (s.dev.enc f.val).pIdx = some p ∧ s.dev.f ⟨0x4310001C + 0x100 * f.val, 0, 31⟩ ≠ 0 ∧ e = (s.dev.enc f.val).pos - nearestIndex p (s.dev.f ⟨0x4310001C + 0x100 * f.val, 0, 31⟩) (s.dev.enc f.val).pos ∧ e ≠ 0 ∧ (s.dev.enc f.val).corr ≠ some e ∧ s.dev.f ⟨0x4310002C + 0x100 * f.val, 8, 1⟩ = 1 ∧ e.natAbs ≤ s.dev.f ⟨0x4310002C + 0x100 * f.val, 0, 8⟩ ∧ atIndex f.val s.dev = false ∧ atIndex f.val (s.dev.modEnc f.val fun u => { u with z := z }) = true) ∧
    (∃ (s : State) (f : Fin 4), s.dev.coreOn = true ∧ s.dev.f ⟨0x43100000 + 0x100 * f.val, 0, 3⟩ = 1) ∧
    (∃ (s : State) (f : Fin 4), s.dev.coreOn = true) ∧
    (∃ (s : State) (f : Fin 4), s.dev.coreOn = true ∧ s.dev.f ⟨0x43100000 + 0x100 * f.val, 0, 3⟩ = 1) ∧
    (∃ (s : State) (f : Fin 4), s.dev.coreOn = true ∧ s.dev.f ⟨0x43100000 + 0x100 * f.val, 0, 3⟩ = 1 ∧ s.dev.f ⟨0x43100004 + 0x100 * f.val, 12, 1⟩ = 1) ∧
    (∃ (s : State) (f : Fin 4) (m : Fin 8), s.dev.coreOn = true ∧ m.val ≤ 5 ∧ encIdle f.val s.dev = true ∧ encModeLocked f.val m.val s.dev = false) ∧
    (∃ (s : State) (f : Fin 4) (m : Fin 8), s.dev.coreOn = true ∧ (5 < m.val ∨ encIdle f.val s.dev = false ∨ encModeLocked f.val m.val s.dev = true)) ∧
    (∃ (s : State) (f : Fin 4) (at_ t0 : Nat), s.dev.coreOn = true ∧ (s.dev.enc f.val).lastT = some t0 ∧ s.dev.f ⟨0x43100004 + 0x100 * f.val, 2, 1⟩ = 0 ∧ t0 + 400000 * s.dev.f ⟨0x43100034 + 0x100 * f.val, 0, 10⟩ ≤ s.dev.tide.abs + at_) ∧
    (∃ (s : State) (f : Fin 4) (at_ t0 : Nat), s.dev.coreOn = true ∧ (s.dev.enc f.val).lastT = some t0 ∧ s.dev.tide.abs + at_ < t0 + 400000 * s.dev.f ⟨0x43100034 + 0x100 * f.val, 0, 10⟩) :=
  ⟨⟨(stW [(0x43100200, 1)]), 2, true, false, 7, by decide +kernel⟩,
   ⟨(stW [(0x43100200, 1), (0x43100214, 0)] fun d => d.setEnc 2 { b := true }), 2, 7, by decide +kernel⟩,
   ⟨(stW [(0x43100200, 1)]), 2, true, true, 7, by decide +kernel⟩,
   ⟨(stW [(0x43100200, 2), (0x43100204, 0x800)]), 2, 100, 0, 0, by decide +kernel⟩,
   ⟨(stW [(0x43100200, 2)]), 2, 9000, 8000, 800, (encAngle (scCorrect (9000 : BitVec 16).toInt ((stW [(0x43100200, 2)]).dev.sf ⟨0x43100048 + 0x100 * (2 : Fin 4).val, 0, 16⟩) ((stW [(0x43100200, 2)]).dev.f ⟨0x4310004C + 0x100 * (2 : Fin 4).val, 0, 16⟩)) (scCorrect (8000 : BitVec 16).toInt ((stW [(0x43100200, 2)]).dev.sf ⟨0x43100048 + 0x100 * (2 : Fin 4).val, 16, 16⟩) ((stW [(0x43100200, 2)]).dev.f ⟨0x4310004C + 0x100 * (2 : Fin 4).val, 16, 16⟩))), by decide +kernel, by decide +kernel, by decide +kernel, by decide +kernel, by decide +kernel, by decide +kernel, by decide +kernel, rfl⟩,
   ⟨(stW [(0x43100200, 2)] fun d => d.setEnc 2 { phi := some 500 }), 2, 9000, 8000, 800, (encAngle (scCorrect (9000 : BitVec 16).toInt ((stW [(0x43100200, 2)] fun d => d.setEnc 2 { phi := some 500 }).dev.sf ⟨0x43100048 + 0x100 * (2 : Fin 4).val, 0, 16⟩) ((stW [(0x43100200, 2)] fun d => d.setEnc 2 { phi := some 500 }).dev.f ⟨0x4310004C + 0x100 * (2 : Fin 4).val, 0, 16⟩)) (scCorrect (8000 : BitVec 16).toInt ((stW [(0x43100200, 2)] fun d => d.setEnc 2 { phi := some 500 }).dev.sf ⟨0x43100048 + 0x100 * (2 : Fin 4).val, 16, 16⟩) ((stW [(0x43100200, 2)] fun d => d.setEnc 2 { phi := some 500 }).dev.f ⟨0x4310004C + 0x100 * (2 : Fin 4).val, 16, 16⟩))), 500, (signed 12 (((encAngle (scCorrect (9000 : BitVec 16).toInt ((stW [(0x43100200, 2)] fun d => d.setEnc 2 { phi := some 500 }).dev.sf ⟨0x43100048 + 0x100 * (2 : Fin 4).val, 0, 16⟩) ((stW [(0x43100200, 2)] fun d => d.setEnc 2 { phi := some 500 }).dev.f ⟨0x4310004C + 0x100 * (2 : Fin 4).val, 0, 16⟩)) (scCorrect (8000 : BitVec 16).toInt ((stW [(0x43100200, 2)] fun d => d.setEnc 2 { phi := some 500 }).dev.sf ⟨0x43100048 + 0x100 * (2 : Fin 4).val, 16, 16⟩) ((stW [(0x43100200, 2)] fun d => d.setEnc 2 { phi := some 500 }).dev.f ⟨0x4310004C + 0x100 * (2 : Fin 4).val, 16, 16⟩))) + 4096 - 500) % 4096)), (quadStep ((stW [(0x43100200, 2)] fun d => d.setEnc 2 { phi := some 500 }).dev.enc (2 : Fin 4).val).quad (((encAngle (scCorrect (9000 : BitVec 16).toInt ((stW [(0x43100200, 2)] fun d => d.setEnc 2 { phi := some 500 }).dev.sf ⟨0x43100048 + 0x100 * (2 : Fin 4).val, 0, 16⟩) ((stW [(0x43100200, 2)] fun d => d.setEnc 2 { phi := some 500 }).dev.f ⟨0x4310004C + 0x100 * (2 : Fin 4).val, 0, 16⟩)) (scCorrect (8000 : BitVec 16).toInt ((stW [(0x43100200, 2)] fun d => d.setEnc 2 { phi := some 500 }).dev.sf ⟨0x43100048 + 0x100 * (2 : Fin 4).val, 16, 16⟩) ((stW [(0x43100200, 2)] fun d => d.setEnc 2 { phi := some 500 }).dev.f ⟨0x4310004C + 0x100 * (2 : Fin 4).val, 16, 16⟩))) / 1024 : Nat) : Int)), ((500 + (signed 12 (((encAngle (scCorrect (9000 : BitVec 16).toInt ((stW [(0x43100200, 2)] fun d => d.setEnc 2 { phi := some 500 }).dev.sf ⟨0x43100048 + 0x100 * (2 : Fin 4).val, 0, 16⟩) ((stW [(0x43100200, 2)] fun d => d.setEnc 2 { phi := some 500 }).dev.f ⟨0x4310004C + 0x100 * (2 : Fin 4).val, 0, 16⟩)) (scCorrect (8000 : BitVec 16).toInt ((stW [(0x43100200, 2)] fun d => d.setEnc 2 { phi := some 500 }).dev.sf ⟨0x43100048 + 0x100 * (2 : Fin 4).val, 16, 16⟩) ((stW [(0x43100200, 2)] fun d => d.setEnc 2 { phi := some 500 }).dev.f ⟨0x4310004C + 0x100 * (2 : Fin 4).val, 16, 16⟩))) + 4096 - 500) % 4096))) / 2 ^ (10 - min ((stW [(0x43100200, 2)] fun d => d.setEnc 2 { phi := some 500 }).dev.f ⟨0x43100050 + 0x100 * (2 : Fin 4).val, 16, 4⟩) 10) - ((500 : Nat) : Int) / 2 ^ (10 - min ((stW [(0x43100200, 2)] fun d => d.setEnc 2 { phi := some 500 }).dev.f ⟨0x43100050 + 0x100 * (2 : Fin 4).val, 16, 4⟩) 10)), by decide +kernel, by decide +kernel, by decide +kernel, by decide +kernel, by decide +kernel, by decide +kernel, by decide +kernel, by decide +kernel, rfl, rfl, rfl, rfl⟩,
   ⟨(stW [(0x43100200, 1)]), 2, 100, 0, 0, by decide +kernel⟩,
   ⟨(stW [(0x43100200, 2)] fun d => d.setEnc 2 { ampOut := 4 }), 2, by decide +kernel⟩,
   ⟨(stW [(0x43100200, 2)] fun d => d.setEnc 2 { ampIn := 500 }), 2, by decide +kernel⟩,
   ⟨(stW [(0x43100200, 1), (0x43100204, 0x10)]), 2, 400, by decide +kernel⟩,
   ⟨(stW [(0x43100200, 3), (0x4310025C, 0x1F4000)]), 2, 0, by decide +kernel⟩,
   ⟨(stW [(0x43100200, 3)] fun d => d.setEnc 2 { ssi := some ⟨0, 0, 0⟩ }), 2, ⟨0, 0, 0⟩, true, true, 9, false, false, false, by decide +kernel⟩,
   ⟨(stW [(0x43100200, 3), (0x43100258, 0x140A0019)] fun d => d.setEnc 2 { ssi := some ⟨0, 0, 0⟩ }), 2, ⟨0, 0, 0⟩, 0xFE000009, true, false, by decide +kernel⟩,
   ⟨(stW [(0x43100200, 3)] fun d => d.setEnc 2 { ssiBad := 3 }), 2, by decide +kernel⟩,
   ⟨(stW [(0x43100200, 3)] fun d => d.setEnc 2 { ssiBad := 2 }), 2, by decide +kernel⟩,
   ⟨(stW [(0x43100200, 1), (0x43100204, 0x40), (0x43100220, 5)]), 2, true, by decide +kernel⟩,
   ⟨(stW [(0x43100200, 1), (0x43100204, 0x10), (0x4310021C, 4096), (0x4310022C, 0x0904)] fun d => d.setEnc 2 { pos := 4093, pIdx := some 0 }), 2, true, 0, (-3), by decide +kernel⟩,
   ⟨(stW [(0x43100200, 1)]), 2, by decide +kernel⟩,
   ⟨stRun, 1, by decide +kernel⟩,
   ⟨(stW [(0x43100200, 1), (0x43100204, 0x1000)]), 2, by decide +kernel⟩,
   ⟨(stW [(0x43100200, 1), (0x43100204, 0x1000)]), 2, by decide +kernel⟩,
   ⟨(stW [(0x43100200, 0)]), 2, 5, by decide +kernel⟩,
   ⟨(stW [(0x43100200, 0)]), 2, 6, by decide +kernel⟩,
   ⟨(stW [(0x43100200, 1), (0x43100204, 0), (0x43100234, 50)] fun d => d.setEnc 2 { lastT := some 0 }), 2, 20000000, 0, by decide +kernel⟩,
   ⟨(stW [(0x43100200, 1), (0x43100204, 0), (0x43100234, 50)] fun d => d.setEnc 2 { lastT := some 0 }), 2, 19999999, 0, by decide +kernel⟩⟩

theorem wit_TheStationAdcMeasures :
    (∃ (s : State) (at_ : Nat), s.dev.coreOn = true ∧ s.dev.f ⟨0x43200004, 7, 1⟩ = 0 ∧ s.dev.adc.running = false ∧ at_ + s.dev.f ⟨0x43200008, 0, 16⟩ = s.dev.tc) ∧
    (∃ (s : State) (at_ : Nat), s.dev.coreOn = true ∧ (s.dev.f ⟨0x43200004, 7, 1⟩ = 1 ∨ at_ + s.dev.f ⟨0x43200008, 0, 16⟩ ≠ s.dev.tc)) ∧
    (∃ (s : State) (n : Fin 32) (code : BitVec 16), s.dev.coreOn = true ∧ s.dev.adc.running = true ∧ s.dev.domOn 11 = true ∧ s.dev.slotOn n.val = true ∧ (if n.val < 16 then s.dev.adc.skip0 else s.dev.adc.skip1) = false ∧ (s.dev.slot n.val).n + 1 = 2 ^ s.dev.scfg n.val 0 8 3 ∧ s.dev.scfg n.val 0 5 1 = 0) ∧
    (∃ (s : State) (n : Fin 32) (code : BitVec 16), s.dev.coreOn = true ∧ s.dev.adc.running = true ∧ s.dev.domOn 11 = true ∧ s.dev.slotOn n.val = true ∧ (if n.val < 16 then s.dev.adc.skip0 else s.dev.adc.skip1) = false ∧ (s.dev.slot n.val).n + 1 < 2 ^ s.dev.scfg n.val 0 8 3 ∧ s.dev.scfg n.val 0 5 1 = 1) ∧
    (∃ (s : State) (n : Fin 32) (code : BitVec 16), s.dev.coreOn = true ∧ (s.dev.adc.running = false ∨ s.dev.domOn 11 = false ∨ s.dev.slotOn n.val = false)) ∧
    (∃ (s : State) (n : Fin 32) (at_ : Nat), s.dev.coreOn = true ∧ s.dev.adc.running = true ∧ s.dev.domOn 11 = true ∧ s.dev.slotOn n.val = true ∧ (if n.val < 16 then s.dev.adc.skip0 else s.dev.adc.skip1) = false ∧ conversionDue n s.dev + 40 ≤ at_) ∧
    (∃ (s : State) (n : Fin 32), s.dev.coreOn = true ∧ s.dev.f ⟨0x43200008, 24, 8⟩ ≤ s.dev.f ⟨0x43200118 + 0x20 * n.val, 16, 8⟩ ∧ s.dev.f ⟨0x43200118 + 0x20 * n.val, 24, 1⟩ = 1 ∧ s.dev.f ⟨0x43200118 + 0x20 * n.val, 25, 1⟩ = 0) ∧
    (∃ (s : State) (n : Fin 32), s.dev.coreOn = true ∧ (s.dev.f ⟨0x43200118 + 0x20 * n.val, 16, 8⟩ < s.dev.f ⟨0x43200008, 24, 8⟩ ∨ s.dev.f ⟨0x43200118 + 0x20 * n.val, 24, 1⟩ = 0)) ∧
    (∃ (s : State) (n : Fin 32), s.dev.coreOn = true ∧ adcLocked s.dev n.val = false) ∧
    (∃ (s : State) (n : Fin 32) (vfs : BitVec 16), s.dev.coreOn = true ∧ adcLocked s.dev n.val = false) ∧
    (∃ (s : State) (n : Fin 32), s.dev.coreOn = true ∧ adcLocked s.dev n.val = true) ∧
    (∃ (s : State) (n : Fin 32), s.dev.coreOn = true ∧ adcLocked s.dev n.val = false) ∧
    (∃ (s : State) (n : Fin 32) (c : CalU), s.dev.coreOn = true ∧ (s.dev.slot n.val).cal = some c ∧ 64 ≤ c.cnt ∧ c.fs = false ∧ ((c.sum + 32) / 64).natAbs ≤ 4096 ∧ s.dev.mode = 1) ∧
    (∃ (s : State) (n : Fin 32) (c : CalU), s.dev.coreOn = true ∧ (s.dev.slot n.val).cal = some c ∧ 64 ≤ c.cnt ∧ c.fs = false ∧ 4096 < ((c.sum + 32) / 64).natAbs) ∧
    (∃ (s : State) (n : Fin 32) (c : CalU), s.dev.coreOn = true ∧ (s.dev.slot n.val).cal = some c ∧ c.cnt < 64) ∧
    (∃ (s : State) (n : Fin 32) (c : CalU), s.dev.coreOn = true ∧ (s.dev.slot n.val).cal = some c ∧ 256 ≤ c.ticks ∧ c.cnt < 64) ∧
    (∃ (s : State) (c0 c1 : Bool), s.dev.coreOn = true) ∧
    (∃ (s : State) (v : Fin 4), s.dev.coreOn = true ∧ v.val ≠ 3 ∧ adcDuration s.dev ≤ s.dev.f ⟨0x43200008, 0, 16⟩ ∧ s.dev.f ⟨0x43200000, 0, 2⟩ ≠ v.val) ∧
    (∃ (s : State), s.dev.coreOn = true ∧ adcDuration s.dev ≤ s.dev.f ⟨0x43200008, 0, 16⟩) ∧
    (∃ (s : State) (elapsed : Nat), s.dev.coreOn = true ∧ s.dev.domOn 11 = true ∧ 400000 ≤ elapsed) ∧
    (∃ (s : State), s.dev.coreOn = true ∧ s.dev.f ⟨0x43200004, 0, 1⟩ = 1) ∧
    (∃ (s : State), s.dev.coreOn = true ∧ s.dev.f ⟨0x43200004, 0, 1⟩ = 0) :=
  ⟨⟨stRun, 4000, by decide +kernel⟩,
   ⟨(stW [(0x43200004, 0x80)]), 4000, by decide +kernel⟩,
   ⟨(stW [] fun d => { d with adc := { d.adc with cfg := [(0x43200160, 0x40)], running := true } }), 3, 40000, by decide +kernel⟩,
   ⟨(stW [] fun d => { d with adc := { d.adc with cfg := [(0x43200160, 0x460)], running := true } }), 3, 40000, by decide +kernel⟩,
   ⟨stRun, 3, 40000, by decide +kernel⟩,
   ⟨(stW [] fun d => { d with adc := { d.adc with cfg := [(0x43200160, 0x40)], running := true, tmo0 := 2 } }), 3, 8000, by decide +kernel⟩,
   ⟨(stW [(0x43200008, 0x083F0FA0), (0x43200178, 0x01080000)]), 3, by decide +kernel⟩,
   ⟨(stW [(0x43200008, 0x083F0FA0), (0x43200178, 0x01070000)]), 3, by decide +kernel⟩,
   ⟨stRun, 3, by decide +kernel⟩,
   ⟨stRun, 3, 26214, by decide +kernel⟩,
   ⟨(stW [] fun d => { d with saf := { d.saf with spb := spbOf [(70, 3)] } }), 3, by decide +kernel⟩,
   ⟨(stW [] fun d => { d with adc := { d.adc with slots := [(3, { cal := some { fs := false, vfs := 0 } })] } }), 3, by decide +kernel⟩,
   ⟨stCal 1 768, 3, { fs := false, vfs := 0, begun := true, cnt := 64, sum := 768 }, by decide +kernel⟩,
   ⟨stCal 4 262208, 3, { fs := false, vfs := 0, begun := true, cnt := 64, sum := 262208 }, by decide +kernel⟩,
   ⟨(stW [] fun d => { d with adc := { d.adc with slots := [(3, { cal := some { fs := false, vfs := 0 } })] } }), 3, { fs := false, vfs := 0 }, by decide +kernel⟩,
   ⟨(stW [] fun d => { d with adc := { d.adc with slots := [(3, { cal := some { fs := false, vfs := 0, ticks := 256 } })] } }), 3, { fs := false, vfs := 0, ticks := 256 }, by decide +kernel⟩,
   ⟨stRun, true, true, by decide +kernel⟩,
   ⟨stRun, 2, by decide +kernel⟩,
   ⟨stRun, by decide +kernel⟩,
   ⟨stRun, 400000, by decide +kernel⟩,
   ⟨(stW [(0x43200004, 1)]), by decide +kernel⟩,
   ⟨stRun, by decide +kernel⟩⟩

theorem wit_SessionsCarryRequests :
    (∃ (s : State) (m : HbMsg) (at_ : Nat), s.dev.coreOn = true ∧ ethUp s.dev = true ∧ lenOk m = true ∧ s.dev.host.bans.contains m.ip = false ∧ m.session = 0 ∧ m.body.length = 20 ∧ tagOk (keyInForce s.dev) 1 m = true ∧ ((keyInForce s.dev).all (· = 0) = false ∨ s.dev.mode = 2) ∧ s.dev.host.sessions.length < 8) ∧
    (∃ (s : State) (m : HbMsg) (at_ : Nat), s.dev.coreOn = true ∧ ethUp s.dev = true ∧ lenOk m = true ∧ s.dev.host.bans.contains m.ip = false ∧ m.session = 0 ∧ m.body.length = 20 ∧ tagOk (keyInForce s.dev) 1 m = true ∧ (keyInForce s.dev).all (· = 0) = true ∧ s.dev.mode ≠ 2) ∧
    (∃ (s : State) (x : Session) (m : HbMsg) (at_ : Nat), s.dev.coreOn = true ∧ ethUp s.dev = true ∧ lenOk m = true ∧ sessionOf m.session s.dev = some x ∧ tagOk x.key 3 m = false) ∧
    (∃ (s : State) (x : Session) (m : HbMsg) (at_ : Nat), s.dev.coreOn = true ∧ ethUp s.dev = true ∧ lenOk m = true ∧ sessionOf m.session s.dev = some x ∧ tagOk x.key 3 m = true ∧ m.seq ≤ x.last) ∧
    (∃ (s : State) (x : Session) (m : HbMsg) (at_ : Nat), s.dev.coreOn = true ∧ ethUp s.dev = true ∧ lenOk m = true ∧ sessionOf m.session s.dev = some x ∧ tagOk x.key 3 m = true ∧ x.last < m.seq ∧ x.kept = [] ∧ x.part = none ∧ underWay x m.req s.dev = false ∧ m.first = true ∧ m.last = true ∧ m.target = 0 ∧ s.dev.pow.after = 0) ∧
    (∃ (s : State) (x : Session) (m : HbMsg) (at_ : Nat), s.dev.coreOn = true ∧ ethUp s.dev = true ∧ lenOk m = true ∧ sessionOf m.session s.dev = some x ∧ tagOk x.key 2 m = true ∧ x.last < m.seq ∧ x.kept = [] ∧ x.part = none ∧ underWay x m.req s.dev = false ∧ m.first = true ∧ m.last = true ∧ m.target = 0 ∧ s.dev.pow.after = 0) ∧
    (∃ (s : State) (x : Session) (m : HbMsg) (at_ : Nat), s.dev.coreOn = true ∧ ethUp s.dev = true ∧ lenOk m = true ∧ sessionOf m.session s.dev = some x ∧ tagOk x.key 0x10 m = true ∧ x.last < m.seq ∧ x.kept = [] ∧ x.part = none ∧ underWay x m.req s.dev = false ∧ m.first = true ∧ m.last = true ∧ m.target = 0 ∧ s.dev.pow.after = 0 ∧ m.body = entBytes 0x2000 1 2 []) ∧
    (∃ (s : State) (x : Session) (m : HbMsg) (at_ : Nat) (v : Word), s.dev.coreOn = true ∧ ethUp s.dev = true ∧ lenOk m = true ∧ sessionOf m.session s.dev = some x ∧ tagOk x.key 0x11 m = true ∧ x.last < m.seq ∧ x.kept = [] ∧ x.part = none ∧ underWay x m.req s.dev = false ∧ m.first = true ∧ m.last = true ∧ m.target = 0 ∧ s.dev.pow.after = 0 ∧ s.dev.red.paired = false ∧ m.body = entBytes 0x5300 9 4 (leBytes 4 v.toNat)) ∧
    (∃ (s : State) (x : Session) (m : HbMsg) (at_ : Nat), s.dev.coreOn = true ∧ ethUp s.dev = true ∧ lenOk m = true ∧ sessionOf m.session s.dev = some x ∧ tagOk x.key 0x11 m = true ∧ x.last < m.seq ∧ x.kept = [] ∧ x.part = none ∧ underWay x m.req s.dev = false ∧ m.first = true ∧ m.last = true ∧ m.target = 0 ∧ s.dev.pow.after = 0 ∧ s.dev.red.paired = false ∧ m.body = entBytes 0x7000 1 4 (leBytes 4 0)) ∧
    (∃ (s : State) (x : Session) (m : HbMsg) (at_ : Nat) (k : Kept), s.dev.coreOn = true ∧ ethUp s.dev = true ∧ lenOk m = true ∧ sessionOf m.session s.dev = some x ∧ tagOk x.key 0x11 m = true ∧ x.last < m.seq ∧ x.kept = [k] ∧ k.req = m.req ∧ s.dev.tide.abs + at_ < k.at_ + 4000000000 ∧ k.body.length ≤ 1400) ∧
    (∃ (s : State) (x : Session) (m : HbMsg) (at_ : Nat), s.dev.coreOn = true ∧ ethUp s.dev = true ∧ lenOk m = true ∧ sessionOf m.session s.dev = some x ∧ tagOk x.key 0x20 m = true ∧ x.last < m.seq ∧ x.kept = [] ∧ x.part = none ∧ underWay x m.req s.dev = false ∧ m.first = true ∧ m.last = true ∧ m.target = 0 ∧ s.dev.pow.after = 0 ∧ (s.dev.host.txs.any fun u => u.session = m.session) = false ∧ s.dev.host.txs.length < 4) ∧
    (∃ (s : State) (x : Session) (m : HbMsg) (at_ : Nat), s.dev.coreOn = true ∧ ethUp s.dev = true ∧ lenOk m = true ∧ sessionOf m.session s.dev = some x ∧ tagOk x.key 0x20 m = true ∧ x.last < m.seq ∧ x.kept = [] ∧ x.part = none ∧ underWay x m.req s.dev = false ∧ m.first = true ∧ m.last = true ∧ m.target = 0 ∧ s.dev.pow.after = 0 ∧ (s.dev.host.txs.any fun u => u.session = m.session) = true) ∧
    (∃ (s : State) (x : Session) (m : HbMsg) (at_ : Nat) (v : Word) (u : TxU), s.dev.coreOn = true ∧ ethUp s.dev = true ∧ lenOk m = true ∧ sessionOf m.session s.dev = some x ∧ tagOk x.key 0x21 m = true ∧ x.last < m.seq ∧ x.kept = [] ∧ x.part = none ∧ underWay x m.req s.dev = false ∧ m.first = true ∧ m.last = true ∧ m.target = 0 ∧ s.dev.pow.after = 0 ∧ findTx m.tx m.session s.dev = some u ∧ m.body = entBytes 0x5300 9 4 (leBytes 4 v.toNat) ∧ s.dev.host.txs = [u] ∧ u.ents = []) ∧
    (∃ (s : State) (x : Session) (m : HbMsg) (at_ : Nat), s.dev.coreOn = true ∧ ethUp s.dev = true ∧ lenOk m = true ∧ sessionOf m.session s.dev = some x ∧ tagOk x.key 0x22 m = true ∧ x.last < m.seq ∧ x.kept = [] ∧ x.part = none ∧ underWay x m.req s.dev = false ∧ m.first = true ∧ m.last = true ∧ m.target = 0 ∧ s.dev.pow.after = 0 ∧ findTx m.tx m.session s.dev = none ∧ s.dev.host.tmoTx = []) ∧
    (∃ (s : State) (x : Session) (m : HbMsg) (at_ : Nat) (v : Word) (u : TxU), s.dev.coreOn = true ∧ ethUp s.dev = true ∧ lenOk m = true ∧ sessionOf m.session s.dev = some x ∧ tagOk x.key 0x22 m = true ∧ x.last < m.seq ∧ x.kept = [] ∧ x.part = none ∧ underWay x m.req s.dev = false ∧ m.first = true ∧ m.last = true ∧ m.target = 0 ∧ s.dev.pow.after = 0 ∧ s.dev.red.paired = false ∧ findTx m.tx m.session s.dev = some u ∧ u.ents = [⟨0x5300, 9, 4, leBytes 4 v.toNat, none⟩]) ∧
    (∃ (s : State) (x : Session) (m : HbMsg) (at_ : Nat) (u : TxU), s.dev.coreOn = true ∧ ethUp s.dev = true ∧ lenOk m = true ∧ sessionOf m.session s.dev = some x ∧ tagOk x.key 0x23 m = true ∧ x.last < m.seq ∧ x.kept = [] ∧ x.part = none ∧ underWay x m.req s.dev = false ∧ m.first = true ∧ m.last = true ∧ m.target = 0 ∧ s.dev.pow.after = 0 ∧ findTx m.tx m.session s.dev = some u) ∧
    (∃ (s : State) (sid elapsed : Nat), s.dev.coreOn = true ∧ (sessionOf sid s.dev).isSome = true ∧ s.dev.f ⟨0x46000014, 0, 10⟩ ≤ elapsed) ∧
    (∃ (s : State) (sid elapsed : Nat), s.dev.coreOn = true ∧ elapsed < s.dev.f ⟨0x46000014, 0, 10⟩) ∧
    (∃ (s : State) (tx elapsed : Nat), s.dev.coreOn = true ∧ (s.dev.host.txs.any fun u => u.id = tx) = true ∧ s.dev.f ⟨0x46000014, 16, 6⟩ ≤ elapsed) ∧
    (∃ (s : State) (ip at_ : Nat), s.dev.coreOn = true ∧ s.dev.domOn 2 = true ∧ 16 ≤ recentFails ip at_ s.dev) ∧
    (∃ (s : State) (ip at_ : Nat), s.dev.coreOn = true ∧ recentFails ip at_ s.dev < 16) ∧
    (∃ (s : State) (ip elapsed : Nat), s.dev.coreOn = true ∧ 10 ≤ elapsed) ∧
    (∃ (s : State) (sid elapsed : Nat) (x : Session) (p : PartIn), s.dev.coreOn = true ∧ sessionOf sid s.dev = some x ∧ x.part = some p ∧ 100 < elapsed) ∧
    (∃ (s : State) (id elapsed : Nat) (x : Session) (r : RemoteU), s.dev.coreOn = true ∧ s.dev.host.remote = [r] ∧ r.id = id ∧ sessionOf r.session s.dev = some x ∧ 1000 ≤ elapsed) ∧
    (∃ (s : State) (id elapsed : Nat), s.dev.coreOn = true ∧ elapsed < 1000) :=
  ⟨⟨(stW [(0x46000000, 1), (0x40010004, 2)]), (sgnMsg (List.replicate 32 0) 1 { ip := 167772161, session := 0, seq := 0, req := 1, lenField := 20, body := List.replicate 20 0, tag := [] }), 0, by decide +kernel⟩,
   ⟨(stW [(0x46000000, 1)]), (sgnMsg (List.replicate 32 0) 1 { ip := 167772161, session := 0, seq := 0, req := 1, lenField := 20, body := List.replicate 20 0, tag := [] }), 0, by decide +kernel⟩,
   ⟨(stW [(0x46000000, 7)] fun d => { d with host := { d.host with sessions := [⟨7, 1, 167772161, List.replicate 32 0, false, 5, 0, [], none⟩] } }), ⟨7, 1, 167772161, List.replicate 32 0, false, 5, 0, [], none⟩, { ip := 167772161, session := 7, seq := 6, req := 1, lenField := 0, body := [], tag := [] }, 0, by decide +kernel⟩,
   ⟨(stW [(0x46000000, 7)] fun d => { d with host := { d.host with sessions := [⟨7, 1, 167772161, List.replicate 32 0, false, 5, 0, [], none⟩] } }), ⟨7, 1, 167772161, List.replicate 32 0, false, 5, 0, [], none⟩, (sgnMsg (List.replicate 32 0) 3 { ip := 167772161, session := 7, seq := 5, req := 1, lenField := 0, tx := 0, body := [], tag := [] }), 0, by decide +kernel⟩,
   ⟨(stW [(0x46000000, 7)] fun d => { d with host := { d.host with sessions := [⟨7, 1, 167772161, List.replicate 32 0, false, 5, 0, [], none⟩] } }), ⟨7, 1, 167772161, List.replicate 32 0, false, 5, 0, [], none⟩, (sgnMsg (List.replicate 32 0) 3 { ip := 167772161, session := 7, seq := 6, req := 1, lenField := 0, tx := 0, body := [], tag := [] }), 0, by decide +kernel⟩,
   ⟨(stW [(0x46000000, 7)] fun d => { d with host := { d.host with sessions := [⟨7, 1, 167772161, List.replicate 32 0, false, 5, 0, [], none⟩] } }), ⟨7, 1, 167772161, List.replicate 32 0, false, 5, 0, [], none⟩, (sgnMsg (List.replicate 32 0) 2 { ip := 167772161, session := 7, seq := 6, req := 1, lenField := 0, tx := 0, body := [], tag := [] }), 0, by decide +kernel⟩,
   ⟨(stW [(0x46000000, 7)] fun d => { d with host := { d.host with sessions := [⟨7, 1, 167772161, List.replicate 32 0, false, 5, 0, [], none⟩] } }), ⟨7, 1, 167772161, List.replicate 32 0, false, 5, 0, [], none⟩, (sgnMsg (List.replicate 32 0) 0x10 { ip := 167772161, session := 7, seq := 6, req := 1, lenField := 8, tx := 0, body := entBytes 0x2000 1 2 [], tag := [] }), 0, by decide +kernel⟩,
   ⟨(stW [(0x46000000, 7)] fun d => { d with host := { d.host with sessions := [⟨7, 1, 167772161, List.replicate 32 0, false, 5, 0, [], none⟩] } }), ⟨7, 1, 167772161, List.replicate 32 0, false, 5, 0, [], none⟩, (sgnMsg (List.replicate 32 0) 0x11 { ip := 167772161, session := 7, seq := 6, req := 1, lenField := 12, tx := 0, body := entBytes 0x5300 9 4 (leBytes 4 (5 : Word).toNat), tag := [] }), 0, 5, by decide +kernel⟩,
   ⟨(stW [(0x46000000, 7)] fun d => { d with host := { d.host with sessions := [⟨7, 1, 167772161, List.replicate 32 0, false, 5, 0, [], none⟩] } }), ⟨7, 1, 167772161, List.replicate 32 0, false, 5, 0, [], none⟩, (sgnMsg (List.replicate 32 0) 0x11 { ip := 167772161, session := 7, seq := 6, req := 1, lenField := 12, tx := 0, body := entBytes 0x7000 1 4 (leBytes 4 0), tag := [] }), 0, by decide +kernel⟩,
   ⟨(stW [(0x46000000, 7)] fun d => { d with host := { d.host with sessions := [⟨7, 1, 167772161, List.replicate 32 0, false, 5, 0, [⟨1, 0, 0x11, []⟩], none⟩] } }), ⟨7, 1, 167772161, List.replicate 32 0, false, 5, 0, [⟨1, 0, 0x11, []⟩], none⟩, (sgnMsg (List.replicate 32 0) 0x11 { ip := 167772161, session := 7, seq := 6, req := 1, lenField := 12, tx := 0, body := entBytes 0x5300 9 4 (leBytes 4 (5 : Word).toNat), tag := [] }), 0, ⟨1, 0, 0x11, []⟩, by decide +kernel⟩,
   ⟨(stW [(0x46000000, 7)] fun d => { d with host := { d.host with sessions := [⟨7, 1, 167772161, List.replicate 32 0, false, 5, 0, [], none⟩] } }), ⟨7, 1, 167772161, List.replicate 32 0, false, 5, 0, [], none⟩, (sgnMsg (List.replicate 32 0) 0x20 { ip := 167772161, session := 7, seq := 6, req := 1, lenField := 0, tx := 0, body := [], tag := [] }), 0, by decide +kernel⟩,
   ⟨(stW [(0x46000000, 7)] fun d => { d with host := { d.host with sessions := [⟨7, 1, 167772161, List.replicate 32 0, false, 5, 0, [], none⟩], txs := [⟨9, 7, []⟩] } }), ⟨7, 1, 167772161, List.replicate 32 0, false, 5, 0, [], none⟩, (sgnMsg (List.replicate 32 0) 0x20 { ip := 167772161, session := 7, seq := 6, req := 1, lenField := 0, tx := 0, body := [], tag := [] }), 0, by decide +kernel⟩,
   ⟨(stW [(0x46000000, 7)] fun d => { d with host := { d.host with sessions := [⟨7, 1, 167772161, List.replicate 32 0, false, 5, 0, [], none⟩], txs := [⟨9, 7, []⟩] } }), ⟨7, 1, 167772161, List.replicate 32 0, false, 5, 0, [], none⟩, (sgnMsg (List.replicate 32 0) 0x21 { ip := 167772161, session := 7, seq := 6, req := 1, lenField := 12, tx := 9, body := entBytes 0x5300 9 4 (leBytes 4 (5 : Word).toNat), tag := [] }), 0, 5, ⟨9, 7, []⟩, by decide +kernel⟩,
   ⟨(stW [(0x46000000, 7)] fun d => { d with host := { d.host with sessions := [⟨7, 1, 167772161, List.replicate 32 0, false, 5, 0, [], none⟩] } }), ⟨7, 1, 167772161, List.replicate 32 0, false, 5, 0, [], none⟩, (sgnMsg (List.replicate 32 0) 0x22 { ip := 167772161, session := 7, seq := 6, req := 1, lenField := 0, tx := 0, body := [], tag := [] }), 0, by decide +kernel⟩,
   ⟨(stW [(0x46000000, 7)] fun d => { d with host := { d.host with sessions := [⟨7, 1, 167772161, List.replicate 32 0, false, 5, 0, [], none⟩], txs := [⟨9, 7, [⟨0x5300, 9, 4, leBytes 4 (5 : Word).toNat, none⟩]⟩] } }), ⟨7, 1, 167772161, List.replicate 32 0, false, 5, 0, [], none⟩, (sgnMsg (List.replicate 32 0) 0x22 { ip := 167772161, session := 7, seq := 6, req := 1, lenField := 0, tx := 9, body := [], tag := [] }), 0, 5, ⟨9, 7, [⟨0x5300, 9, 4, leBytes 4 (5 : Word).toNat, none⟩]⟩, by decide +kernel⟩,
   ⟨(stW [(0x46000000, 7)] fun d => { d with host := { d.host with sessions := [⟨7, 1, 167772161, List.replicate 32 0, false, 5, 0, [], none⟩], txs := [⟨9, 7, []⟩] } }), ⟨7, 1, 167772161, List.replicate 32 0, false, 5, 0, [], none⟩, (sgnMsg (List.replicate 32 0) 0x23 { ip := 167772161, session := 7, seq := 6, req := 1, lenField := 0, tx := 9, body := [], tag := [] }), 0, ⟨9, 7, []⟩, by decide +kernel⟩,
   ⟨(stW [(0x46000014, 0xA003C)] fun d => { d with host := { d.host with sessions := [⟨7, 1, 167772161, List.replicate 32 0, false, 5, 0, [], none⟩] } }), 7, 60, by decide +kernel⟩,
   ⟨(stW [(0x46000014, 0xA003C)] fun d => { d with host := { d.host with sessions := [⟨7, 1, 167772161, List.replicate 32 0, false, 5, 0, [], none⟩] } }), 7, 59, by decide +kernel⟩,
   ⟨(stW [(0x46000014, 0xA003C)] fun d => { d with host := { d.host with txs := [⟨9, 7, []⟩] } }), 9, 10, by decide +kernel⟩,
   ⟨(stW [] fun d => { d with host := { d.host with ips := List.replicate 16 (5, 0) } }), 5, 0, by decide +kernel⟩,
   ⟨(stW [] fun d => { d with host := { d.host with ips := List.replicate 15 (5, 0) } }), 5, 0, by decide +kernel⟩,
   ⟨(stW [] fun d => { d with host := { d.host with bans := [5] } }), 5, 10, by decide +kernel⟩,
   ⟨(stW [(0x46000000, 7)] fun d => { d with host := { d.host with sessions := [⟨7, 1, 167772161, List.replicate 32 0, false, 5, 0, [], some ⟨1, 0x11, [], 5, 0⟩⟩] } }), 7, 101, ⟨7, 1, 167772161, List.replicate 32 0, false, 5, 0, [], some ⟨1, 0x11, [], 5, 0⟩⟩, ⟨1, 0x11, [], 5, 0⟩, by decide +kernel⟩,
   ⟨(stW [(0x46000000, 7)] fun d => { d with host := { d.host with sessions := [⟨7, 1, 167772161, List.replicate 32 0, false, 5, 0, [], none⟩], remote := [⟨4, 7, 1, 0x11, 0, 3⟩] } }), 4, 1000, ⟨7, 1, 167772161, List.replicate 32 0, false, 5, 0, [], none⟩, ⟨4, 7, 1, 0x11, 0, 3⟩, by decide +kernel⟩,
   ⟨stRun, 4, 999, by decide +kernel⟩⟩

theorem wit_HostsArePublishedToAndHeard :
    (∃ (s : State) (p : Fin 64) (ip : Nat) (x : PubSample), s.dev.coreOn = true ∧ ethUp s.dev = true ∧ hostUp s.dev = true ∧ (pubOf p.val s.dev).enable = true ∧ (pubOf p.val s.dev).sample = some x ∧ (pubOf p.val s.dev).dests = [(0, ip)] ∧ ip ≠ 0) ∧
    (∃ (s : State) (p : Fin 64), s.dev.coreOn = true ∧ ((pubOf p.val s.dev).enable = false ∨ (pubOf p.val s.dev).sample = none)) ∧
    (∃ (s : State) (src : BitVec 12) (v : Word) (at_ q : Nat) (u : SubU), s.dev.coreOn = true ∧ hostUp s.dev = true ∧ s.dev.fab.queue = [] ∧ s.dev.host.subs = [(q, u)] ∧ u.source = src.toNat ∧ u.check = 7 ∧ u.seq = none ∧ u.targets = [(0x5300, 9)]) ∧
    (∃ (s : State) (src : BitVec 12) (body : List Byte) (at_ q : Nat) (u : SubU), s.dev.coreOn = true ∧ hostUp s.dev = true ∧ s.dev.fab.queue = [] ∧ s.dev.host.subs = [(q, u)] ∧ u.source = src.toNat ∧ leAt body 0 2 = 0 ∧ 18 ≤ body.length ∧ leAt body 2 4 ≠ u.check) ∧
    (∃ (s : State) (q : Fin 64) (periods : Nat), s.dev.coreOn = true ∧ hostUp s.dev = true ∧ (subU q.val s.dev).state = 1 ∧ (subU q.val s.dev).ageLimit ≤ periods) ∧
    (∃ (s : State) (q : Fin 64) (periods : Nat), s.dev.coreOn = true ∧ periods < (subU q.val s.dev).ageLimit ∧ (unreachable ((subU q.val s.dev).source % 4096) s.dev = false ∨ (subU q.val s.dev).state ≠ 1)) ∧
    (∃ (s : State) (q : Fin 64) (elapsed at_ : Nat) (v : Word), s.dev.coreOn = true ∧ hostUp s.dev = true ∧ partHold s.dev ≤ elapsed ∧ (subU q.val s.dev).state = 2 ∧ (subU q.val s.dev).targets = [(0x5300, 9)] ∧ (subU q.val s.dev).droop = leBytes 4 v.toNat) ∧
    (∃ (s : State), s.dev.coreOn = true ∧ ethUp s.dev = true) ∧
    (∃ (s : State) (addr : BitVec 32), s.dev.coreOn = true ∧ ethUp s.dev = true ∧ isOwn4 addr s.dev = true) ∧
    (∃ (s : State) (addr : BitVec 32), s.dev.coreOn = true ∧ isOwn4 addr s.dev = false) ∧
    (∃ (s : State) (up : Bool), s.dev.coreOn = true ∧ s.dev.domOn 2 = true) ∧
    (∃ (s : State) (cob at_ : Nat), s.dev.coreOn = true ∧ canUp s.dev = true ∧ s.dev.host.nmt = 2) ∧
    (∃ (s : State) (cob ix sub typ at_ : Nat) (value : List Byte), s.dev.coreOn = true ∧ canUp s.dev = true ∧ s.dev.host.nmt = 2 ∧ s.dev.f ⟨0x46000000, 2, 1⟩ = 0) ∧
    (∃ (s : State) (cob at_ : Nat) (v : Word), s.dev.coreOn = true ∧ canUp s.dev = true ∧ s.dev.red.paired = false ∧ s.dev.host.nmt = 2 ∧ s.dev.f ⟨0x46000000, 2, 1⟩ = 1 ∧ s.dev.pow.after = 0) ∧
    (∃ (s : State) (n : Fin 8) (cob at_ : Nat) (v : Word), s.dev.coreOn = true ∧ canUp s.dev = true ∧ s.dev.red.paired = false ∧ s.dev.host.nmt = 2 ∧ s.dev.f ⟨0x46000000, 2, 1⟩ = 1 ∧ s.dev.pow.after = 0 ∧ (∀ i : Fin 8, (pdoValid false i.val s.dev = true ∧ pdoCob false i.val s.dev % 2 ^ 29 = cob) ↔ i = n) ∧ pdoMap false n.val s.dev = [(0x5300, 9, 4)]) ∧
    (∃ (s : State) (n : Fin 8) (cob at_ : Nat) (data : List Byte), s.dev.coreOn = true ∧ canUp s.dev = true ∧ s.dev.host.nmt = 2 ∧ s.dev.f ⟨0x46000000, 2, 1⟩ = 0 ∧ pdoValid false n.val s.dev = true ∧ pdoCob false n.val s.dev % 2 ^ 29 = cob) ∧
    (∃ (s : State) (n : Fin 8) (elapsed : Nat), s.dev.coreOn = true ∧ canUp s.dev = true ∧ s.dev.host.nmt = 2 ∧ pdoValid false n.val s.dev = true ∧ (pdoOf false n.val s.dev).event ≠ 0 ∧ (pdoOf false n.val s.dev).event ≤ elapsed ∧ (pdoOf false n.val s.dev).tmo = false) ∧
    (∃ (s : State) (n : Fin 8) (elapsed : Nat), s.dev.coreOn = true ∧ ((pdoOf false n.val s.dev).event = 0 ∨ elapsed < (pdoOf false n.val s.dev).event ∨ (pdoOf false n.val s.dev).tmo = true)) ∧
    (∃ (s : State) (cmd node : Nat), s.dev.coreOn = true ∧ canUp s.dev = true ∧ s.dev.host.nmt ≠ 0 ∧ (node = 0 ∨ node = canNode s.dev) ∧ (cmd = 1 ∨ cmd = 2 ∨ cmd = 0x80)) ∧
    (∃ (s : State) (cmd node : Nat), s.dev.coreOn = true ∧ node ≠ 0 ∧ node ≠ canNode s.dev) ∧
    (∃ (s : State) (at_ : Nat) (n : Fin 8), s.dev.coreOn = true ∧ (∀ i : Fin 8, tpdoOn i.val s.dev = true ↔ i = n) ∧ pdoMap true n.val s.dev = [(0x2000, 1, 1)] ∧ (pdoOf true n.val s.dev).typ = 1) ∧
    (∃ (s : State) (n : Fin 8) (elapsed at_ : Nat), s.dev.coreOn = true ∧ tpdoOn n.val s.dev = true ∧ (pdoOf true n.val s.dev).typ = 0xFE ∧ pdoMap true n.val s.dev = [(0x2000, 1, 1)] ∧ (pdoOf true n.val s.dev).event ≠ 0 ∧ 10 * (pdoOf true n.val s.dev).event ≤ elapsed) ∧
    (∃ (s : State) (elapsed : Nat), s.dev.coreOn = true ∧ canUp s.dev = true ∧ s.dev.host.nmt = 2 ∧ s.dev.host.heartbeat ≠ 0 ∧ s.dev.host.heartbeat ≤ elapsed) ∧
    (∃ (s : State), s.dev.coreOn = true ∧ hostUp s.dev = true ∧ s.dev.f ⟨0x46000000, 1, 1⟩ = 1 ∧ s.dev.f ⟨0x46000004, 1, 1⟩ = 0) ∧
    (∃ (s : State) (occurrences : Nat), s.dev.coreOn = true ∧ 128 ≤ occurrences) ∧
    (∃ (s : State) (at_ : Nat), s.dev.coreOn = true ∧ hostUp s.dev = true ∧ s.dev.host.window = 0x4300002C) ∧
    (∃ (s : State) (o : Origin) (v : Word) (at_ : Nat), s.dev.coreOn = true ∧ hostUp s.dev = true ∧ o.chan = 1 ∧ s.dev.mode = 2 ∧ s.dev.red.paired = false ∧ s.dev.host.window = 0x4300002C) ∧
    (∃ (s : State) (o : Origin) (v : Word) (at_ : Nat), s.dev.coreOn = true ∧ hostUp s.dev = true ∧ o.chan = 1 ∧ s.dev.mode ≠ 2) :=
  ⟨⟨(stW [(0x46000000, 7)] fun d => { d with host := { d.host with pubs := [(3, { enable := true, fields := [(0x2000, 1, 2)], dests := [(0, 5)], sample := some ⟨4, 0, [4]⟩ })] } }), 3, 5, ⟨4, 0, [4]⟩, by decide +kernel⟩,
   ⟨stRun, 3, by decide +kernel⟩,
   ⟨(stW [] fun d => { d with host := { d.host with subs := [(3, { source := 5, check := 7, targets := [(0x5300, 9)] })] } }), 5, 9, 0, 3, { source := 5, check := 7, targets := [(0x5300, 9)] }, by decide +kernel⟩,
   ⟨(stW [] fun d => { d with host := { d.host with subs := [(3, { source := 5, check := 7 })] } }), 5, (List.replicate 18 0), 0, 3, { source := 5, check := 7 }, by decide +kernel⟩,
   ⟨(stW [] fun d => { d with host := { d.host with subs := [(3, { state := 1 })] } }), 3, 3, by decide +kernel⟩,
   ⟨(stW [] fun d => { d with host := { d.host with subs := [(3, {})] } }), 3, 2, by decide +kernel⟩,
   ⟨(stW [] fun d => { d with host := { d.host with subs := [(3, { state := 2, targets := [(0x5300, 9)], droop := leBytes 4 (9 : Word).toNat })] } }), 3, 10, 0, 9, by decide +kernel⟩,
   ⟨(stW [(0x46000000, 7)] fun d => { d with host := { d.host with nmt := 2 } }), by decide +kernel⟩,
   ⟨(stW [(0x46000000, 7)] fun d => { d with host := { d.host with nmt := 2, netEth := [5] } }), 5, by decide +kernel⟩,
   ⟨(stW [(0x46000000, 7)] fun d => { d with host := { d.host with nmt := 2, netEth := [5] } }), 6, by decide +kernel⟩,
   ⟨stRun, true, by decide +kernel⟩,
   ⟨(stW [(0x46000000, 7)] fun d => { d with host := { d.host with nmt := 2 } }), 1, 0, by decide +kernel⟩,
   ⟨(stW [(0x46000000, 3)] fun d => { d with host := { d.host with nmt := 2 } }), 1, 0x5300, 9, 4, 0, [], by decide +kernel⟩,
   ⟨(stW [(0x46000000, 7)] fun d => { d with host := { d.host with nmt := 2 } }), 1, 0, 9, by decide +kernel⟩,
   ⟨(stW [(0x46000000, 7)] fun d => { d with host := { d.host with nmt := 2, rpdos := [(3, { cob := some 0x300, map := [(1, 0x53000920)] })] } }), 3, 0x300, 0, 9, by decide +kernel⟩,
   ⟨(stW [(0x46000000, 3)] fun d => { d with host := { d.host with nmt := 2, rpdos := [(3, { cob := some 0x300 })] } }), 3, 0x300, 0, [], by decide +kernel⟩,
   ⟨(stW [(0x46000000, 7)] fun d => { d with host := { d.host with nmt := 2, rpdos := [(3, { cob := some 0x300, event := 10 })] } }), 3, 10, by decide +kernel⟩,
   ⟨(stW [(0x46000000, 7)] fun d => { d with host := { d.host with nmt := 2 } }), 3, 9, by decide +kernel⟩,
   ⟨(stW [(0x46000000, 7)] fun d => { d with host := { d.host with nmt := 2 } }), 2, 0, by decide +kernel⟩,
   ⟨(stW [(0x46000000, 7)] fun d => { d with host := { d.host with nmt := 2 } }), 2, 5, by decide +kernel⟩,
   ⟨(stW [(0x46000000, 7)] fun d => { d with host := { d.host with nmt := 2, tpdos := [(5, { cob := some 0x300, typ := 1, map := [(1, 0x20000108)] })] } }), 0, 5, by decide +kernel⟩,
   ⟨(stW [(0x46000000, 7)] fun d => { d with host := { d.host with nmt := 2, tpdos := [(5, { cob := some 0x300, event := 10, map := [(1, 0x20000108)] })] } }), 5, 100, 0, by decide +kernel⟩,
   ⟨(stW [(0x46000000, 7)] fun d => { d with host := { d.host with nmt := 2 } }), 1000, by decide +kernel⟩,
   ⟨(stW [(0x46000000, 7)] fun d => { d with host := { d.host with nmt := 2 } }), by decide +kernel⟩,
   ⟨(stW [(0x46000000, 7)] fun d => { d with host := { d.host with nmt := 2 } }), 128, by decide +kernel⟩,
   ⟨(stW [] fun d => { d with host := { d.host with window := 0x4300002C } }), 0, by decide +kernel⟩,
   ⟨(stW [(0x40010004, 2)] fun d => { d with host := { d.host with window := 0x4300002C } }), ⟨1, 1⟩, 9, 0, by decide +kernel⟩,
   ⟨(stW [] fun d => { d with host := { d.host with window := 0x4300002C } }), ⟨1, 1⟩, 9, 0, by decide +kernel⟩⟩

theorem wit_BackgroundCopiesAndChecks :
    (∃ (s : State), s.dev.coreOn = true ∧ s.dev.f ⟨0x45000000, 0, 1⟩ = 1 ∧ s.dev.jrn.flushing = false ∧ s.dev.jrn.flushed < s.dev.jrn.seq ∧ jOldest s.dev ≤ s.dev.jrn.flushed + 1) ∧
    (∃ (s : State), s.dev.coreOn = true ∧ s.dev.f ⟨0x45000000, 0, 1⟩ = 0) ∧
    (∃ (s : State) (elapsed : Nat), s.dev.coreOn = true ∧ s.dev.f ⟨0x45000000, 0, 1⟩ = 1 ∧ s.dev.jrn.flushing = false ∧ s.dev.jrn.flushed < s.dev.jrn.seq ∧ jOldest s.dev ≤ s.dev.jrn.flushed + 1 ∧ (10 * s.dev.f ⟨0x45000000, 16, 16⟩ ≤ elapsed ∨ 64 ≤ unflushed s.dev)) ∧
    (∃ (s : State) (elapsed : Nat), s.dev.coreOn = true ∧ elapsed < 10 * s.dev.f ⟨0x45000000, 16, 16⟩ ∧ unflushed s.dev < 64) ∧
    (∃ (s : State) (n : Nat), s.dev.coreOn = true ∧ s.dev.jrn.flushing = true ∧ s.dev.jrn.page = [n] ∧ (s.dev.jslot n).seq = n ∧ s.dev.jrn.seq = n ∧ s.dev.jrn.flushed ≤ n ∧ s.dev.jrn.again = [] ∧ 0 < s.dev.jrn.flashPos ∧ s.dev.f ⟨0x45000020, 0, 11⟩ = 1 ∧ s.dev.jrn.flashPos < 1024) ∧
    (∃ (s : State), s.dev.coreOn = true ∧ s.dev.jrn.flushing = true ∧ 0 < s.dev.jrn.flashPos ∧ s.dev.jrn.flashPos < 1024 * s.dev.f ⟨0x45000020, 0, 11⟩ ∧ s.dev.jrn.flashPos % 1024 ≠ 0) ∧
    (∃ (s : State) (ok : Bool), s.dev.coreOn = true ∧ s.dev.jrn.flushing = false) ∧
    (∃ (s : State), s.dev.coreOn = true ∧ s.dev.domOn 2 = true ∧ s.dev.bus.sweep = none) ∧
    (∃ (s : State) (time : Nat), s.dev.coreOn = true ∧ s.dev.bus.sweepRegs = s.dev.regs ∧ s.dev.bus.sweep = some (true, false) ∧ s.dev.f ⟨0x40040000, 0, 1⟩ = 0 ∧ s.dev.bus.holdSeen = false) ∧
    (∃ (s : State) (time : Nat) (j : Bool), s.dev.coreOn = true ∧ s.dev.bus.sweepRegs = s.dev.regs ∧ s.dev.bus.sweep = some (j, true)) ∧
    (∃ (s : State) (time : Nat), s.dev.coreOn = true ∧ s.dev.bus.sweep = some (false, false) ∧ (s.dev.f ⟨0x40040000, 0, 1⟩ = 0 ∨ s.dev.bus.holdTmo = false)) ∧
    (∃ (s : State) (time : Nat), s.dev.coreOn = true ∧ s.dev.bus.sweep = none) ∧
    (∃ (s : State), s.dev.coreOn = true ∧ s.dev.domOn 2 = true) ∧
    (∃ (s : State) (v : Word), s.dev.coreOn = true ∧ s.dev.domOn 2 = true) ∧
    (∃ (s : State) (elapsed : Nat), s.dev.coreOn = true ∧ s.dev.f ⟨0x40040000, 0, 1⟩ = 1 ∧ s.dev.f ⟨0x40040004, 0, 1⟩ = 1 ∧ 100000 < elapsed ∧ s.dev.bus.holdTmo = false) ∧
    (∃ (s : State) (elapsed : Nat), s.dev.coreOn = true ∧ (s.dev.f ⟨0x40040000, 0, 1⟩ = 0 ∨ s.dev.f ⟨0x40040004, 0, 1⟩ = 0 ∨ elapsed ≤ 100000 ∨ s.dev.bus.holdTmo = true)) :=
  ⟨⟨(stW [(0x45000000, 0x640001), (0x45000020, 1)] fun d => { d with jrn := { d.jrn with seq := 3 } }), by decide +kernel⟩,
   ⟨(stW [(0x45000000, 0x640000)] fun d => { d with jrn := { d.jrn with seq := 3 } }), by decide +kernel⟩,
   ⟨(stW [(0x45000000, 0x640001), (0x45000020, 1)] fun d => { d with jrn := { d.jrn with seq := 64 } }), 0, by decide +kernel⟩,
   ⟨(stW [(0x45000000, 0x640001), (0x45000020, 1)] fun d => { d with jrn := { d.jrn with seq := 63 } }), 999, by decide +kernel⟩,
   ⟨(stW [(0x45000000, 0x640001), (0x45000020, 1)] fun d => { d with jrn := { d.jrn with seq := 3, page := [3], flushing := true, flashPos := 4, slots := [(3, { seq := 3, st := 1, kind := 3 })] } }), 3, by decide +kernel⟩,
   ⟨(stW [(0x45000000, 0x640001), (0x45000020, 1)] fun d => { d with jrn := { d.jrn with seq := 3, page := [3], flushing := true, flashPos := 4 } }), by decide +kernel⟩,
   ⟨stRun, true, by decide +kernel⟩,
   ⟨(stW []), by decide +kernel⟩,
   ⟨(stW [(0x40040004, 3), (0x40040000, 0)] fun d => { d with bus := { d.bus with sweep := some (true, false), sweepRegs := d.regs, sweepRef := 5 } }), 100, by decide +kernel⟩,
   ⟨(stW [(0x40040004, 2)] fun d => { d with bus := { d.bus with sweep := some (false, true), sweepRegs := d.regs } }), 100, false, by decide +kernel⟩,
   ⟨(stW [(0x40040004, 2), (0x40040000, 1)] fun d => { d with bus := { d.bus with sweep := some (false, false) } }), 100, by decide +kernel⟩,
   ⟨stRun, 1, by decide +kernel⟩,
   ⟨stRun, by decide +kernel⟩,
   ⟨stRun, 0x1234, by decide +kernel⟩,
   ⟨(stW [(0x40040000, 1), (0x40040004, 1)]), 100001, by decide +kernel⟩,
   ⟨(stW [(0x40040000, 1), (0x40040004, 1)]), 100000, by decide +kernel⟩⟩

theorem wit_AccessesAreCheckedAndServed :
    (∃ (s : State) (x : Access) (at_ : Nat), s.dev.coreOn = true ∧ x.init < 4 ∧ s.dev.domOn 2 = true ∧ s.dev.pow.held = false ∧ s.dev.pow.restart = false ∧ s.dev.bus.waiting = [] ∧ x.addr / 0x10000 = 0x4001 ∧ x.addr % 0x100 = 0x10 ∧ x.size = 4) ∧
    (∃ (s : State) (x : Access) (at_ : Nat), s.dev.coreOn = true ∧ x.init < 4 ∧ s.dev.domOn 2 = true ∧ s.dev.pow.held = false ∧ s.dev.pow.restart = false ∧ s.dev.bus.waiting = [] ∧ x.addr / 0x10000 = 0x4001 ∧ x.addr % 0x100 = 0x10 ∧ x.size = 4) ∧
    (∃ (s : State) (x : Access) (at_ : Nat), s.dev.coreOn = true ∧ x.init < 4 ∧ s.dev.domOn 2 = true ∧ s.dev.pow.held = false ∧ s.dev.pow.restart = false ∧ s.dev.bus.waiting = [] ∧ x.size = 4 ∧ x.addr % 4 = 0 ∧ x.addr / 0x10000 = 0x5000 ∧ s.dev.f ⟨0x40000104, 16, 1⟩ = 0) ∧
    (∃ (s : State) (x : Access) (at_ : Nat), s.dev.coreOn = true ∧ x.init < 4 ∧ s.dev.domOn 2 = true ∧ s.dev.pow.held = false ∧ s.dev.pow.restart = false ∧ s.dev.bus.waiting = [] ∧ x.size = 1 ∧ x.addr = 0x40010004 ∧ s.dev.f ⟨0x40000104, 16, 1⟩ = 0) ∧
    (∃ (s : State) (x : Access) (at_ : Nat), s.dev.coreOn = true ∧ x.init < 4 ∧ s.dev.domOn 2 = true ∧ s.dev.pow.held = false ∧ s.dev.pow.restart = false ∧ s.dev.bus.waiting = [] ∧ x.size = 4 ∧ x.addr % 4 ≠ 0 ∧ s.dev.f ⟨0x40000104, 16, 1⟩ = 1) ∧
    (∃ (s : State) (x : Access) (at_ : Nat), s.dev.coreOn = true ∧ x.init = 5 ∧ s.dev.bus.tap = 1 ∧ s.dev.domOn 2 = true ∧ s.dev.pow.held = false ∧ s.dev.bus.waiting = [] ∧ x.addr / 0x10000 = 0x4001 ∧ x.addr % 0x100 = 0x10 ∧ x.size = 4 ∧ s.dev.mode ≠ 2 ∧ s.dev.f ⟨0x40000104, 16, 1⟩ = 0) ∧
    (∃ (s : State) (x : Access) (at_ : Nat), s.dev.coreOn = true ∧ x.init < 4 ∧ s.dev.domOn 2 = true ∧ s.dev.pow.held = false ∧ s.dev.pow.restart = false ∧ s.dev.bus.waiting = [] ∧ x.size = 4 ∧ x.addr = 0x44000000) ∧
    (∃ (s : State) (x : Access) (at_ : Nat), s.dev.coreOn = true ∧ x.init < 4 ∧ s.dev.domOn 2 = true ∧ s.dev.pow.held = false ∧ s.dev.pow.restart = false ∧ s.dev.bus.waiting = [] ∧ x.size = 4 ∧ x.addr = 0x40010018) ∧
    (∃ (s : State) (x : Access) (at_ : Nat), s.dev.coreOn = true ∧ x.init < 4 ∧ s.dev.domOn 2 = true ∧ s.dev.pow.held = false ∧ s.dev.pow.restart = false ∧ s.dev.bus.waiting = [] ∧ x.size = 1 ∧ x.addr = 0x40010018) ∧
    (∃ (s : State) (x : Access) (at_ : Nat), s.dev.coreOn = true ∧ x.init < 4 ∧ s.dev.domOn 2 = true ∧ s.dev.pow.held = false ∧ s.dev.pow.restart = false ∧ s.dev.bus.waiting = [] ∧ x.size = 4 ∧ x.addr = 0x40100010) ∧
    (∃ (s : State) (x : Access) (at_ : Nat) (v : Nat), s.dev.coreOn = true ∧ x.init < 4 ∧ s.dev.domOn 2 = true ∧ s.dev.pow.held = false ∧ s.dev.pow.restart = false ∧ s.dev.bus.waiting = [] ∧ x.size = 4 ∧ x.addr = 0x40100014 ∧ tget (fun _ => 0) s.dev.bus.latched (x.init * 2 ^ 32 + 0x40100014) = v + 1 ∧ v < 2 ^ 32) ∧
    (∃ (s : State) (x : Access) (at_ : Nat), s.dev.coreOn = true ∧ x.init < 4 ∧ s.dev.domOn 2 = true ∧ s.dev.pow.held = false ∧ s.dev.pow.restart = false ∧ s.dev.bus.waiting = [] ∧ x.size = 4 ∧ x.addr = 0x42202404 ∧ s.dev.domOn 9 = false) ∧
    (∃ (s : State) (x : Access) (at_ : Nat) (y : Access) (l : List Access), s.dev.coreOn = true ∧ x.init < 4 ∧ s.dev.domOn 2 = true ∧ s.dev.pow.held = false ∧ s.dev.pow.restart = false ∧ s.dev.bus.waiting = y :: l) ∧
    (∃ (s : State) (elapsed at_ : Nat) (x : Access), s.dev.coreOn = true ∧ s.dev.bus.waiting = [x] ∧ 4096 ≤ elapsed ∧ s.dev.f ⟨0x40000104, 16, 1⟩ = 0) ∧
    (∃ (s : State) (elapsed at_ : Nat), s.dev.coreOn = true ∧ (elapsed < 4096 ∨ s.dev.bus.waiting = [])) ∧
    (∃ (s : State), (leAt s.dev.saf.spb 3 1).testBit 0 = false) ∧
    (∃ (s : State), (leAt s.dev.saf.spb 3 1).testBit 0 = true) ∧
    (∃ (s : State) (ins : Fin 5), (ins.val = 2 ∨ ins.val = 3) ∧ s.dev.mode = 2 ∧ stringsOff s.dev = true ∧ portsOff s.dev = true) ∧
    (∃ (s : State) (ins : Fin 5), (ins.val = 2 ∨ ins.val = 3) ∧ (s.dev.mode ≠ 2 ∨ stringsOff s.dev = false ∨ portsOff s.dev = false)) :=
  ⟨⟨(stW []), ⟨0, 0x40010110, 4, true, 30⟩, 0, by decide +kernel⟩,
   ⟨(stW [(0x40010010, 30)]), ⟨0, 0x40010010, 4, true, 0⟩, 0, by decide +kernel⟩,
   ⟨(stW []), ⟨0, 0x50000000, 4, true, 0⟩, 0, by decide +kernel⟩,
   ⟨(stW []), ⟨0, 0x40010004, 1, true, 0⟩, 0, by decide +kernel⟩,
   ⟨(stW [(0x40000104, 0x10000)]), ⟨0, 0x40010013, 4, false, 0⟩, 0, by decide +kernel⟩,
   ⟨(stW [] fun d => { d with bus := { d.bus with tap := 1 } }), ⟨5, 0x40010010, 4, true, 0⟩, 0, by decide +kernel⟩,
   ⟨(stW []), ⟨0, 0x44000000, 4, true, 1⟩, 0, by decide +kernel⟩,
   ⟨(stW [(0x40010018, 0x01020304)]), ⟨0, 0x40010018, 4, false, 0⟩, 0, by decide +kernel⟩,
   ⟨(stW [(0x40010018, 0x01020304)]), ⟨0, 0x40010018, 1, false, 0⟩, 0, by decide +kernel⟩,
   ⟨(stW [] fun d => { d with tide := { d.tide with k := 0x500000007 } }), ⟨0, 0x40100010, 4, false, 0⟩, 0, by decide +kernel⟩,
   ⟨(stW [] fun d => { d with bus := { d.bus with latched := [(0x40100014, 6)] } }), ⟨0, 0x40100014, 4, true, 0⟩, 0, 5, by decide +kernel⟩,
   ⟨(stW [(0x4001000C, 0xDF)]), ⟨0, 0x42202404, 4, false, 0⟩, 0, by decide +kernel⟩,
   ⟨(stW [] fun d => { d with bus := { d.bus with waiting := [⟨0, 0x42202404, 4, true, 0⟩] } }), ⟨0, 0x40010010, 4, true, 0⟩, 0, ⟨0, 0x42202404, 4, true, 0⟩, [], by decide +kernel⟩,
   ⟨(stW [] fun d => { d with bus := { d.bus with waiting := [⟨0, 0x42202404, 4, true, 0⟩] } }), 4096, 0, ⟨0, 0x42202404, 4, true, 0⟩, by decide +kernel⟩,
   ⟨stRun, 4095, 0, by decide +kernel⟩,
   ⟨stRun, by decide +kernel⟩,
   ⟨(stW [] fun d => { d with saf := { d.saf with spb := [0, 0, 0, 1] } }), by decide +kernel⟩,
   ⟨stMode 2, 3, by decide +kernel⟩,
   ⟨stMode 4, 2, by decide +kernel⟩⟩

theorem wit_UnalignedAccessesDoNothing :
    (∃ (s : State) (x : Access) (at_ : Nat), s.dev.coreOn = true ∧ busAllowed x s.dev = true ∧ s.dev.bus.waiting = [] ∧ x.addr % min x.size 4 ≠ 0) ∧
    (∃ (s : State) (x : Access) (at_ : Nat), s.dev.coreOn = true ∧ busAllowed x s.dev = true ∧ s.dev.bus.waiting = [] ∧ x.addr % min x.size 4 ≠ 0) ∧
    (∃ (s : State) (x : Access) (at_ : Nat), s.dev.coreOn = true ∧ busAllowed x s.dev = true ∧ s.dev.bus.waiting = [] ∧ x.addr % min x.size 4 ≠ 0) :=
  ⟨⟨stRun, ⟨0, 0x40100013, 8, false, 7⟩, 0, by decide +kernel⟩,
   ⟨stRun, ⟨0, 0x40100013, 8, false, 7⟩, 0, by decide +kernel⟩,
   ⟨stRun, ⟨0, 0x40100013, 8, false, 7⟩, 0, by decide +kernel⟩⟩

theorem wit_PowerModesAndDomains :
    (∃ (s : State), s.dev.pow.aon = false) ∧
    (∃ (s : State), s.dev.pow.aon = true) ∧
    (∃ (s : State), s.dev.saf.burn = none) ∧
    (∃ (s : State) (elapsed : Nat), 1000 ≤ elapsed ∧ s.dev.mode = 0 ∧ s.dev.pow.aon = true ∧ s.dev.pow.cause ≠ 0 ∧ s.dev.pow.trip = false) ∧
    (∃ (s : State) (elapsed : Nat), elapsed < 1000) ∧
    (∃ (s : State) (elapsed : Nat), 1000 ≤ elapsed ∧ (s.dev.mode ≠ 0 ∨ s.dev.pow.cause = 0) ∧ s.dev.pow.aon = true) ∧
    (∃ (s : State) (elapsed : Nat), elapsed < 2000) ∧
    (∃ (s : State) (elapsed : Nat), 2000 ≤ elapsed ∧ s.dev.pow.trip = false) ∧
    (∃ (s : State) (low : Nat), 1000 ≤ low ∧ s.dev.pow.aon = true ∧ s.dev.pow.held = false ∧ s.dev.pow.trip = false) ∧
    (∃ (s : State) (low : Nat), low < 1000) ∧
    (∃ (s : State) (elapsed : Nat), s.dev.mode = 0 ∧ 0 < s.dev.f ⟨0x40010010, 0, 16⟩ ∧ s.dev.f ⟨0x40010010, 0, 16⟩ ≤ elapsed ∧ s.dev.pow.aon = true ∧ s.dev.pow.good = true ∧ s.dev.pow.trip = false) ∧
    (∃ (s : State) (elapsed : Nat), (s.dev.mode ≠ 0 ∨ s.dev.f ⟨0x40010010, 0, 16⟩ = 0 ∨ elapsed < s.dev.f ⟨0x40010010, 0, 16⟩)) ∧
    (∃ (s : State), s.dev.coreOn = true ∧ 2 ≤ s.dev.mode) ∧
    (∃ (s : State) (v : Word), s.dev.coreOn = true ∧ v ≠ 0x5254) ∧
    (∃ (s : State) (v : BitVec 8), s.dev.coreOn = true ∧ modeAllowed v.toNat false s.dev = true) ∧
    (∃ (s : State) (v : BitVec 8), s.dev.coreOn = true ∧ modeAllowed v.toNat false s.dev = false ∧ (v ≠ 4 ∨ s.dev.mode ≠ 3)) ∧
    (∃ (s : State), s.dev.coreOn = true ∧ (s.dev.mode = 2 ∨ s.dev.mode = 5) ∧ s.dev.allIdle = true ∧ portsOff s.dev = true) ∧
    (∃ (s : State), s.dev.coreOn = true ∧ ((s.dev.mode ≠ 2 ∧ s.dev.mode ≠ 5) ∨ s.dev.allIdle = false ∨ portsOff s.dev = false)) ∧
    (∃ (s : State) (c : Nat) (bad : List (Nat × Nat)), s.dev.mode = 1 ∧ s.dev.pow.stage = 1 ∧ factoryOk bad (s.fuses.mapIdx (loadBank bad)) = true ∧ s.dev.pow.held = false ∧ s.dev.pow.trip = false) ∧
    (∃ (s : State) (c : Nat) (bad : List (Nat × Nat)), s.dev.mode = 1 ∧ s.dev.pow.stage = 1 ∧ factoryOk bad (s.fuses.mapIdx (loadBank bad)) = false ∧ s.dev.pow.held = false ∧ s.dev.pow.trip = false) ∧
    (∃ (s : State) (a b : List Byte) (x : Nat), s.dev.mode = 1 ∧ s.dev.pow.stage = 6 ∧ slotVersion (firmwareHash s.dev) a = some x ∧ s.dev.pow.held = false ∧ s.dev.pow.trip = false) ∧
    (∃ (s : State) (a b : List Byte) (y : Nat), s.dev.mode = 1 ∧ s.dev.pow.stage = 6 ∧ slotVersion (firmwareHash s.dev) a = none ∧ slotVersion (firmwareHash s.dev) b = some y ∧ s.dev.pow.held = false ∧ s.dev.pow.trip = false) ∧
    (∃ (s : State) (a b : List Byte), s.dev.mode = 1 ∧ s.dev.pow.stage = 6 ∧ slotVersion (firmwareHash s.dev) a = none ∧ slotVersion (firmwareHash s.dev) b = none ∧ s.dev.pow.held = false ∧ s.dev.pow.trip = false) ∧
    (∃ (s : State) (e : BootEvent), s.dev.mode ≠ 1) ∧
    (∃ (s : State) (elapsed : Nat), s.dev.mode = 1 ∧ s.dev.f ⟨0x40010004, 20, 2⟩ ≠ 0 ∧ 10 ≤ elapsed) ∧
    (∃ (s : State) (elapsed : Nat), (s.dev.mode ≠ 1 ∨ s.dev.f ⟨0x40010004, 20, 2⟩ = 0 ∨ elapsed < 10)) ∧
    (∃ (s : State) (v : Word) (at_ : Nat), domainsOk (fget v 0 12 / 16 * 16) s.dev = false ∧ s.dev.bus.waiting = []) ∧
    (∃ (s : State) (v : Word) (at_ : Nat), domainsOk (fget v 0 12 / 16 * 16) s.dev = true ∧ s.dev.bus.waiting = [] ∧ (∀ i < 8, s.dev.domOn (4 + i) = true → v.getLsbD (4 + i) = true)) ∧
    (∃ (s : State) (at_ n : Nat) (l : List Nat), s.dev.coreOn = true ∧ s.dev.pow.rising = n :: l ∧ 4 ≤ n ∧ n ≤ 11 ∧ s.dev.bus.waiting = []) ∧
    (∃ (s : State) (at_ : Nat), s.dev.coreOn = true ∧ s.dev.pow.rising = []) ∧
    (∃ (s : State) (k : List Byte), s.dev.coreOn = true ∧ s.dev.mode = 2 ∧ k.length = 32) ∧
    (∃ (s : State) (k : List Byte), s.dev.coreOn = true ∧ s.dev.mode ≠ 2) :=
  ⟨⟨(stW [] fun d => { d with pow := { d.pow with aon := false } }), by decide +kernel⟩,
   ⟨stRun, by decide +kernel⟩,
   ⟨stRun, by decide +kernel⟩,
   ⟨(stW [(0x40010004, 0)] fun d => { d with pow := { d.pow with cause := 6 } }), 1000, by decide +kernel⟩,
   ⟨(stW [(0x40010004, 0)] fun d => { d with pow := { d.pow with cause := 6 } }), 999, by decide +kernel⟩,
   ⟨stRun, 1000, by decide +kernel⟩,
   ⟨stRun, 1999, by decide +kernel⟩,
   ⟨stRun, 2000, by decide +kernel⟩,
   ⟨stRun, 1000, by decide +kernel⟩,
   ⟨stRun, 999, by decide +kernel⟩,
   ⟨(stW [(0x40010004, 0), (0x40010010, 30)] fun d => { d with pow := { d.pow with good := true, cause := 0 } }), 30, by decide +kernel⟩,
   ⟨(stW [(0x40010004, 0), (0x40010010, 30)] fun d => { d with pow := { d.pow with good := true } }), 29, by decide +kernel⟩,
   ⟨stRun, by decide +kernel⟩,
   ⟨stRun, 1, by decide +kernel⟩,
   ⟨stMode 5, 3, by decide +kernel⟩,
   ⟨stMode 4, 2, by decide +kernel⟩,
   ⟨stMode 5, by decide +kernel⟩,
   ⟨stMode 4, by decide +kernel⟩,
   ⟨stBoot 1, 3, [], by decide +kernel⟩,
   ⟨{ stBoot 1 with fuses := [] }, 0, [], by decide +kernel⟩,
   ⟨stSigned, slotOne, [], 1, by decide +kernel, by decide +kernel, signed_ok, by decide +kernel, by decide +kernel⟩,
   ⟨stSigned, [], slotOne, 1, by decide +kernel, by decide +kernel, by decide +kernel, signed_ok, by decide +kernel, by decide +kernel⟩,
   ⟨stBoot 6, [], [], by decide +kernel⟩,
   ⟨stRun, .clock, by decide +kernel⟩,
   ⟨{ stBoot 0 with dev := (stBoot 0).dev.setF ⟨0x40010004, 20, 2⟩ 1 }, 10, by decide +kernel⟩,
   ⟨stRun, 10, by decide +kernel⟩,
   ⟨stRun, 0x200, 0, by decide +kernel⟩,
   ⟨(stW [(0x4001000C, 0xF)]), 0x110, 0, by decide +kernel⟩,
   ⟨(stW [(0x4001000C, 0xF)] fun d => { d with pow := { d.pow with rising := [4, 8] } }), 0, 4, [8], by decide +kernel⟩,
   ⟨stRun, 0, by decide +kernel⟩,
   ⟨stMode 2, (List.replicate 32 1), by decide +kernel⟩,
   ⟨stRun, (List.replicate 32 1), by decide +kernel⟩⟩

theorem wit_TemperatureIsGuarded :
    (∃ (s : State) (v : List Int) (vpp : Bool), s.dev.coreOn = true ∧ s.dev.saf.burn = none ∧ v.length = 32 ∧ (∀ i < 8, v.getD i 0 = v.getD 0 0) ∧ -240 ≤ v.getD 0 0 ∧ v.getD 0 0 ≤ 720 ∧ s.dev.pow.round = 0) ∧
    (∃ (s : State) (v : List Int) (vpp : Bool), s.dev.coreOn = true ∧ s.dev.saf.burn = none ∧ (∀ i < 7, v.getD i 0 = v.getD 0 0) ∧ (v.getD 7 0 - v.getD 0 0).natAbs > 100 ∧ -240 ≤ v.getD 0 0 ∧ v.getD 0 0 ≤ 720) ∧
    (∃ (s : State), s.dev.coreOn = true ∧ s.dev.f ⟨0x40020004, 0, 1⟩ = 0 ∧ (2 ≤ s.dev.pow.hot ∨ s.dev.pow.few = true ∨ s.dev.f ⟨0x40020004, 6, 1⟩ = 1)) ∧
    (∃ (s : State), s.dev.coreOn = true ∧ (s.dev.f ⟨0x40020004, 0, 1⟩ = 1 ∨ (s.dev.pow.hot < 2 ∧ s.dev.pow.few = false ∧ s.dev.f ⟨0x40020004, 6, 1⟩ = 0))) ∧
    (∃ (s : State), s.dev.coreOn = true ∧ s.dev.f ⟨0x40020004, 0, 1⟩ = 1 ∧ 10 ≤ s.dev.pow.cool ∧ s.dev.pow.few = false ∧ s.dev.f ⟨0x40020004, 6, 1⟩ = 0) ∧
    (∃ (s : State), s.dev.coreOn = true ∧ (s.dev.f ⟨0x40020004, 0, 1⟩ = 0 ∨ s.dev.pow.cool < 10 ∨ s.dev.pow.few = true ∨ s.dev.f ⟨0x40020004, 6, 1⟩ = 1)) ∧
    (∃ (s : State) (elapsed : Nat), elapsed < 10) ∧
    (∃ (s : State) (elapsed : Nat), 10 ≤ elapsed ∧ s.dev.mode ≠ 0 ∧ s.dev.pow.trip = false) ∧
    (∃ (s : State) (elapsed : Nat), 10 ≤ elapsed ∧ (s.dev.mode = 0 ∨ s.dev.pow.trip = true)) ∧
    (∃ (s : State), s.dev.pow.trip = true ∧ s.dev.pow.lanesOff = false) ∧
    (∃ (s : State), (s.dev.pow.trip = false ∨ s.dev.pow.lanesOff = true)) ∧
    (∃ (s : State), s.dev.pow.trip = true) ∧
    (∃ (s : State), s.dev.pow.trip = false) ∧
    (∃ (s : State) (elapsed : Nat), s.dev.pow.trip = true ∧ 1000 ≤ elapsed ∧ s.dev.mode ≠ 0 ∧ s.dev.pow.held = false) ∧
    (∃ (s : State) (elapsed : Nat), (s.dev.pow.trip = false ∨ elapsed < 1000)) :=
  ⟨⟨stRun, ((List.replicate 8 (400 : Int)) ++ List.replicate 24 800), false, by decide +kernel⟩,
   ⟨stRun, ((List.replicate 7 (400 : Int)) ++ [501] ++ List.replicate 24 800), true, by decide +kernel⟩,
   ⟨(stW [] fun d => { d with pow := { d.pow with hot := 2 } }), by decide +kernel⟩,
   ⟨(stW [] fun d => { d with pow := { d.pow with hot := 1 } }), by decide +kernel⟩,
   ⟨(stW [(0x40020004, 11)] fun d => { d with pow := { d.pow with cool := 10 } }), by decide +kernel⟩,
   ⟨(stW [(0x40020004, 11)] fun d => { d with pow := { d.pow with cool := 9 } }), by decide +kernel⟩,
   ⟨stRun, 9, by decide +kernel⟩,
   ⟨(stW [(0x42001000, 1)]), 10, by decide +kernel⟩,
   ⟨stMode 0, 10, by decide +kernel⟩,
   ⟨(stW [] fun d => { d with pow := { d.pow with trip := true } }), by decide +kernel⟩,
   ⟨stRun, by decide +kernel⟩,
   ⟨(stW [] fun d => { d with pow := { d.pow with trip := true } }), by decide +kernel⟩,
   ⟨stRun, by decide +kernel⟩,
   ⟨(stW [] fun d => { d with pow := { d.pow with trip := true } }), 1000, by decide +kernel⟩,
   ⟨(stW [] fun d => { d with pow := { d.pow with trip := true } }), 999, by decide +kernel⟩⟩

theorem wit_TickEdgesAdvanceTheLine :
    (∃ (s : State) (rival : Bool) (hm : BitVec 16), s.dev.coreOn = true ∧ s.dev.domOn 2 = true ∧ s.dev.pow.held = false ∧ s.dev.mode ≠ 0 ∧ s.dev.tide.line = none ∧ s.dev.tide.pendT = none ∧ s.dev.tide.next = none ∧ s.dev.fab.merge = none) ∧
    (∃ (s : State) (rival : Bool) (hm : BitVec 16), s.dev.coreOn = true ∧ s.dev.domOn 2 = true ∧ s.dev.pow.held = false ∧ (s.dev.mode = 3 ∨ s.dev.mode = 4) ∧ s.dev.red.paired = false ∧ s.dev.pow.autoRun = false ∧ s.dev.pow.modeCmd = some 5) ∧
    (∃ (s : State) (rival : Bool) (hm : BitVec 16), s.dev.coreOn = true ∧ s.dev.domOn 2 = true ∧ s.dev.pow.held = false ∧ s.dev.mode = 2 ∧ s.dev.red.paired = false ∧ s.dev.pow.modeCmd = some 4) ∧
    (∃ (s : State) (rival : Bool) (hm : BitVec 16), s.dev.coreOn = true ∧ (s.dev.domOn 2 = false ∨ s.dev.pow.held = true ∨ s.dev.mode = 0)) :=
  ⟨⟨stRun, false, 0, by decide +kernel⟩,
   ⟨(stW [] fun d => { d with pow := { d.pow with modeCmd := some 5 } }), false, 0, by decide +kernel⟩,
   ⟨(stW [(0x40010004, 2)] fun d => { d with pow := { d.pow with modeCmd := some 4 } }), false, 0, by decide +kernel⟩,
   ⟨stMode 0, false, 0, by decide +kernel⟩⟩


end Sys2Proof.Tests
end

section
/-! A refused plan image and the journal it is written to (03 R85, 18 R534, R536, R538): the refusal leaves two entries, the transaction's and
the object's, and either may overwrite an entry that was never flushed. -/
namespace Sys2Proof.Machine

/-- The fields of registers are read from `regs` alone. -/
theorem Dev.f_eq_of_regs_eq {d e : Dev} (h : d.regs = e.regs) (x : Fld) : d.f x = e.f x := by
  simp only [Dev.f, Dev.rd, h]

/-- A journal that has come round once: sequences 1 to 4096 are held and the flush has copied the oldest alone. The next entry overwrites
sequence 1, which is flushed; the one after it overwrites sequence 2, which is not (18 R534, R536). -/
def wrappedJournal : JrnU :=
  { seq := 4096, flushed := 1,
    slots := (List.range 4096).map fun i => (i, { seq := if i = 0 then 4096 else i, kind := 3, st := 1 }) }

/-- The reset device in RUN, with every domain powered and that journal. -/
def wrappedRun : State :=
  { State.reset with dev := { (State.reset.dev.wr 0x40010004 4).wr 0x4001000C 0xFFF with jrn := wrappedJournal } }

/-- An image that staging refuses by the first group of its checks, 0x0A300001 (03 Table ISL-12). -/
def unsoundImage : PlanImage := { sound := false, isles := [], strings := [], drivers := [] }

/-- The first entry that the transaction writes overwrites one that is flushed. -/
theorem wrappedRun_first_slot_flushed :
    ¬ wrappedRun.dev.jrn.flushed < (wrappedRun.dev.jslot (wrappedRun.dev.jrn.seq + 1)).seq := by decide +kernel

/-- No entry has been lost yet. -/
theorem wrappedRun_unflushedLoss : wrappedRun.dev.f jrnUnflushedLoss = 0 := by decide +kernel

/-- The second entry, the object's own, overwrites one that is not flushed: UNFLUSHED_LOSS is set (18 R536). -/
theorem wrappedRun_planImageWrite_unflushedLoss {t : State}
    (h : exec (.planImageWrite ⟨2, 0⟩ [] unsoundImage) wrappedRun = .next t) : t.dev.f jrnUnflushedLoss = 1 := by
  obtain rfl := Host.Outcome.next.inj h
  decide +kernel

/-- Refutes O9: the clause of an image that fails a check lets the registers change only where the first of the two journal entries overwrites
an unflushed one. In `wrappedRun` the first overwrites a flushed entry and the second an unflushed one, so that UNFLUSHED_LOSS is set all the
same. -/
theorem not_plansAreStagedLoadedAndCommitted : ¬ Obligations.PlansAreStagedLoadedAndCommitted := by
  unfold Obligations.PlansAreStagedLoadedAndCommitted
  rintro ⟨-, refused, -⟩
  obtain ⟨t, ht, -, -, hregs, -⟩ := refused wrappedRun ⟨2, 0⟩ [] unsoundImage
    (by decide +kernel) (by decide +kernel) (by decide +kernel) (by decide +kernel) (by decide +kernel) (by decide +kernel)
  have hkept : t.dev.regs = wrappedRun.dev.regs := hregs.resolve_right wrappedRun_first_slot_flushed
  have hloss := wrappedRun_planImageWrite_unflushedLoss ht
  rw [Dev.f_eq_of_regs_eq hkept, wrappedRun_unflushedLoss] at hloss
  exact absurd hloss (by decide)

end Sys2Proof.Machine
end

section
/-! What a message, a fault or a capture leaves alone: the frame of the fabric's queues, of the transmitters, and of the faults that a
step enters (06, 07, 09, 11, 13, 14). -/
namespace Sys2Proof.Machine

/-! ### What a loop keeps -/

theorem forEach_keeps {α β σ : Type} (g : σ → β) (l : List α) (f : α → σ → σ) (h : ∀ x d, g (f x d) = g d) (d : σ) :
    g (forEach l f d) = g d := by
  induction l generalizing d with
  | nil => rfl
  | cons x l ih => exact (ih (f x d)).trans (h x d)

theorem forUpTo_keeps {β σ : Type} (g : σ → β) (n : Nat) (f : Nat → σ → σ) (h : ∀ i d, g (f i d) = g d) (d : σ) :
    g (forUpTo n f d) = g d :=
  forEach_keeps g (List.range n) f h d

/-! ### The inner device -/

/-- The device without what faults, messages and their transport change: the strings, rings, lanes, ports, the fabric, the pair, and the
registers from the ring blocks up (19 Table REG-4). Free values drawn and outputs are left out too. -/
def Dev.inner (d : Dev) : Dev × (Nat → Word) :=
  ({ d with regs := [], draws := 0, out := [], strings := [], rings := [], lanes := [], ports := [], fab := {}, red := {} },
   fun a => if a < 0x42000000 then d.rd a else 0)

theorem Dev.isle_of_inner {d e : Dev} (h : e.inner = d.inner) (n : Nat) : e.isle n = d.isle n := by
  have hi : e.isles = d.isles := congrArg (fun x => x.1.isles) h
  simp only [Dev.isle, hi]
theorem Dev.jrn_of_inner {d e : Dev} (h : e.inner = d.inner) : e.jrn = d.jrn := congrArg (fun x => x.1.jrn) h
theorem Dev.pow_of_inner {d e : Dev} (h : e.inner = d.inner) : e.pow = d.pow := congrArg (fun x => x.1.pow) h
theorem Dev.f_of_inner {d e : Dev} (h : e.inner = d.inner) (x : Fld) (hx : x.addr < 0x42000000) : e.f x = d.f x := by
  have := congrFun (congrArg (fun y => y.2) h) x.addr
  simp only [Dev.inner, if_pos hx] at this
  simp only [Dev.f, this]

/-- A register from the ring blocks up lies outside. -/
theorem Dev.inner_wr (d : Dev) {a : Nat} (v : Word) (h : 0x42000000 ≤ a) : (d.wr a v).inner = d.inner := by
  refine Prod.ext rfl (funext fun b => ?_)
  by_cases hb : b < 0x42000000
  · have : b ≠ a := by omega
    simp only [Dev.inner, if_pos hb, Dev.rd_wr_ne d v this]
  · simp only [Dev.inner, if_neg hb]

theorem le_primAddr (b : Blk) (i off : Nat) (h : 0x42000000 ≤ blkBase b) : 0x42000000 ≤ primAddr b i off := by
  unfold primAddr; omega

@[simp] theorem Dev.inner_setF (d : Dev) (x : Fld) (v : Nat) (h : 0x42000000 ≤ x.addr) : (d.setF x v).inner = d.inner := d.inner_wr _ h
@[simp] theorem Dev.inner_raise (d : Dev) (x : Fld) (h : 0x42000000 ≤ x.addr) : (d.raise x).inner = d.inner := d.inner_wr _ h
@[simp] theorem Dev.inner_lower (d : Dev) (x : Fld) (h : 0x42000000 ≤ x.addr) : (d.lower x).inner = d.inner := d.inner_wr _ h
@[simp] theorem Dev.inner_count (d : Dev) (x : Fld) (n : Nat) (h : 0x42000000 ≤ x.addr) : (d.count x n).inner = d.inner := d.inner_wr _ h
theorem Dev.inner_ite {c : Prop} [Decidable c] {a b d : Dev} (ha : a.inner = d.inner) (hb : b.inner = d.inner) :
    (if c then a else b).inner = d.inner := by split <;> assumption
@[simp] theorem Dev.inner_emit (d : Dev) (o : Out) : (d.emit o).inner = d.inner := Prod.ext rfl rfl
@[simp] theorem Dev.inner_setLane (d : Dev) (n : Nat) (u : LaneU) : (d.setLane n u).inner = d.inner := Prod.ext rfl rfl
@[simp] theorem Dev.inner_modLane (d : Dev) (n : Nat) (g : LaneU → LaneU) : (d.modLane n g).inner = d.inner := Prod.ext rfl rfl
@[simp] theorem Dev.inner_modStr (d : Dev) (n : Nat) (g : StringU → StringU) : (d.modStr n g).inner = d.inner := Prod.ext rfl rfl
@[simp] theorem Dev.inner_modRing (d : Dev) (n : Nat) (g : RingU → RingU) : (d.modRing n g).inner = d.inner := Prod.ext rfl rfl
@[simp] theorem Dev.inner_modPort (d : Dev) (n : Nat) (g : PortU → PortU) : (d.modPort n g).inner = d.inner := Prod.ext rfl rfl
@[simp] theorem Dev.inner_modCred (d : Dev) (p c : Nat) (g : Credit → Credit) : (d.modCred p c g).inner = d.inner := Prod.ext rfl rfl

/-! ### Registers outside it -/

@[simp] theorem le_laneF (n off lo w : Nat) : 0x42000000 ≤ (laneF n off lo w).addr := le_primAddr .lane n off (by decide)
@[simp] theorem le_laneCtl (n lo w : Nat) : 0x42000000 ≤ (laneCtl n lo w).addr := le_laneF n 0 lo w
@[simp] theorem le_txMode (n : Nat) : 0x42000000 ≤ (txMode n).addr := le_laneF n 4 8 2
@[simp] theorem le_stpF (off lo w : Nat) : 0x42000000 ≤ (stpF off lo w).addr := le_primAddr .stp 0 off (by decide)
@[simp] theorem le_stpTStat (i : Nat) : 0x42000000 ≤ (stpTStat i).addr := le_stpF 0x22C i 1
@[simp] theorem le_capReg (j off : Nat) : 0x42000000 ≤ capReg j off := le_primAddr .stp 0 _ (by decide)
@[simp] theorem le_capState (j : Nat) : 0x42000000 ≤ (capState j).addr := le_capReg j 0x10
@[simp] theorem le_srtEvt (i : Nat) : 0x42000000 ≤ (srtEvt i).addr := by simp [srtEvt]
@[simp] theorem le_safReg (off : Nat) : 0x42000000 ≤ safReg off := le_primAddr .saf 0 off (by decide)
@[simp] theorem le_safB (i : Nat) : 0x42000000 ≤ (safB i).addr := le_safReg 0x10
@[simp] theorem le_nrwReg (r off : Nat) : 0x42000000 ≤ nrwReg r off := le_primAddr .nrw r off (by decide)
@[simp] theorem le_mpoReg (p off : Nat) : 0x42000000 ≤ mpoReg p off := le_primAddr .mpo p off (by decide)
@[simp] theorem le_mpoStat (p i : Nat) : 0x42000000 ≤ (mpoStat p i).addr := le_mpoReg p 4
@[simp] theorem le_mpoState (p : Nat) : 0x42000000 ≤ (mpoState p).addr := le_mpoReg p 4
@[simp] theorem le_mpoCause (p : Nat) : 0x42000000 ≤ (mpoCause p).addr := le_mpoReg p 4

/-! ### Transmitters and the fabric's queues keep the inner device -/

@[simp] theorem setTx_inner (n m : Nat) (d : Dev) : (setTx n m d).inner = d.inner := by simp [setTx]
@[simp] theorem txTo_inner (n m : Nat) (d : Dev) : (txTo n m d).inner = d.inner := by simp [txTo, apply_ite Dev.inner]
@[simp] theorem trainBurst_inner (n k : Nat) (d : Dev) : (trainBurst n k d).inner = d.inner := by simp [trainBurst]
@[simp] theorem wakeTx_inner (n : Nat) (d : Dev) : (wakeTx n d).inner = d.inner := by simp [wakeTx, apply_ite Dev.inner]
@[simp] theorem autoWake_inner (n : Nat) (d : Dev) : (autoWake n d).inner = d.inner := by simp [autoWake, apply_ite Dev.inner]
@[simp] theorem idleLane_inner (n k : Nat) (d : Dev) : (idleLane n k d).inner = d.inner := by simp [idleLane, apply_ite Dev.inner]
@[simp] theorem laneFlow_inner (n k : Nat) (d : Dev) : (laneFlow n k d).inner = d.inner := by simp [laneFlow, apply_ite Dev.inner]
@[simp] theorem giveOrdered_inner (n at_ : Nat) (b : Bool) (l : List LBlk) (d : Dev) : (giveOrdered n at_ b l d).inner = d.inner := by
  simp [giveOrdered, apply_ite Dev.inner]

@[simp] theorem sendLocal_inner (x : Scope) (typ len : Nat) (m : Msg) (d : Dev) : (sendLocal x typ len m d).inner = d.inner := by
  unfold sendLocal
  exact Dev.inner_ite (by cases x <;> simp) rfl
@[simp] theorem admitLocal_inner (d : Dev) : (admitLocal d).inner = d.inner :=
  forEach_keeps Dev.inner _ _ (fun q d => by split <;> rfl) d
@[simp] theorem whenDo_inner (c : Bool) (f : Dev → Dev) (d : Dev) (h : (f d).inner = d.inner) : (whenDo c f d).inner = d.inner := by
  simp [whenDo, apply_ite Dev.inner, h]
@[simp] theorem showQueues_inner (d : Dev) : (showQueues d).inner = d.inner := by
  unfold showQueues
  rw [whenDo_inner _ _ _ (by simp)]
  exact forUpTo_keeps Dev.inner 4 _ (fun p d => by simp) d
@[simp] theorem sendCsync_inner (p c at_ : Nat) (d : Dev) : (sendCsync p c at_ d).inner = d.inner := by simp [sendCsync, creditBlk]
@[simp] theorem creditWaits_inner (at_ : Nat) (d : Dev) : (creditWaits at_ d).inner = d.inner :=
  forUpTo_keeps Dev.inner 4 _ (fun p d => forUpTo_keeps Dev.inner 4 _ (fun c d => by simp [apply_ite Dev.inner]) d) d
@[simp] theorem takeOut_inner (d : Dev) : (takeOut d).inner = d.inner := by
  unfold takeOut
  split
  · rfl
  · simp only [creditWaits_inner, showQueues_inner, admitLocal_inner]
    exact forEach_keeps Dev.inner _ _ (fun o d => by cases o <;> simp) d
theorem finish_inner (s : State) (d : Dev) : (finish s d).dev.inner = d.inner := by
  unfold finish
  split
  · exact takeOut_inner _
  · exact takeOut_inner d

/-! ### Faults and captures keep the inner device -/

@[simp] theorem capTrigger_inner (j kt : Nat) (d : Dev) : (capTrigger j kt d).inner = d.inner := by
  unfold capTrigger
  split
  · dsimp only
    split <;> simp
  · simp
  · simp
  · rfl
@[simp] theorem capFire_inner (src : Nat) (d : Dev) : (capFire src d).inner = d.inner :=
  forUpTo_keeps Dev.inner 8 _ (fun j d => by simp [apply_ite Dev.inner]) d
@[simp] theorem cwSend_inner (x typ len : Nat) (m : Msg) (d : Dev) : (cwSend x typ len m d).inner = d.inner :=
  forUpTo_keeps Dev.inner _ _ (fun i d => by simp [apply_ite Dev.inner]) d
@[simp] theorem fqEnter_inner (x cause pos stamp : Nat) (d : Dev) : (fqEnter x cause pos stamp d).inner = d.inner := by
  simp [fqEnter, apply_ite Dev.inner]
@[simp] theorem cellFault_inner (n cause stamp : Nat) (d : Dev) : (cellFault n cause stamp d).inner = d.inner := by
  simp [cellFault]
@[simp] theorem classB_inner (bit n : Nat) (d : Dev) : (classB bit (some n) d).inner = d.inner := by
  simp [classB, Dev.inner_wr]
@[simp] theorem haltOne_inner (r i : Nat) (byp : Bool) (stamp : Nat) (d : Dev) : (haltOne r i byp stamp d).inner = d.inner := by
  unfold haltOne
  split
  · rfl
  · dsimp only
    split <;> simp [apply_ite Dev.inner, setHalt]
@[simp] theorem lvbStop_inner (n stamp : Nat) (d : Dev) : (lvbStop n stamp d).inner = d.inner := by
  simp [lvbStop, apply_ite Dev.inner]
@[simp] theorem portGatesOff_inner (p : Nat) (d : Dev) : (portGatesOff p d).inner = d.inner :=
  forUpTo_keeps Dev.inner 3 _ (fun x d => by simp) _
@[simp] theorem portFault_inner (p cause : Nat) (d : Dev) : (portFault p cause d).inner = d.inner := by
  unfold portFault
  dsimp only
  split
  · simp
  · rfl

end Sys2Proof.Machine
end

section
/-! Protected memories (01 R28 to R34): the cycles of a bank, the reactions to an uncorrectable word, the restart of the supervisor. -/
namespace Sys2Proof.Machine

/-! ### The frame of a step that keeps to the core -/

/-- While the core runs, a meaning of the core acts. -/
theorem runCore_on {s : State} (hc : s.dev.coreOn = true) (f : Dev → Dev) :
    runCore s f = .next (finish s (f { s.dev with out := [] })) := by
  have : ({ s.dev with out := [] } : Dev).coreOn = true := hc
  simp only [runCore, runIn, run, this, if_true]

/-- A step that sends nothing and ends no burn leaves the device that its meaning gives. -/
theorem finish_silent {s : State} {d : Dev} (ho : d.out = []) (hb : d.saf = s.dev.saf) : (finish s d).dev = d := by
  have hq : takeOut d = d := takeOut_quiet d (by simp [quiet, ho])
  unfold finish
  split
  · next h1 h2 => rw [hb, h1] at h2; cases h2
  · exact hq

theorem runCore_silent {s : State} (hc : s.dev.coreOn = true) {f : Dev → Dev} {e : Dev} (he : f { s.dev with out := [] } = e)
    (ho : e.out = []) (hs : e.saf = s.dev.saf) : ∃ t, runCore s f = .next t ∧ t.dev = e := by
  subst he
  exact ⟨_, runCore_on hc f, finish_silent ho hs⟩

theorem RegsKept.refl (as : List Nat) (d : Dev) : RegsKept as d d := fun _ _ => rfl
theorem RegsKept.wr {as : List Nat} {d e : Dev} (h : RegsKept as d e) {a : Nat} (ha : a ∈ as) (v : Word) : RegsKept as d (e.wr a v) :=
  fun b hb => (Dev.rd_wr_ne e v (ne_of_mem_of_not_mem ha hb).symm).trans (h b hb)
theorem RegsKept.setF {as : List Nat} {d e : Dev} (h : RegsKept as d e) {x : Fld} (ha : x.addr ∈ as) (v : Nat) : RegsKept as d (e.setF x v) :=
  h.wr ha _
theorem RegsKept.raise {as : List Nat} {d e : Dev} (h : RegsKept as d e) {x : Fld} (ha : x.addr ∈ as) : RegsKept as d (e.raise x) :=
  h.wr ha _
theorem RegsKept.count {as : List Nat} {d e : Dev} (h : RegsKept as d e) {x : Fld} (ha : x.addr ∈ as) (n : Nat) : RegsKept as d (e.count x n) :=
  h.wr ha _

/-- From `d` to `e` registers alone changed. -/
def RegsAlone (d e : Dev) : Prop := ∃ r, e = { d with regs := r }

theorem RegsAlone.refl (d : Dev) : RegsAlone d d := ⟨d.regs, rfl⟩
theorem RegsAlone.wr {d e : Dev} (h : RegsAlone d e) (a : Nat) (v : Word) : RegsAlone d (e.wr a v) := by
  obtain ⟨r, rfl⟩ := h
  exact ⟨_, rfl⟩
theorem RegsAlone.setF {d e : Dev} (h : RegsAlone d e) (x : Fld) (v : Nat) : RegsAlone d (e.setF x v) := h.wr _ _
theorem RegsAlone.raise {d e : Dev} (h : RegsAlone d e) (x : Fld) : RegsAlone d (e.raise x) := h.wr _ _
theorem RegsAlone.count {d e : Dev} (h : RegsAlone d e) (x : Fld) (n : Nat) : RegsAlone d (e.count x n) := h.wr _ _

theorem RegsKept.f {as : List Nat} {d e : Dev} (h : RegsKept as d e) {x : Fld} (hx : x.addr ∉ as) : e.f x = d.f x := by
  simp only [Dev.f, h _ hx]

theorem RegsAlone.out {d e : Dev} (h : RegsAlone d e) : e.out = d.out := by obtain ⟨r, rfl⟩ := h; rfl
theorem RegsAlone.saf {d e : Dev} (h : RegsAlone d e) : e.saf = d.saf := by obtain ⟨r, rfl⟩ := h; rfl
theorem RegsAlone.bus {d e : Dev} (h : RegsAlone d e) : e.bus = d.bus := by obtain ⟨r, rfl⟩ := h; rfl
theorem RegsAlone.isles {d e : Dev} (h : RegsAlone d e) : e.isles = d.isles := by obtain ⟨r, rfl⟩ := h; rfl
theorem RegsAlone.strings {d e : Dev} (h : RegsAlone d e) : e.strings = d.strings := by obtain ⟨r, rfl⟩ := h; rfl
theorem RegsAlone.jslot {d e : Dev} (h : RegsAlone d e) (n : Nat) : e.jslot n = d.jslot n := by obtain ⟨r, rfl⟩ := h; rfl

theorem OnlyRegs.of_alone {as : List Nat} {d e : Dev} (h : RegsKept as d e) (ha : RegsAlone { d with out := [] } e) : OnlyRegs as d e := by
  obtain ⟨r, rfl⟩ := ha
  exact ⟨h, rfl⟩

/-! ### Fields of the ECC registers (01 Table ARC-10) -/

theorem eccF_eq (off lo w : Nat) : eccF off lo w = ⟨0x40000000 + off, lo, w⟩ := by
  simp [eccF, primAddr, blkBase, blkStride]
theorem eccF_memory (mem lo w : Nat) : eccF (0x150 + 4 * mem) lo w = ⟨0x40000150 + 4 * mem, lo, w⟩ := by
  rw [eccF_eq, ← Nat.add_assoc]

/-- 01 R30, R33: what one corrected word leaves in the registers. -/
theorem correctedCount_one (mem : Nat) (two : Bool) (d : Dev) :
    correctedCount mem 1 two d =
      (d.raise ⟨0x40000140, mem, 1⟩).count (if two then ⟨0x40000150 + 4 * mem, 16, 8⟩ else ⟨0x40000150 + 4 * mem, 0, 16⟩) 1 := by
  rw [correctedCount, if_neg Nat.one_ne_zero, eccF_memory, eccF_memory, eccF_eq]

theorem correctedCount_raises {mem : Nat} (hm : mem < 5) (two : Bool) (d : Dev) :
    (correctedCount mem 1 two d).f ⟨0x40000140, mem, 1⟩ = 1 := by
  rw [correctedCount_one, Dev.f_count_other, Dev.f_raise_same _ _ (by dsimp only; omega) (by simp)]
  cases two <;> simp <;> omega

theorem correctedCount_counts_one (mem : Nat) (d : Dev) :
    (correctedCount mem 1 false d).f ⟨0x40000150 + 4 * mem, 0, 16⟩ = min (d.f ⟨0x40000150 + 4 * mem, 0, 16⟩ + 1) 65535 := by
  rw [correctedCount_one, if_neg (by decide), Dev.f_count_same _ _ _ (by simp), Dev.f_raise_other _ _ _ (.inl (by dsimp only; omega))]
  rfl
theorem correctedCount_counts_two (mem : Nat) (d : Dev) :
    (correctedCount mem 1 true d).f ⟨0x40000150 + 4 * mem, 16, 8⟩ = min (d.f ⟨0x40000150 + 4 * mem, 16, 8⟩ + 1) 255 := by
  rw [correctedCount_one, if_pos rfl, Dev.f_count_same _ _ _ (by simp), Dev.f_raise_other _ _ _ (.inl (by dsimp only; omega))]
  rfl
theorem correctedCount_regs (mem : Nat) (two : Bool) (d : Dev) :
    RegsKept [0x40000140, 0x40000150 + 4 * mem] d (correctedCount mem 1 two d) := by
  rw [correctedCount_one]
  exact ((RegsKept.refl _ d).raise (by simp)).count (by cases two <;> simp) 1
theorem correctedCount_alone (mem : Nat) (two : Bool) (d : Dev) : RegsAlone d (correctedCount mem 1 two d) := by
  rw [correctedCount_one]
  exact ((RegsAlone.refl d).raise _).count _ 1

/-! ### Uncorrectable words (01 R32 to R34) -/

/-- 01 R33, R34: what an uncorrectable word shows, before its memory reacts: the flag and number of the memory, the count, the place. -/
def ueShown (mem bank word : Nat) (d : Dev) : Dev :=
  (((d.raise ⟨0x40000140, 8 + mem, 1⟩).setF ⟨0x40000140, 16, 3⟩ mem).count ⟨0x40000150 + 4 * mem, 24, 8⟩ 1).wr 0x40000148
    (BitVec.ofNat 32 (bank % 256 * 2 ^ 24 + word % 2 ^ 15))

theorem uncorrectable_eq (mem bank word : Nat) (use : ShoalUse) (at_ : Nat) (d : Dev) :
    uncorrectable mem bank word use at_ d = ueReaction mem bank word use at_ (ueShown mem bank word d) := by
  unfold uncorrectable
  rw [eccF_memory, eccF_eq, eccF_eq, ueShown, show primAddr .sys 0 0x148 = 0x40000148 from rfl]

theorem ueShown_alone (mem bank word : Nat) (d : Dev) : RegsAlone d (ueShown mem bank word d) :=
  ((((RegsAlone.refl d).raise _).setF _ mem).count _ 1).wr _ _
theorem ueShown_regs (mem bank word : Nat) (d : Dev) :
    RegsKept [0x40000140, 0x40000148, 0x40000150 + 4 * mem] d (ueShown mem bank word d) :=
  ((((RegsKept.refl _ d).raise (by simp)).setF (by simp) mem).count (by simp) 1).wr (by simp) _
theorem ueShown_place (mem bank word : Nat) (d : Dev) :
    (ueShown mem bank word d).rd 0x40000148 = BitVec.ofNat 32 (bank % 256 * 2 ^ 24 + word % 2 ^ 15) :=
  Dev.rd_wr_same _ _ _
theorem ueShown_memory (mem bank word : Nat) (d : Dev) : (ueShown mem bank word d).f ⟨0x40000140, 16, 3⟩ = mem % 8 := by
  rw [ueShown, Dev.f_wr_ne _ _ _ _ (by decide), Dev.f_count_other _ _ _ _ (.inl (by dsimp only; omega)), Dev.f_setF_same _ _ _ (by simp)]
  rfl
theorem ueShown_counts (mem bank word : Nat) (d : Dev) :
    (ueShown mem bank word d).f ⟨0x40000150 + 4 * mem, 24, 8⟩ = min (d.f ⟨0x40000150 + 4 * mem, 24, 8⟩ + 1) 255 := by
  rw [ueShown, Dev.f_wr_ne _ _ _ _ (by dsimp only; omega), Dev.f_count_same _ _ _ (by simp),
    Dev.f_setF_other _ _ _ _ (.inl (by dsimp only; omega)), Dev.f_raise_other _ _ _ (.inl (by dsimp only; omega))]
  rfl

/-! ### Cycles of a bank (01 R28 to R31) -/

theorem scrubAccess_on {s : State} {mem : Fin 5} {bank : Nat} (hc : s.dev.coreOn = true) (hb : bank < bankCount mem.val)
    (hm : memOn mem.val bank s.dev = true) (c : BankCycle) (bits : Fin 4) (use : ShoalUse) (at_ : Nat) :
    exec (.scrubAccess mem bank c bits use at_) s =
      .next (finish s (bankCycle mem.val bank c bits.val use at_ { s.dev with out := [] })) := by
  have ham : memOn mem.val bank ({ s.dev with out := [] } : Dev) = true := hm
  refine (runCore_on hc _).trans ?_
  simp only [hb, ham, decide_true, Bool.and_self, if_true]

/-- A cycle that sends nothing and starts no burn leaves what `bankCycle` gives. -/
theorem scrubAccess_silent {s : State} {mem : Fin 5} {bank : Nat} {c : BankCycle} {bits : Fin 4} {use : ShoalUse} {at_ : Nat}
    (hc : s.dev.coreOn = true) (hb : bank < bankCount mem.val) (hm : memOn mem.val bank s.dev = true) {e : Dev}
    (he : bankCycle mem.val bank c bits.val use at_ { s.dev with out := [] } = e) (ho : e.out = []) (hs : e.saf = s.dev.saf) :
    ∃ t, exec (.scrubAccess mem bank c bits use at_) s = .next t ∧ t.dev = e := by
  subst he
  exact ⟨_, scrubAccess_on hc hb hm c bits use at_, finish_silent ho hs⟩

/-- 01 R30: a corrected word waits to be written back. -/
def queueBack (mem bank word : Nat) (d : Dev) : Dev :=
  { d with bus := { d.bus with writeBack := d.bus.writeBack ++ [(mem, bank, word)] } }

theorem wordRead_one (mem bank word : Nat) (use : ShoalUse) (at_ : Nat) (d : Dev) :
    wordRead mem bank word 1 use at_ d = queueBack mem bank word (correctedCount mem 1 false d) := rfl
theorem wordRead_two (mem bank word : Nat) (use : ShoalUse) (at_ : Nat) (d : Dev) :
    wordRead mem bank word 2 use at_ d = queueBack mem bank word (correctedCount mem 1 true d) := rfl
theorem wordRead_three (mem bank word : Nat) (use : ShoalUse) (at_ : Nat) (d : Dev) :
    wordRead mem bank word 3 use at_ d = ueReaction mem bank word use at_ (ueShown mem bank word d) :=
  uncorrectable_eq mem bank word use at_ d

/-- 01 R28: a slot that finds no error goes on to the next word. -/
theorem scrub_clean_advances {s : State} {mem : Fin 5} {bank : Nat} (use : ShoalUse) (at_ : Nat) (hc : s.dev.coreOn = true)
    (hb : bank < bankCount mem.val) (hm : memOn mem.val bank s.dev = true) :
    ∃ t, exec (.scrubAccess mem bank .scrub 0 use at_) s = .next t ∧ t.dev = scrubOn mem.val bank { s.dev with out := [] } :=
  scrubAccess_silent hc hb hm rfl rfl rfl

/-- 01 R28: a functional access to the very word is served, and the scrubber stays at it. -/
theorem scrub_yields_to_access {s : State} {mem : Fin 5} {bank : Nat} (write : Bool) (use : ShoalUse) (at_ : Nat)
    (hc : s.dev.coreOn = true) (hb : bank < bankCount mem.val) (hm : memOn mem.val bank s.dev = true) :
    ∃ t, exec (.scrubAccess mem bank (.both (scrubAt mem.val bank s.dev) write) 0 use at_) s = .next t ∧
      t.dev.bus.scrub = s.dev.bus.scrub ∧ OnlyRegs [] s.dev { t.dev with bus := s.dev.bus } := by
  have served : ∀ d : Dev, bankCycle mem.val bank (.both (scrubAt mem.val bank d) write) 0 use at_ d =
      if write then dropBack mem.val bank (scrubAt mem.val bank d) d else d := fun d => if_pos rfl
  obtain ⟨t, ht, hd⟩ := scrubAccess_silent (bits := 0) hc hb hm (served _) (by cases write <;> rfl) (by cases write <;> rfl)
  refine ⟨t, ht, ?_⟩
  rw [hd]
  cases write <;> exact ⟨rfl, fun _ _ => rfl, rfl⟩

theorem scrub_corrected {s : State} {mem : Fin 5} {bank : Nat} (two : Bool) (use : ShoalUse) (at_ : Nat) (hc : s.dev.coreOn = true)
    (hb : bank < bankCount mem.val) (hm : memOn mem.val bank s.dev = true) :
    ∃ t, exec (.scrubAccess mem bank .scrub (if two then 2 else 1) use at_) s = .next t ∧
      t.dev = queueBack mem.val bank (scrubAt mem.val bank s.dev)
        (correctedCount mem.val 1 two (scrubOn mem.val bank { s.dev with out := [] })) := by
  have hcount := correctedCount_alone mem.val two (scrubOn mem.val bank { s.dev with out := [] })
  exact scrubAccess_silent hc hb hm (by cases two <;> rfl) hcount.out hcount.saf

theorem scrub_corrected_waits {s : State} {mem : Fin 5} {bank : Nat} (two : Bool) :
    (queueBack mem.val bank (scrubAt mem.val bank s.dev)
        (correctedCount mem.val 1 two (scrubOn mem.val bank { s.dev with out := [] }))).bus.writeBack =
      s.dev.bus.writeBack ++ [(mem.val, bank, scrubAt mem.val bank s.dev)] := by
  have hcount := correctedCount_alone mem.val two (scrubOn mem.val bank { s.dev with out := [] })
  exact congrArg (·.writeBack ++ _) hcount.bus

/-- 01 R30, R33: a word with one bit corrected. -/
theorem scrub_corrects_one {s : State} {mem : Fin 5} {bank : Nat} (use : ShoalUse) (at_ : Nat) (hc : s.dev.coreOn = true)
    (hb : bank < bankCount mem.val) (hm : memOn mem.val bank s.dev = true) :
    ∃ t, exec (.scrubAccess mem bank .scrub 1 use at_) s = .next t ∧
      t.dev.f ⟨0x40000150 + 4 * mem.val, 0, 16⟩ = min (s.dev.f ⟨0x40000150 + 4 * mem.val, 0, 16⟩ + 1) 65535 ∧
      t.dev.f ⟨0x40000140, mem.val, 1⟩ = 1 ∧
      t.dev.bus.writeBack = s.dev.bus.writeBack ++ [(mem.val, bank, scrubAt mem.val bank s.dev)] ∧
      RegsKept [0x40000140, 0x40000150 + 4 * mem.val] s.dev t.dev := by
  obtain ⟨t, ht, hd⟩ := scrub_corrected false use at_ hc hb hm
  refine ⟨t, ht, ?_⟩
  rw [hd]
  exact ⟨correctedCount_counts_one mem.val _, correctedCount_raises mem.isLt false _, scrub_corrected_waits false,
    correctedCount_regs mem.val false _⟩

/-- 01 R30, R33: a word with two bits corrected. -/
theorem scrub_corrects_two {s : State} {mem : Fin 5} {bank : Nat} (use : ShoalUse) (at_ : Nat) (hc : s.dev.coreOn = true)
    (hb : bank < bankCount mem.val) (hm : memOn mem.val bank s.dev = true) :
    ∃ t, exec (.scrubAccess mem bank .scrub 2 use at_) s = .next t ∧
      t.dev.f ⟨0x40000150 + 4 * mem.val, 16, 8⟩ = min (s.dev.f ⟨0x40000150 + 4 * mem.val, 16, 8⟩ + 1) 255 ∧
      t.dev.bus.writeBack = s.dev.bus.writeBack ++ [(mem.val, bank, scrubAt mem.val bank s.dev)] := by
  obtain ⟨t, ht, hd⟩ := scrub_corrected true use at_ hc hb hm
  refine ⟨t, ht, ?_⟩
  rw [hd]
  exact ⟨correctedCount_counts_two mem.val _, scrub_corrected_waits true⟩

/-- PD_2 is powered while the core runs. -/
theorem Dev.domOn_of_coreOn {d : Dev} (h : d.coreOn = true) : d.domOn 2 = true :=
  (Bool.and_eq_true_iff.mp h).1
theorem memOn_of_coreOn {d : Dev} (h : d.coreOn = true) {mem : Nat} (hm : mem ≠ 0) (bank : Nat) : memOn mem bank d = true := by
  simp [memOn, Dev.domOn_of_coreOn h, hm]

/-- 01 R32 to R34, Table ARC-9: an uncorrectable Shoal word in no use is shown and counted alone. -/
theorem shoal_free_word_shown {s : State} {bank word : Nat} (at_ : Nat) (hc : s.dev.coreOn = true) (hb : bank < 32) (hw : word < 16384) :
    ∃ t, exec (.scrubAccess 1 bank (.access word false) 3 .free at_) s = .next t ∧
      t.dev.rd 0x40000148 = BitVec.ofNat 32 (bank * 2 ^ 24 + word) ∧ t.dev.f ⟨0x40000140, 16, 3⟩ = 1 ∧
      t.dev.f ⟨0x40000154, 24, 8⟩ = min (s.dev.f ⟨0x40000154, 24, 8⟩ + 1) 255 ∧
      OnlyRegs [0x40000140, 0x40000148, 0x40000154] s.dev t.dev := by
  have hshown := ueShown_alone 1 bank word { s.dev with out := [] }
  obtain ⟨t, ht, hd⟩ := scrubAccess_silent (mem := 1) (c := .access word false) (bits := 3) (use := .free) (at_ := at_)
    hc hb (memOn_of_coreOn hc (by decide) bank) (wordRead_three 1 bank word .free at_ _) hshown.out hshown.saf
  have hplace : bank % 256 * 2 ^ 24 + word % 2 ^ 15 = bank * 2 ^ 24 + word := by omega
  refine ⟨t, ht, ?_⟩
  rw [hd]
  exact ⟨hplace ▸ ueShown_place 1 bank word _, ueShown_memory 1 bank word _, ueShown_counts 1 bank word _,
    .of_alone (ueShown_regs 1 bank word _) hshown⟩

/-! ### Isles, the supervisor, the journal -/

theorem isleUe_inner (n stamp : Nat) (d : Dev) :
    (isleUe n stamp d).inner = (d.modIsle n fun u => { u with istate := 0, ueStop := true }).inner := by
  unfold isleUe
  dsimp only
  split
  · exact cellFault_inner n 0x01 stamp _
  · exact lvbStop_inner n stamp _
  · exact portFault_inner _ 7 _
  · rfl
theorem isleUe_stops (n stamp : Nat) (d : Dev) :
    ((isleUe n stamp d).isle n).ueStop = true ∧ ((isleUe n stamp d).isle n).istate = 0 := by
  rw [Dev.isle_of_inner (isleUe_inner n stamp d)]
  simp [Dev.modIsle]

/-- 01 Table ARC-9: whatever follows for its string, node or port, the isle itself has stopped. -/
theorem isle_memory_stops {s : State} (n : Fin 256) (word : Nat) (use : ShoalUse) (at_ : Nat) (hc : s.dev.coreOn = true)
    (hm : memOn 0 n.val s.dev = true) :
    ∃ t, exec (.scrubAccess 0 n.val (.access word false) 3 use at_) s = .next t ∧
      (t.dev.isle n.val).ueStop = true ∧ (t.dev.isle n.val).istate = 0 := by
  have hcycle : ∀ d : Dev, bankCycle 0 n.val (.access word false) 3 use at_ d =
      isleUe n.val at_ (hurtBank n.val word (ueShown 0 n.val word d)) := wordRead_three 0 n.val word use at_
  refine ⟨_, (scrubAccess_on (mem := 0) hc n.isLt hm (.access word false) 3 use at_).trans
    (congrArg (fun d => Host.Outcome.next (finish s d)) (hcycle _)), ?_⟩
  rw [Dev.isle_of_inner (finish_inner s _)]
  exact isleUe_stops n.val at_ _

theorem supervisorRestart_out (d : Dev) : (supervisorRestart d).out = d.out := rfl
theorem supervisorRestart_saf (d : Dev) : (supervisorRestart d).saf = d.saf := rfl
theorem supervisorRestart_isles (d : Dev) : (supervisorRestart d).isles = d.isles := rfl
theorem supervisorRestart_strings (d : Dev) : (supervisorRestart d).strings = d.strings := rfl
theorem supervisorRestart_restart (d : Dev) : (supervisorRestart d).pow.restart = true := rfl
theorem supervisorRestart_hold (d : Dev) : (supervisorRestart d).f ⟨0x40040000, 0, 1⟩ = 1 :=
  Dev.f_setF_same { d with pow := { d.pow with restart := true } } ⟨0x40040000, 0, 1⟩ 1 (by decide)
theorem supervisorRestart_regs (d : Dev) : RegsKept [0x40040000] d (supervisorRestart d) :=
  (RegsKept.refl _ d).setF (x := ⟨0x40040000, 0, 1⟩) (by simp) 1

/-- 01 R32, Table ARC-9. -/
theorem supervisor_memory_restarts {s : State} {bank : Nat} (word : Nat) (use : ShoalUse) (at_ : Nat) (hc : s.dev.coreOn = true)
    (hb : bank < 4) :
    ∃ t, exec (.scrubAccess 2 bank (.access word false) 3 use at_) s = .next t ∧
      t.dev.pow.restart = true ∧ t.dev.f ⟨0x40040000, 0, 1⟩ = 1 ∧ t.dev.isles = s.dev.isles ∧ t.dev.strings = s.dev.strings ∧
      t.dev.mode = s.dev.mode := by
  have hshown := ueShown_alone 2 bank word { s.dev with out := [] }
  obtain ⟨t, ht, hd⟩ := scrubAccess_silent (mem := 2) (c := .access word false) (bits := 3) (use := use) (at_ := at_)
    (e := supervisorRestart (ueShown 2 bank word { s.dev with out := [] })) hc hb (memOn_of_coreOn hc (by decide) bank)
    (wordRead_three 2 bank word use at_ _) ((supervisorRestart_out _).trans hshown.out) ((supervisorRestart_saf _).trans hshown.saf)
  have hmode : (supervisorRestart (ueShown 2 bank word { s.dev with out := [] })).f modeFld = s.dev.f modeFld :=
    ((supervisorRestart_regs _).f (by decide)).trans ((ueShown_regs 2 bank word _).f (by decide))
  refine ⟨t, ht, ?_⟩
  rw [hd]
  exact ⟨supervisorRestart_restart _, supervisorRestart_hold _, (supervisorRestart_isles _).trans hshown.isles,
    (supervisorRestart_strings _).trans hshown.strings, hmode⟩

theorem Dev.jslot_wr (d : Dev) (a : Nat) (v : Word) (n : Nat) : (d.wr a v).jslot n = d.jslot n := rfl
theorem Dev.jslot_raise (d : Dev) (x : Fld) (n : Nat) : (d.raise x).jslot n = d.jslot n := d.jslot_wr _ _ n
theorem Dev.jslot_count (d : Dev) (x : Fld) (k n : Nat) : (d.count x k).jslot n = d.jslot n := d.jslot_wr _ _ n
theorem Dev.jslot_setJslot_same (d : Dev) (n : Nat) (e : JEntry) : (d.setJslot n e).jslot n = e :=
  tget_tput_same _ d.jrn.slots (n % 4096) e

/-- 01 Table ARC-9: a journal entry held in a damaged word is marked. -/
def damageEntry (n : Nat) (d : Dev) : Dev :=
  ((d.setJslot n { d.jslot n with damaged := true }).raise (jrnStat 3)).count ⟨0x4500002C, 0, 8⟩

theorem ueReaction_journal {bank word : Nat} {use : ShoalUse} {at_ : Nat} {d : Dev} (h : (d.jslot (word / 4)).seq ≠ 0) :
    ueReaction 4 bank word use at_ d = damageEntry (word / 4) d := if_neg h
theorem damageEntry_jslot (n : Nat) (d : Dev) : ((damageEntry n d).jslot n).damaged = true := by
  rw [damageEntry, Dev.jslot_count, Dev.jslot_raise, Dev.jslot_setJslot_same]
theorem damageEntry_shown (n : Nat) (d : Dev) : (damageEntry n d).f ⟨0x45000004, 3, 1⟩ = 1 := by
  rw [damageEntry, Dev.f_count_other _ _ _ _ (by decide)]
  exact Dev.f_raise_same _ (jrnStat 3) (by decide) (by decide)

theorem damageEntry_out (n : Nat) (d : Dev) : (damageEntry n d).out = d.out := rfl
theorem damageEntry_saf (n : Nat) (d : Dev) : (damageEntry n d).saf = d.saf := rfl

/-- 01 Table ARC-9. -/
theorem journal_memory_damages {s : State} {bank word : Nat} (use : ShoalUse) (at_ : Nat) (hc : s.dev.coreOn = true) (hb : bank = 0)
    (hj : (s.dev.jslot (word / 4)).seq ≠ 0) :
    ∃ t, exec (.scrubAccess 4 bank (.access word false) 3 use at_) s = .next t ∧
      (t.dev.jslot (word / 4)).damaged = true ∧ t.dev.f ⟨0x45000004, 3, 1⟩ = 1 := by
  have hshown := ueShown_alone 4 bank word { s.dev with out := [] }
  have hheld : ((ueShown 4 bank word { s.dev with out := [] }).jslot (word / 4)).seq ≠ 0 := by
    rw [hshown.jslot]; exact hj
  obtain ⟨t, ht, hd⟩ := scrubAccess_silent (mem := 4) (c := .access word false) (bits := 3) (use := use) (at_ := at_)
    hc (hb ▸ Nat.one_pos) (memOn_of_coreOn hc (by decide) bank)
    ((wordRead_three 4 bank word use at_ _).trans (ueReaction_journal hheld))
    ((damageEntry_out _ _).trans hshown.out) ((damageEntry_saf _ _).trans hshown.saf)
  exact ⟨t, ht, hd ▸ damageEntry_jslot _ _, hd ▸ damageEntry_shown _ _⟩

/-- 01 R30. -/
theorem writeBack_done {s : State} (mem : Fin 5) (bank word : Nat) (hc : s.dev.coreOn = true) :
    ∃ t, exec (.eccWriteBack mem bank word) s = .next t ∧ OnlyRegs [] s.dev { t.dev with bus := s.dev.bus } ∧
      t.dev.bus.writeBack = s.dev.bus.writeBack.erase (mem.val, bank, word) := by
  obtain ⟨t, ht, hd⟩ := runCore_silent hc (f := dropBack mem.val bank word) rfl rfl rfl
  exact ⟨t, ht, by rw [hd]; exact ⟨⟨fun _ _ => rfl, rfl⟩, rfl⟩⟩

/-- 13 R393, 19 R566. -/
theorem watchdog_restarts {s : State} (hc : s.dev.coreOn = true) (hm : 2 ≤ s.dev.mode) :
    ∃ t, exec .supervisorWatchdog s = .next t ∧ t.dev.pow.restart = true ∧ t.dev.f ⟨0x40040000, 0, 1⟩ = 1 ∧
      OnlyRegs [0x40040000] s.dev { t.dev with pow := s.dev.pow, bus := s.dev.bus } := by
  have hrun : (fun d : Dev => if d.mode < 2 then d else supervisorRestart d) { s.dev with out := [] } =
      supervisorRestart { s.dev with out := [] } := if_neg (Nat.not_lt.mpr hm)
  obtain ⟨t, ht, hd⟩ := runCore_silent hc (f := fun d => if d.mode < 2 then d else supervisorRestart d) hrun rfl rfl
  refine ⟨t, ht, ?_⟩
  rw [hd]
  exact ⟨rfl, supervisorRestart_hold _, supervisorRestart_regs _, rfl⟩

/-! ### The end of a restart (01 R32, 18 R529, R534, R539) -/

theorem mirror_jrn (x : MirItem) (d : Dev) : (mirror x d).jrn = d.jrn := by
  unfold mirror; split <;> rfl
theorem mirror_pow (x : MirItem) (d : Dev) : (mirror x d).pow = d.pow := by
  unfold mirror; split <;> rfl
theorem jAppendV_seq (e : JEntry) (v : List Byte) (d : Dev) : (jAppendV e v d).jrn.seq = d.jrn.seq + 1 :=
  congrArg JrnU.seq (mirror_jrn _ _)
theorem jAppendV_pow (e : JEntry) (v : List Byte) (d : Dev) : (jAppendV e v d).pow = d.pow := by
  unfold jAppendV whenDo
  dsimp only
  rw [mirror_pow]
  split <;> rfl
theorem jRewrite_seq (n : Nat) (g : JEntry → JEntry) (d : Dev) : (jRewrite n g d).jrn.seq = d.jrn.seq := by
  unfold jRewrite
  dsimp only
  split
  · exact (congrArg JrnU.seq (mirror_jrn _ _)).trans rfl
  · rfl
theorem jRewrite_pow (n : Nat) (g : JEntry → JEntry) (d : Dev) : (jRewrite n g d).pow = d.pow := by
  unfold jRewrite
  dsimp only
  split
  · exact mirror_pow _ _
  · rfl
theorem maskEntry_seq (code : Word) (mask : Nat) (d : Dev) : (maskEntry code mask d).jrn.seq = d.jrn.seq + 1 := by
  unfold maskEntry
  dsimp only
  split
  · exact (jRewrite_seq _ _ _).trans (jAppendV_seq _ _ _)
  · exact jAppendV_seq _ _ _
theorem maskEntry_pow (code : Word) (mask : Nat) (d : Dev) : (maskEntry code mask d).pow = d.pow := by
  unfold maskEntry
  dsimp only
  split
  · exact (jRewrite_pow _ _ _).trans (jAppendV_pow _ _ _)
  · exact jAppendV_pow _ _ _
theorem cutPending_seq (d : Dev) : (cutPending d).jrn.seq = d.jrn.seq :=
  forEach_keeps (fun d : Dev => d.jrn.seq) _ _ (fun i d => by dsimp only; split <;> rfl) d
theorem cutPending_pow (d : Dev) : (cutPending d).pow = d.pow :=
  forEach_keeps Dev.pow _ _ (fun i d => by dsimp only; split <;> rfl) d

/-- What the journal holds as a restart ends: entries cut, the end noted, the mask of a commit that the restart kept. -/
def restartJournal (d : Dev) : Dev :=
  match (jEvent 0xB [] 0x2000 (cutPending d)).plan.due with
  | some x => maskEntry x.1 x.2 (jEvent 0xB [] 0x2000 (cutPending d))
  | none => jEvent 0xB [] 0x2000 (cutPending d)

theorem restartJournal_seq (d : Dev) : d.jrn.seq < (restartJournal d).jrn.seq := by
  have hevent : (jEvent 0xB [] 0x2000 (cutPending d)).jrn.seq = d.jrn.seq + 1 :=
    (jAppendV_seq _ _ _).trans (congrArg (· + 1) (cutPending_seq d))
  unfold restartJournal
  split
  · rw [maskEntry_seq, hevent]; omega
  · rw [hevent]; omega
theorem restartJournal_pow (d : Dev) : (restartJournal d).pow = d.pow := by
  have hevent : (jEvent 0xB [] 0x2000 (cutPending d)).pow = d.pow := (jAppendV_pow _ _ _).trans (cutPending_pow d)
  unfold restartJournal
  split
  · exact (maskEntry_pow _ _ _).trans hevent
  · exact hevent

theorem toPartner_inner (typ len : Nat) (m : Msg) (d : Dev) : (toPartner typ len m d).inner = d.inner := by
  unfold toPartner
  split
  · exact Dev.inner_emit d _
  · rfl
theorem sendMirror_inner (d : Dev) : (sendMirror d).inner = d.inner := by
  unfold sendMirror
  split
  · rfl
  · exact (toPartner_inner _ _ _ _).trans (Prod.ext rfl rfl)
theorem releaseHold_clears (d : Dev) : (releaseHold d).f ⟨0x40040000, 0, 1⟩ = 0 :=
  Dev.f_setF_same d ⟨0x40040000, 0, 1⟩ 0 (by decide)

theorem supervisorRestartDone_on {s : State} (hc : s.dev.coreOn = true) (hr : s.dev.pow.restart = true) :
    exec .supervisorRestartDone s = .next (finish s (sendMirror (releaseHold (restartJournal
      { s.dev with out := [], pow := { s.dev.pow with restart := false } })))) := by
  refine (runCore_on hc fun d => if !d.pow.restart then d else
    sendMirror (releaseHold (restartJournal { d with pow := { d.pow with restart := false } }))).trans ?_
  dsimp only
  rw [hr]
  rfl

/-- 01 R32, 21 R606: what the restart sends to the partner goes out in the same step and leaves HOLD, the restart and the journal alone. -/
theorem restart_ends {s : State} (hc : s.dev.coreOn = true) (hr : s.dev.pow.restart = true) :
    ∃ t, exec .supervisorRestartDone s = .next t ∧ t.dev.pow.restart = false ∧ t.dev.f ⟨0x40040000, 0, 1⟩ = 0 ∧
      s.dev.jrn.seq < t.dev.jrn.seq := by
  refine ⟨_, supervisorRestartDone_on hc hr, ?_⟩
  have hframe := fun d : Dev => (finish_inner s (sendMirror d)).trans (sendMirror_inner d)
  rw [Dev.pow_of_inner (hframe _), Dev.jrn_of_inner (hframe _), Dev.f_of_inner (hframe _) _ (by decide)]
  exact ⟨congrArg PowU.restart (restartJournal_pow _), releaseHold_clears _,
    restartJournal_seq { s.dev with out := [], pow := { s.dev.pow with restart := false } }⟩

/-- Settles O5: each clause is the lemma above that follows its command. -/
theorem memoryErrorsCountAndReact : Obligations.MemoryErrorsCountAndReact := by
  unfold Obligations.MemoryErrorsCountAndReact
  refine ⟨?_, ?_, ?_, ?_, ?_, ?_, ?_, ?_, ?_, ?_, ?_⟩
  · exact fun s mem bank use at_ hc hb hm => scrub_clean_advances use at_ hc hb hm
  · exact fun s mem bank write use at_ hc hb hm => scrub_yields_to_access write use at_ hc hb hm
  · exact fun s mem bank use at_ hc hb hm => scrub_corrects_one use at_ hc hb hm
  · exact fun s mem bank use at_ hc hb hm => scrub_corrects_two use at_ hc hb hm
  · exact fun s bank word at_ hc hb hw => shoal_free_word_shown at_ hc hb hw
  · exact fun s n word use at_ hc hm => isle_memory_stops n word use at_ hc hm
  · exact fun s bank word use at_ hc hb => supervisor_memory_restarts word use at_ hc hb
  · exact fun s bank word use at_ hc hb hj => journal_memory_damages use at_ hc hb hj
  · exact fun s mem bank word hc => writeBack_done mem bank word hc
  · exact fun s hc hm => watchdog_restarts hc hm
  · exact fun s hc hr => restart_ends hc hr

end Sys2Proof.Machine
end

section
/-! The loss of a reference and what the fabric sends in the same step (01 R21, 07 R211, 11 R330). -/
namespace Sys2Proof.Machine

/-- A broadcast of TC0 from the local origin, due on port 1. -/
def dueOnPortOne (acct : Nat) : QEntry := ⟨acct, [1], 1, 0, ⟨0xFFF, 0, 0, 6, 0, 16, 0, 0, 0, none, false, .other []⟩, 0⟩

/-- A device in RUN, every domain powered, with ports 0 and 1 of its fabric ACTIVE. The lanes of port 0 are UP. Lane 18 of port 1 lies in
electrical idle in both directions with AUTO_WAKE; a ferry for port 1 waits there without credit, and another for units of its class. -/
def idlePort : State :=
  { State.reset with dev :=
    { [(modeFld, 4), (fabEn, 1), (portState 0, 4), (portState 1, 4), (stpF 0x210 0 12, 0), (lstate 16, 6), (lstate 17, 6), (lstate 18, 7),
        (laneCtl 18 10 2, 1), (laneCtl 18 12 1, 1)].foldl (fun d x => d.setF x.1 x.2) (State.reset.dev.wr 0x4001000C 0xFFF) with
      fab := { queue := [dueOnPortOne 0], waiting := [dueOnPortOne 4] } } }

theorem idlePort_coreOn : idlePort.dev.coreOn = true := by decide +kernel
theorem idlePort_laneOn : idlePort.dev.laneOn 18 = true := by decide +kernel

/-- SREF is lost: port 0 goes down and advertises it on port 1; giving that to the fabric starts the credit timeout of port 1, whose CSYNC
wakes the transmitter of lane 18 after it was silenced: TX_MODE shows data. -/
theorem idlePort_transmits {t : State} (h : exec (.referenceLossOfLock 2) idlePort = .next t) : t.dev.f ⟨0x42204804, 8, 2⟩ = 2 := by
  obtain rfl := Host.Outcome.next.inj h
  decide +kernel

/-- Refutes O4: the clause of a lost reference asks that every powered lane it feeds has stopped transmitting when the step ends, from every
state. In `idlePort` lane 18 is woken again within the step. The clause has no premise that the lanes of a port with a link are UP, with which
the port would have gone down with its lanes and nothing would wake them. -/
theorem not_clockFaultsStopWhatTheyFeed : ¬ Obligations.ClockFaultsStopWhatTheyFeed := by
  unfold Obligations.ClockFaultsStopWhatTheyFeed
  rintro ⟨-, -, -, -, -, -, lost⟩
  obtain ⟨t, ht, silent, -⟩ := lost idlePort 2 idlePort_coreOn
  have hstopped : t.dev.f ⟨0x42204804, 8, 2⟩ = 0 := (silent 18 rfl idlePort_laneOn).1
  rw [idlePort_transmits ht] at hstopped
  exact absurd hstopped (by decide)

end Sys2Proof.Machine
end

section
/-! The fixed-point arithmetic of the control engine (04 R98 to R101): saturation, rounding half up, the shown result of a store. -/
namespace Sys2Proof.Machine

theorem satS_bounds (n : Nat) (v : Int) : -(2 ^ (n - 1)) ≤ satS n v ∧ satS n v < 2 ^ (n - 1) := by
  have hpos : (0 : Int) < 2 ^ (n - 1) := Int.pow_pos (by decide)
  unfold satS
  omega

theorem satS_of_mem {n : Nat} {v : Int} (hl : -(2 ^ (n - 1)) ≤ v) (hu : v < 2 ^ (n - 1)) : satS n v = v := by
  unfold satS
  omega

/-- A value that saturation changes lies beyond the limit that it gives. -/
theorem satS_of_ne {n : Nat} {v : Int} (h : satS n v ≠ v) :
    (v < -(2 ^ (n - 1)) ∧ satS n v = -(2 ^ (n - 1))) ∨ (2 ^ (n - 1) ≤ v ∧ satS n v = 2 ^ (n - 1) - 1) := by
  have hpos : (0 : Int) < 2 ^ (n - 1) := Int.pow_pos (by decide)
  unfold satS at h ⊢
  omega

/-- Division by 2h after adding h rounds half up: the result lies within half a step of x. -/
theorem roundHalfUp_bounds (x : Int) {h : Int} (hpos : 0 < h) :
    x - h < 2 * h * ((x + h) / (2 * h)) ∧ 2 * h * ((x + h) / (2 * h)) ≤ x + h := by
  have hsplit := Int.mul_ediv_add_emod (x + h) (2 * h)
  have hlow := Int.emod_nonneg (x + h) (b := 2 * h) (by omega)
  have hhigh := Int.emod_lt_of_pos (x + h) (b := 2 * h) (by omega)
  omega

theorem store15_fst (a : Int) (q : Sat) : (store15 a q).1 = satS 16 ((a + 2 ^ 14) / 2 ^ 15) := rfl

/-- 04 R99: a store counts exactly the values that it saturates. -/
theorem store15_snd_eq_iff (a : Int) (q : Sat) :
    (store15 a q).2 = q ↔ satS 16 ((a + 2 ^ 14) / 2 ^ 15) = (a + 2 ^ 14) / 2 ^ 15 := by
  unfold store15
  dsimp only
  split
  · next hsat => exact iff_of_true rfl hsat
  · next hsat => exact iff_of_false (fun h => absurd (congrArg Sat.out h) (Nat.succ_ne_self _)) hsat

/-- 04 R99: a store that does not saturate gives the nearest Q15 word, half up. -/
theorem store15_nearest {a : Int} {q : Sat} (h : (store15 a q).2 = q) :
    2 ^ 15 * (store15 a q).1 - 2 ^ 14 ≤ a ∧ a < 2 ^ 15 * (store15 a q).1 + 2 ^ 14 := by
  rw [store15_fst, (store15_snd_eq_iff a q).mp h]
  obtain ⟨hlow, hhigh⟩ := roundHalfUp_bounds a (h := 16384) (by decide)
  omega

/-- 04 R99: a store that saturates gives the limit on the side of its operand. -/
theorem store15_saturated {a : Int} {q : Sat} (h : (store15 a q).2 ≠ q) :
    (store15 a q).1 = if a < 0 then -32768 else 32767 := by
  rw [store15_fst]
  obtain ⟨hv, hs⟩ | ⟨hv, hs⟩ := satS_of_ne fun e => h ((store15_snd_eq_iff a q).mpr e)
  · rw [hs, if_pos (by omega)]
    rfl
  · rw [hs, if_neg (by omega)]
    rfl

/-- 04 R98: a product scaled down by 2^n is rounded half up. -/
theorem mac_neg (c x : Int) {n : Nat} (hn : 1 ≤ n) : mac c (-(n : Int)) x = (c * x + 2 ^ (n - 1)) / 2 ^ n := by
  rw [mac, if_neg (by omega), Int.neg_neg, Int.toNat_natCast]

theorem mac_neg_bounds (c x : Int) {n : Nat} (hn : 1 ≤ n) :
    c * x - 2 ^ (n - 1) < 2 ^ n * mac c (-(n : Int)) x ∧ 2 ^ n * mac c (-(n : Int)) x ≤ c * x + 2 ^ (n - 1) := by
  obtain ⟨m, rfl⟩ := Nat.exists_eq_add_of_le' hn
  have hpow : (2 : Int) ^ (m + 1) = 2 * 2 ^ m := Int.pow_succ' 2 m
  rw [mac_neg c x hn, hpow, Nat.add_sub_cancel]
  exact roundHalfUp_bounds (c * x) (Int.pow_pos (by decide))

/-- Settles O12: saturation keeps the limits, and each rounding is a division by twice the half that is added before it. -/
theorem engineArithmeticRounds : Obligations.EngineArithmeticRounds := by
  unfold Obligations.EngineArithmeticRounds
  refine ⟨fun a q => ⟨?_, store15_nearest, store15_saturated⟩, fun c x n hn _ => mac_neg_bounds c x hn, fun i a => ?_⟩
  · obtain ⟨hlow, hhigh⟩ := satS_bounds 16 ((a + 2 ^ 14) / 2 ^ 15)
    exact ⟨hlow, Int.le_of_lt_add_one hhigh⟩
  · obtain ⟨hlow, hhigh⟩ := satS_bounds 32 (i + 2 * a)
    exact ⟨hlow, hhigh, satS_of_mem (n := 32)⟩

end Sys2Proof.Machine
end

section
/-! The checks of a channel (04 R112, R113): what a declaration leaves, and that nothing happens before one is due. -/
namespace Sys2Proof.Machine

theorem islReg_eq (n off : Nat) : islReg n off = 0x41000000 + off + 0x1000 * n := by
  simp only [islReg, primAddr, blkBase, blkStride]
  omega

/-- A meaning of the core that changes nothing. -/
theorem runCore_unmoved {s : State} (hc : s.dev.coreOn = true) {f : Dev → Dev} (hf : f { s.dev with out := [] } = { s.dev with out := [] }) :
    ∃ t, runCore s f = .next t ∧ Unmoved s.dev t.dev :=
  runCore_silent hc hf rfl rfl

@[simp] theorem ctlTotal_f (i k : Nat) (d : Dev) (x : Fld) : (ctlTotal i k d).f x = d.f x := rfl

/-! ### Channel `c` of isle `n` -/

/-- Its definition in the live bank. -/
def chanDef (n c : Nat) (d : Dev) : ChanDef := (liveBank (d.isle n)).chans.getD c {}
/-- Its run state. -/
def chanState (n c : Nat) (d : Dev) : ChanU := tget (fun _ => {}) (d.isle n).chans c
/-- Its run state replaced. -/
def putChan (n c : Nat) (w : ChanU) (d : Dev) : Dev :=
  d.setIsle n { d.isle n with chans := tput (fun _ => {}) (d.isle n).chans c w }

theorem chanState_putChan (n c : Nat) (w : ChanU) (d : Dev) : chanState n c (putChan n c w d) = w := by
  rw [chanState, putChan, Dev.isle_setIsle, if_pos rfl]
  exact tget_tput_same _ _ _ _
theorem chanDef_putChan (n c : Nat) (w : ChanU) (d : Dev) : chanDef n c (putChan n c w d) = chanDef n c d := by
  rw [chanDef, putChan, Dev.isle_setIsle, if_pos rfl]
  rfl

/-! ### A declaration -/

/-- 04 R112, R113, R129: a declaration in bit `i` of the isle's status, with its count and its total. -/
def declared (n i : Nat) (cnt : Fld) (total : Nat) (d : Dev) : Dev := ctlTotal total 1 ((d.raise (lawStat n i)).count cnt)

theorem declared_status {n i total : Nat} {cnt : Fld} (d : Dev) (hi : i < 32) (hcnt : cnt.addr = islReg n 0x2C) :
    (declared n i cnt total d).f ⟨0x41000020 + 0x1000 * n, i, 1⟩ = 1 := by
  have hbit : lawStat n i = ⟨0x41000020 + 0x1000 * n, i, 1⟩ := by rw [lawStat, islReg_eq]
  have haddr : 0x41000020 + 0x1000 * n ≠ cnt.addr := by rw [hcnt, islReg_eq]; omega
  rw [declared, ctlTotal_f, hbit, Dev.f_count_other _ _ _ _ (.inl haddr)]
  exact Dev.f_raise_same _ _ hi Nat.one_pos

theorem declared_count {n i lo total : Nat} (d : Dev) (hlo : lo ≤ 16) :
    (declared n i ⟨islReg n 0x2C, lo, 16⟩ total d).f ⟨0x4100002C + 0x1000 * n, lo, 16⟩ =
      min (d.f ⟨0x4100002C + 0x1000 * n, lo, 16⟩ + 1) 65535 := by
  have haddr : 0x4100002C + 0x1000 * n ≠ islReg n 0x20 := by rw [islReg_eq]; omega
  rw [declared, ctlTotal_f, islReg_eq, Dev.f_count_same _ _ _ (Nat.add_le_add_right hlo 16), Dev.f_raise_other _ _ _ (.inl haddr)]
  rfl

theorem declared_putChan_onlyRegs {n c i total : Nat} {w : ChanU} {cnt : Fld} (d : Dev) (hcnt : cnt.addr = islReg n 0x2C) :
    OnlyRegs [0x41000020 + 0x1000 * n, 0x4100002C + 0x1000 * n] d
      { declared n i cnt total (putChan n c w { d with out := [] }) with isles := d.isles, ctlTotals := d.ctlTotals } := by
  have hkept : RegsKept [0x41000020 + 0x1000 * n, 0x4100002C + 0x1000 * n] d
      (((putChan n c w { d with out := [] }).raise (lawStat n i)).count cnt) :=
    RegsKept.count (RegsKept.raise (fun _ _ => rfl) (by simp [lawStat, islReg_eq])) (by simp [hcnt, islReg_eq]) 1
  exact ⟨hkept, rfl⟩

theorem rangeDeclared_new {n c : Nat} (at_ : Nat) {d : Dev} (hact : (chanDef n c d).act ≠ 2) :
    rangeDeclared n c at_ true d = declared n (12 + c) (chRangeCnt n) 3 d := if_neg fun h => hact (of_decide_eq_true h)
theorem freezeDeclared_new {n c : Nat} (at_ : Nat) {d : Dev} (hact : (chanDef n c d).fact ≠ 2) :
    freezeDeclared n c at_ true d = declared n (20 + c) (chStaleCnt n) 4 d := if_neg fun h => hact (of_decide_eq_true h)

/-! ### The two checks -/

/-- 04 R112: the meaning of CH_RANGE. -/
def checkRange (n c at_ : Nat) (d : Dev) : Dev :=
  if (chanState n c d).viol < (if (chanDef n c d).act = 2 then 1 else (chanDef n c d).persist) || (chanState n c d).viol = 0 then d
  else rangeDeclared n c at_ (!(chanState n c d).range) (putChan n c { chanState n c d with range := true } d)
/-- 04 R113: the meaning of CH_STALE. -/
def checkFreeze (n c at_ : Nat) (d : Dev) : Dev :=
  if (chanDef n c d).freeze = 0 || (chanState n c d).same < (chanDef n c d).freeze then d
  else freezeDeclared n c at_ (!(chanState n c d).stale) (putChan n c { chanState n c d with stale := true } d)

theorem exec_chRange (n : Fin 256) (c : Fin 8) (at_ : Nat) (s : State) : exec (.chRange n c at_) s = runCore s (checkRange n c at_) := rfl
theorem exec_chStale (n : Fin 256) (c : Fin 8) (at_ : Nat) (s : State) : exec (.chStale n c at_) s = runCore s (checkFreeze n c at_) := rfl

section
variable {n c : Nat} (at_ : Nat) {d : Dev}

theorem checkRange_early (hact : (chanDef n c d).act ≠ 2) (hviol : (chanState n c d).viol < (chanDef n c d).persist) :
    checkRange n c at_ d = d := by
  unfold checkRange
  rw [if_neg hact, decide_eq_true hviol, Bool.true_or, if_pos rfl]

theorem checkRange_declares (hact : (chanDef n c d).act ≠ 2) (hviol : (chanDef n c d).persist ≤ (chanState n c d).viol)
    (hpos : 0 < (chanState n c d).viol) (hnew : (chanState n c d).range = false) :
    checkRange n c at_ d = declared n (12 + c) (chRangeCnt n) 3 (putChan n c { chanState n c d with range := true } d) := by
  have hdue : ¬ (decide ((chanState n c d).viol < (chanDef n c d).persist) || decide ((chanState n c d).viol = 0)) = true := by
    simpa using ⟨hviol, Nat.ne_of_gt hpos⟩
  unfold checkRange
  rw [if_neg hact, if_neg hdue, hnew, Bool.not_false, rangeDeclared_new at_ (by rwa [chanDef_putChan])]

theorem checkFreeze_early (h : (chanDef n c d).freeze = 0 ∨ (chanState n c d).same < (chanDef n c d).freeze) :
    checkFreeze n c at_ d = d :=
  if_pos (by simpa using h)

theorem checkFreeze_declares (hact : (chanDef n c d).fact ≠ 2) (hset : (chanDef n c d).freeze ≠ 0)
    (hsame : (chanDef n c d).freeze ≤ (chanState n c d).same) (hnew : (chanState n c d).stale = false) :
    checkFreeze n c at_ d = declared n (20 + c) (chStaleCnt n) 4 (putChan n c { chanState n c d with stale := true } d) := by
  have hdue : ¬ (decide ((chanDef n c d).freeze = 0) || decide ((chanState n c d).same < (chanDef n c d).freeze)) = true := by
    simpa using ⟨hset, hsame⟩
  unfold checkFreeze
  rw [if_neg hdue, hnew, Bool.not_false, freezeDeclared_new at_ (by rwa [chanDef_putChan])]

end

/-- 04 R112, R113: the bit, the count, the channel and the frame of a step that declares. -/
theorem runCore_declares {s : State} {n c i lo total : Nat} {w : ChanU} {f : Dev → Dev} (hc : s.dev.coreOn = true) (hi : i < 32) (hlo : lo ≤ 16)
    (hf : f { s.dev with out := [] } = declared n i ⟨islReg n 0x2C, lo, 16⟩ total (putChan n c w { s.dev with out := [] })) :
    ∃ t, runCore s f = .next t ∧ t.dev.f ⟨0x41000020 + 0x1000 * n, i, 1⟩ = 1 ∧
      t.dev.f ⟨0x4100002C + 0x1000 * n, lo, 16⟩ = min (s.dev.f ⟨0x4100002C + 0x1000 * n, lo, 16⟩ + 1) 65535 ∧
      chanState n c t.dev = w ∧
      OnlyRegs [0x41000020 + 0x1000 * n, 0x4100002C + 0x1000 * n] s.dev { t.dev with isles := s.dev.isles, ctlTotals := s.dev.ctlTotals } := by
  obtain ⟨t, ht, hd⟩ := runCore_silent hc hf rfl rfl
  refine ⟨t, ht, ?_⟩
  rw [hd]
  exact ⟨declared_status _ hi rfl, declared_count _ hlo, chanState_putChan n c w _, declared_putChan_onlyRegs _ rfl⟩

/-- Settles O10: a check that is due is a declaration, one that is not leaves the device alone. -/
theorem channelChecksDeclare : Obligations.ChannelChecksDeclare := by
  unfold Obligations.ChannelChecksDeclare
  refine ⟨fun s n c at_ hc hact hviol hpos hnew => ?_, fun s n c at_ hc hact hviol => ?_, fun s n c at_ hc hact hset hsame hnew => ?_,
    fun s n c at_ hc h => ?_⟩
  · rw [exec_chRange]
    obtain ⟨t, ht, hbit, hcnt, hchan, honly⟩ := runCore_declares hc (by omega) (Nat.zero_le 16) (checkRange_declares at_ hact hviol hpos hnew)
    exact ⟨t, ht, hbit, hcnt, congrArg ChanU.range hchan, honly⟩
  · rw [exec_chRange]
    exact runCore_unmoved hc (checkRange_early at_ hact hviol)
  · rw [exec_chStale]
    obtain ⟨t, ht, hbit, hcnt, hchan, honly⟩ := runCore_declares hc (by omega) (Nat.le_refl 16) (checkFreeze_declares at_ hact hset hsame hnew)
    exact ⟨t, ht, hbit, hcnt, congrArg ChanU.stale hchan, honly⟩
  · rw [exec_chStale]
    exact runCore_unmoved hc (checkFreeze_early at_ h)

end Sys2Proof.Machine
end

section
/-! The state words of an isle, and what a node's run leaves in them (04 R103 to R128): faults, ports and the edge former keep them. -/
namespace Sys2Proof.Machine

/-! ### The state words of isle `n` -/

def islWords (n : Nat) (d : Dev) : Table Line := (d.isle n).words

theorem islWords_of_isles {n : Nat} {d e : Dev} (h : e.isles = d.isles) : islWords n e = islWords n d := by
  simp only [islWords, Dev.isle, h]
theorem islWords_of_inner {n : Nat} {d e : Dev} (h : e.inner = d.inner) : islWords n e = islWords n d :=
  congrArg IsleU.words (Dev.isle_of_inner h n)

section
variable (n : Nat) (d : Dev)

@[simp] theorem islWords_setF (x : Fld) (v : Nat) : islWords n (d.setF x v) = islWords n d := islWords_of_isles rfl
@[simp] theorem islWords_raise (x : Fld) : islWords n (d.raise x) = islWords n d := islWords_of_isles rfl
@[simp] theorem islWords_count (x : Fld) (k : Nat) : islWords n (d.count x k) = islWords n d := islWords_of_isles rfl
@[simp] theorem islWords_ctlTotal (i k : Nat) : islWords n (ctlTotal i k d) = islWords n d := islWords_of_isles rfl
@[simp] theorem islWords_efTotal (i k : Nat) : islWords n (efTotal i k d) = islWords n d := islWords_of_isles rfl
@[simp] theorem islWords_modRing (r : Nat) (g : RingU → RingU) : islWords n (d.modRing r g) = islWords n d := islWords_of_isles rfl
@[simp] theorem islWords_setIsle (u : IsleU) : islWords n (d.setIsle n u) = u.words := by simp [islWords]
theorem islWords_modIsle {g : IsleU → IsleU} (h : (g (d.isle n)).words = (d.isle n).words) : islWords n (d.modIsle n g) = islWords n d :=
  (islWords_setIsle n d _).trans h
theorem islWords_whenDo (c : Bool) {f : Dev → Dev} (h : islWords n (f d) = islWords n d) : islWords n (whenDo c f d) = islWords n d := by
  cases c
  · rfl
  · exact h
theorem islWords_ite {c : Prop} [Decidable c] {a b : Dev} {t : Table Line} (ha : islWords n a = t) (hb : islWords n b = t) :
    islWords n (if c then a else b) = t := by
  split
  · exact ha
  · exact hb

end

/-! ### Ports and faults -/

theorem portOff_inner (p : Nat) (d : Dev) : (portOff p d).inner = d.inner := by simp [portOff]
theorem portCharge_inner (p : Nat) (d : Dev) : (portCharge p d).inner = d.inner := by simp [portCharge, apply_ite Dev.inner]
theorem portArm_inner (p : Nat) (d : Dev) : (portArm p d).inner = d.inner := by
  simp [portArm, apply_ite Dev.inner, portCharge_inner]
theorem portEval_inner (p : Nat) (d : Dev) : (portEval p d).inner = d.inner := by
  unfold portEval
  cases portIsle p d <;> simp [apply_ite Dev.inner, portOff_inner, portCharge_inner, portArm_inner]

theorem isleFault_inner (n cause stamp : Nat) (d : Dev) : (isleFault n cause stamp d).inner = d.inner := by
  unfold isleFault
  dsimp only
  split
  · exact cellFault_inner n cause stamp d
  · simp [lvbFault, apply_ite Dev.inner]
  · exact portFault_inner _ 8 d
  · rfl

@[simp] theorem islWords_isleFault (n cause stamp : Nat) (d : Dev) : islWords n (isleFault n cause stamp d) = islWords n d :=
  islWords_of_inner (isleFault_inner n cause stamp d)
@[simp] theorem islWords_fqEnter (n x cause pos stamp : Nat) (d : Dev) : islWords n (fqEnter x cause pos stamp d) = islWords n d :=
  islWords_of_inner (fqEnter_inner x cause pos stamp d)

/-! ### The edge former (05 R140, R152) -/

theorem latMeasure_islWords (n f : Nat) (d : Dev) : islWords n (latMeasure n f d) = islWords n d :=
  islWords_modIsle n _ rfl

/-- A group processed: what remains of the device after its span is queued are counts, status bits and values shown. -/
theorem efProcess_islWords (n g f : Nat) (d : Dev) : islWords n (efProcess n g f d) = islWords n d := by
  unfold efProcess
  extract_lets u b ef f'
  split
  · rfl
  · refine (forEach_keeps (islWords n) _ _ (fun o d => ?_) _).trans ?_
    · exact (islWords_setF n _ _ _).trans ((islWords_whenDo n _ _ (islWords_raise n _ _)).trans (islWords_setF n _ _ _))
    · iterate 6 refine (islWords_whenDo n _ _ (by simp)).trans ?_
      refine (islWords_whenDo n _ _ (latMeasure_islWords n _ _)).trans ?_
      exact islWords_ite n (islWords_setIsle n _ _) ((islWords_modRing n _ _ _).trans (islWords_setIsle n _ _))

theorem efLateHand_islWords (n g : Nat) (d : Dev) : islWords n (efLateHand n g d) = islWords n d := by
  unfold efLateHand
  extract_lets ef b
  split
  · rfl
  · exact islWords_whenDo n _ _ (by simp)

theorem efHand_islWords (n slot f : Nat) (v : Int) (more : List Nat) (d : Dev) : islWords n (efHand n slot f v more d) = islWords n d := by
  unfold efHand
  refine (forEach_keeps (islWords n) _ _ (fun g d => ?_) _).trans (islWords_modIsle n _ rfl)
  split
  · exact efLateHand_islWords n g d
  · split
    · rfl
    · exact efProcess_islWords n g f d

/-! ### A node's run (04 R109) -/

/-- The state words that a run gives are stored, and nothing that follows from it touches them. -/
theorem applyNode_islWords (n j f : Nat) (r : NodeOut) (d : Dev) :
    islWords n (applyNode n j f r d) = r.lines.foldl (fun t e => tput (fun _ => 0) t e.1 e.2) (islWords n d) := by
  unfold applyNode
  extract_lets u nd v k stale chg raised capped v' stored acc out lim low osc fault head sw word handed
  have hlines : capped.lines = r.lines := by unfold capped; split <;> rfl
  have hstored : islWords n stored = r.lines.foldl (fun t e => tput (fun _ => 0) t e.1 e.2) (islWords n d) := by
    rw [← hlines]
    exact islWords_setIsle n _ _
  have hshown : islWords n osc = islWords n stored := by
    iterate 4 refine (islWords_whenDo n _ _ (by simp)).trans ?_
    exact islWords_whenDo n _ _ (by simp)
  have hfault : islWords n fault = islWords n osc := islWords_whenDo n _ _ (by simp)
  have hstale : islWords n sw = islWords n fault :=
    (islWords_whenDo n _ _ (by simp)).trans (islWords_whenDo n _ _ (by simp))
  have hword : islWords n word = islWords n sw := by
    unfold word
    split
    · exact islWords_ite n (islWords_of_inner ((cwSend_inner _ _ _ _ _).trans (Dev.inner_modStr _ _ _)))
        (islWords_of_inner (Dev.inner_modStr _ _ _))
    · rfl
  have hkept : islWords n word = r.lines.foldl (fun t e => tput (fun _ => 0) t e.1 e.2) (islWords n d) :=
    hword.trans (hstale.trans (hfault.trans (hshown.trans hstored)))
  have hhanded := (efHand_islWords n nd.slot f capped.out (laterGroups word (word.isle n) j) word).trans hkept
  exact islWords_ite n (islWords_ite n ((islWords_of_inner (portEval_inner _ handed)).trans hhanded) hhanded) hkept

end Sys2Proof.Machine
end

section
/-! The declarations of nodes: the end of an OSC node's window (04 R123), a string word past its age limit (04 R127). -/
namespace Sys2Proof.Machine

/-! ### Node `j` of isle `n` -/

/-- Its definition in the live bank. -/
def nodeDef (n j : Nat) (d : Dev) : NodeDef := (liveBank (d.isle n)).nodes.getD j {}
/-- Its run state beside its state words. -/
def nodeState (n j : Nat) (d : Dev) : NodeU := tget (fun _ => {}) (d.isle n).nodes j
/-- The state word in which an OSC node keeps its window: count, run, detection, latch (04 R123). -/
def windowWord (n j : Nat) (d : Dev) : Line := tget (fun _ => 0) (islWords n d) ((nodeDef n j d).st + 1)
/-- The runs of an OSC node's window, W. -/
def windowRuns (n j : Nat) (d : Dev) : Nat := paramAt d (d.isle n) ((nodeDef n j d).par + 2)

/-! ### Fields of a state word -/

theorem lineN_eq_zero_of_dvd {l : Line} {lo n : Nat} (h : 2 ^ (lo + n) ∣ l.toNat) : lineN l lo n = 0 := by
  rw [lineN, Nat.shiftRight_eq_div_pow]
  exact Nat.mod_eq_zero_of_dvd (Nat.dvd_div_of_mul_dvd (by rwa [← Nat.pow_add]))

/-- Fields that are 0 or lie from bit `m` up leave the bits below 0. -/
theorem pow_dvd_mkLine {m : Nat} (hm : m ≤ 128) {fs : List (Nat × Nat × Int)} (h : ∀ x ∈ fs, unsigned x.2.1 x.2.2 = 0 ∨ m ≤ x.1) :
    2 ^ m ∣ (mkLine fs).toNat := by
  have hfold (a : Nat) (ha : 2 ^ m ∣ a) : 2 ^ m ∣ fs.foldl (fun a x => a + unsigned x.2.1 x.2.2 * 2 ^ x.1) a := by
    induction fs generalizing a with
    | nil => exact ha
    | cons x fs ih =>
      obtain ⟨hx, hfs⟩ := List.forall_mem_cons.mp h
      refine ih hfs _ (Nat.dvd_add ha ?_)
      rcases hx with hx | hx
      · rw [hx, Nat.zero_mul]
        exact Nat.dvd_zero _
      · exact Nat.dvd_mul_left_of_dvd (Nat.pow_dvd_pow 2 hx) _
  rw [mkLine, BitVec.toNat_ofNat]
  exact (Nat.dvd_mod_iff (Nat.pow_dvd_pow 2 hm)).mpr (hfold 0 (Nat.dvd_zero _))

/-! ### The end of a window -/

/-- What an OSC node gives at the end of a window. -/
def windowEnd (n j : Nat) (d : Dev) : NodeOut :=
  let u := d.isle n
  let nd := nodeDef n j d
  let l := windowWord n j d
  oscGives d u nd (tget (fun _ => 0) u.words nd.st) (oscWindow d u nd (lineN l 16 16) (lineN l 0 16) (lineN l 32 1) (lineN l 33 1))

/-- 04 R123: the meaning of OSC_WINDOW_END. -/
def endWindow (n j at_ : Nat) (d : Dev) : Dev :=
  if (nodeDef n j d).typ != 10 || lineN (windowWord n j d) 16 16 < windowRuns n j d || windowRuns n j d = 0 then d
  else applyNode n j at_ (windowEnd n j d) d

theorem exec_oscWindowEnd (n : Fin 256) (j : Fin 16) (at_ : Nat) (s : State) :
    exec (.oscWindowEnd n j at_) s = runCore s (endWindow n j at_) := rfl

/-- A full window restarts run and count, whatever it detected. -/
theorem oscWindow_full (d : Dev) (u : IsleU) (nd : NodeDef) {pos : Nat} (cnt det latch : Nat) (h : paramAt d u (nd.par + 2) ≤ pos) :
    (oscWindow d u nd pos cnt det latch).1 = (0, 0) := by
  rw [oscWindow, if_neg (by omega)]

/-- The state word of an OSC node at the start of a window: count and run are 0, whatever detection and latch are. -/
theorem lineN_window_start (det latch : Int) {lo : Nat} (hlo : lo ≤ 16) :
    lineN (mkLine [(0, 16, 0), (16, 16, 0), (32, 1, det), (33, 1, latch)]) lo 16 = 0 := by
  refine lineN_eq_zero_of_dvd (pow_dvd_mkLine (by omega) fun x hx => ?_)
  simp only [List.mem_cons, List.not_mem_nil, or_false] at hx
  rcases hx with rfl | rfl | rfl | rfl
  · exact .inl rfl
  · exact .inl rfl
  · exact .inr (by omega)
  · exact .inr (by omega)

theorem oscGives_lines (d : Dev) (u : IsleU) (nd : NodeDef) (l0 : Line) (w : (Nat × Nat) × (Nat × Nat) × Bool × Bool) :
    (oscGives d u nd l0 w).lines =
      [(nd.st, l0), (nd.st + 1, mkLine [(0, 16, w.1.2), (16, 16, w.1.1), (32, 1, w.2.1.1), (33, 1, w.2.1.2)])] := rfl

section
variable {n j : Nat} (at_ : Nat) {d : Dev}

theorem endWindow_early (h : (nodeDef n j d).typ ≠ 10 ∨ lineN (windowWord n j d) 16 16 < windowRuns n j d) : endWindow n j at_ d = d :=
  if_pos (by
    rw [Bool.or_assoc, Bool.or_eq_true, Bool.or_eq_true, bne_iff_ne, decide_eq_true_eq]
    exact h.imp_right .inl)

theorem endWindow_full (htyp : (nodeDef n j d).typ = 10) (hset : windowRuns n j d ≠ 0)
    (hfull : windowRuns n j d ≤ lineN (windowWord n j d) 16 16) : endWindow n j at_ d = applyNode n j at_ (windowEnd n j d) d :=
  if_neg (by simpa using ⟨⟨htyp, hfull⟩, hset⟩)

/-- 04 R123. -/
theorem endWindow_restarts (htyp : (nodeDef n j d).typ = 10) (hset : windowRuns n j d ≠ 0)
    (hfull : windowRuns n j d ≤ lineN (windowWord n j d) 16 16) {lo : Nat} (hlo : lo ≤ 16) :
    lineN (tget (fun _ => 0) (islWords n (endWindow n j at_ d)) ((nodeDef n j d).st + 1)) lo 16 = 0 := by
  rw [endWindow_full at_ htyp hset hfull, applyNode_islWords, windowEnd, oscGives_lines, List.foldl_cons, List.foldl_cons, List.foldl_nil, tget_tput_same,
    oscWindow_full _ _ _ _ _ _ hfull]
  exact lineN_window_start _ _ hlo

end

/-! ### A string word past its age limit -/

/-- The node's run state replaced. -/
def putNode (n j : Nat) (w : NodeU) (d : Dev) : Dev :=
  d.setIsle n { d.isle n with nodes := tput (fun _ => {}) (d.isle n).nodes j w }

theorem nodeState_putNode (n j : Nat) (w : NodeU) (d : Dev) : nodeState n j (putNode n j w d) = w := by
  rw [nodeState, putNode, Dev.isle_setIsle, if_pos rfl]
  exact tget_tput_same _ _ _ _
theorem nodeState_of_inner {n j : Nat} {d e : Dev} (h : e.inner = d.inner) : nodeState n j e = nodeState n j d := by
  simp only [nodeState, Dev.isle_of_inner h]
theorem nodeState_raise (n j : Nat) (x : Fld) (d : Dev) : nodeState n j (d.raise x) = nodeState n j d := rfl

/-- 04 R127: the node flagged and marked stale, the status bit, and SW_STALE entered in the string's fault queue. -/
def markStale (n j at_ : Nat) (d : Dev) : Dev :=
  fqEnter (d.isle n).entry.string 0x10 0x1FF at_ ((putNode n j { nodeState n j d with flag := true, stale := true } d).raise (lawStat n 6))

/-- 04 R127: the meaning of SW_STALE. -/
def checkAge (n j at_ : Nat) (d : Dev) : Dev :=
  if (nodeDef n j d).typ != 12 || (nodeState n j d).stale || !(runStrr d (d.isle n) (nodeDef n j d) (nodeState n j d)).flag then d
  else markStale n j at_ d

theorem exec_swStale (n : Fin 256) (j : Fin 16) (at_ : Nat) (s : State) : exec (.swStale n j at_) s = runCore s (checkAge n j at_) := rfl

theorem markStale_inner (n j at_ : Nat) (d : Dev) : (markStale n j at_ d).inner =
    ((putNode n j { nodeState n j d with flag := true, stale := true } d).raise (lawStat n 6)).inner := by
  rw [markStale, fqEnter_inner]

theorem markStale_stale (n j at_ : Nat) (d : Dev) : (nodeState n j (markStale n j at_ d)).stale = true := by
  rw [nodeState_of_inner (markStale_inner n j at_ d), nodeState_raise, nodeState_putNode]

theorem markStale_status {n : Nat} (hn : n < 256) (j at_ : Nat) (d : Dev) : (markStale n j at_ d).f ⟨0x41000020 + 0x1000 * n, 6, 1⟩ = 1 := by
  have hbit : lawStat n 6 = ⟨0x41000020 + 0x1000 * n, 6, 1⟩ := by rw [lawStat, islReg_eq]
  rw [Dev.f_of_inner (markStale_inner n j at_ d) _ (by dsimp only; omega), hbit]
  exact Dev.f_raise_same _ _ (by dsimp only; omega) Nat.one_pos

section
variable {n j : Nat} (at_ : Nat) {d : Dev}

theorem checkAge_idle (h : (nodeDef n j d).typ ≠ 12 ∨ (nodeState n j d).stale = true) : checkAge n j at_ d = d :=
  if_pos (by
    rw [Bool.or_eq_true, Bool.or_eq_true, bne_iff_ne]
    exact .inl h)

theorem checkAge_marks (htyp : (nodeDef n j d).typ = 12) (hnew : (nodeState n j d).stale = false)
    (hold : (runStrr d (d.isle n) (nodeDef n j d) (nodeState n j d)).flag = true) : checkAge n j at_ d = markStale n j at_ d :=
  if_neg (by simp [htyp, hnew, hold])

end

/-- Settles O11: a window that is full and a word that is too old act, whatever follows from them in the same step; otherwise the device is
left alone. -/
theorem nodeDeclarationsAct : Obligations.NodeDeclarationsAct := by
  unfold Obligations.NodeDeclarationsAct
  refine ⟨fun s n j at_ hc htyp hset hfull => ?_, fun s n j at_ hc h => ?_, fun s n j at_ hc htyp hnew hold => ?_, fun s n j at_ hc h => ?_⟩
  · have hwords : islWords n (finish s (endWindow n j at_ { s.dev with out := [] })).dev = islWords n (endWindow n j at_ { s.dev with out := [] }) :=
      islWords_of_inner (finish_inner s _)
    have hrestart {lo : Nat} (hlo : lo ≤ 16) := endWindow_restarts (d := { s.dev with out := [] }) at_ htyp hset hfull hlo
    rw [← hwords] at hrestart
    rw [exec_oscWindowEnd]
    exact ⟨_, runCore_on hc _, hrestart (Nat.zero_le 16), hrestart (Nat.le_refl 16)⟩
  · rw [exec_oscWindowEnd]
    exact runCore_unmoved hc (endWindow_early at_ h)
  · have hinner := finish_inner s (markStale n j at_ { s.dev with out := [] })
    rw [exec_swStale, runCore_on hc, checkAge_marks (d := { s.dev with out := [] }) at_ htyp hnew hold]
    refine ⟨_, rfl, ?_, ?_⟩
    · exact (congrArg NodeU.stale (nodeState_of_inner hinner)).trans (markStale_stale n j at_ _)
    · rw [Dev.f_of_inner hinner _ (by dsimp only; omega)]
      exact markStale_status n.isLt j at_ _
  · rw [exec_swStale]
    exact runCore_unmoved hc (checkAge_idle at_ h)

end Sys2Proof.Machine
end

section
/-! Dithered counts (05 R146): the periods count modulo 16, and the bit-reversed order lets each remainder through as often as it says. -/
namespace Sys2Proof.Machine

/-- The count that dithering adds in period `n` for the remainder `m`. -/
def ditherExtra (m : Nat) (n : Int) : Nat := if rev4 (n % 16).toNat < m then 1 else 0

theorem whole_dither (u : Nat) (n : Int) : whole true u n = u / 16 + ditherExtra (u % 16) n := by
  rw [whole, if_pos rfl, ditherExtra]
  split <;> rfl

theorem whole_plain (u : Nat) (n : Int) : whole false u n = (u + 8) / 16 := rfl

/-- The first period counts modulo 16 alone. -/
theorem ditherExtra_emod_add (m : Nat) (n i : Int) : ditherExtra m (n % 16 + i) = ditherExtra m (n + i) := by
  rw [ditherExtra, ditherExtra, Int.emod_add_emod]

/-- `rev4` permutes the residues of 16: of sixteen periods in a row, wherever they begin, `m` have one below `m`. -/
theorem sum_ditherExtra_residue :
    ∀ r m : Fin 16, ((List.range 16).map fun i : Nat => ditherExtra m.val ((r.val : Int) + (i : Int))).sum = m.val := by
  decide +kernel

theorem sum_ditherExtra {m : Nat} (hm : m < 16) (n : Int) :
    ((List.range 16).map fun i : Nat => ditherExtra m (n + (i : Int))).sum = m := by
  obtain ⟨r, hr⟩ : ∃ r : Fin 16, (r.val : Int) = n % 16 := ⟨⟨(n % 16).toNat, by omega⟩, by dsimp only; omega⟩
  simpa only [hr, ditherExtra_emod_add] using sum_ditherExtra_residue r ⟨m, hm⟩

/-- A part that every term has in common comes out of a sum as often as there are terms. -/
theorem sum_map_const_add (c : Nat) (f : Nat → Nat) (l : List Nat) : (l.map fun i => c + f i).sum = l.length * c + (l.map f).sum := by
  induction l with
  | nil => simp only [List.map_nil, List.sum_nil, List.length_nil, Nat.zero_mul, Nat.add_zero]
  | cons i l ih =>
    simp only [List.map_cons, List.sum_cons, List.length_cons, ih, Nat.succ_mul]
    omega

/-- Settles O14: sixteen times the whole part, and the remainder spread over the sixteen periods. -/
theorem ditherHasExactMean : Obligations.DitherHasExactMean := by
  unfold Obligations.DitherHasExactMean
  refine ⟨fun u n => ?_, whole_plain⟩
  calc ((List.range 16).map fun i : Nat => whole true u (n + (i : Int))).sum
      = ((List.range 16).map fun i : Nat => u / 16 + ditherExtra (u % 16) (n + (i : Int))).sum := by simp only [whole_dither]
    _ = 16 * (u / 16) + ((List.range 16).map fun i : Nat => ditherExtra (u % 16) (n + (i : Int))).sum :=
        sum_map_const_add (u / 16) _ (List.range 16)
    _ = 16 * (u / 16) + u % 16 := congrArg _ (sum_ditherExtra (Nat.mod_lt u (by decide)) n)
    _ = u := Nat.div_add_mod u 16

end Sys2Proof.Machine
end

section
/-! Override words and the interlock of an edge former (05 R140, R149, R150): what a write leaves, and that no pair ends with both gates on. -/
namespace Sys2Proof.Machine

/-! ### The override word (05 R150) -/

/-- The word stored and handed to the edge former with its cycle. -/
def storeOverride (n : Nat) (w : Word) (f : Nat) (d : Dev) : Dev :=
  (d.wr (islReg n 0x30) (BitVec.ofNat 32 (w.toNat % 2 ^ 30))).modIsle n fun u =>
    { u with ef := { u.ef with ovrs := (d.tide.k * d.tc + f, w.toNat % 2 ^ 30) :: pruneHanded (d.tide.k * d.tc) u.ef.ovrs } }
/-- The refusal flagged and counted. -/
def refuseOverride (n : Nat) (d : Dev) : Dev := (d.raise (efStat n 20)).count (efRejCnt n)

theorem efOverride_dev (n : Nat) (w : Word) (f : Nat) (lock : Bool) (d : Dev) :
    (efOverride n w f lock d).2 = if ovrAllowed n lock d then storeOverride n w f d else refuseOverride n d := by
  unfold efOverride
  split <;> rfl

theorem exec_efOverrideWrite (n : Fin 256) (w : Word) (f : Nat) (s : State) :
    exec (.efOverrideWrite n w f) s = runCore s fun d => (efOverride n w f (ovrLock d) d).2 := rfl

theorem ovrAllowed_unlocked {n : Nat} {d : Dev}
    (h : d.mode = 2 ∨ ((d.isle n).entry.role = 1 ∧ (d.str (d.isle n).entry.string).sstate = 0)) : ovrAllowed n false d = true := by
  rcases h with h | ⟨hrole, hoff⟩
  · simp [ovrAllowed, h]
  · simp [ovrAllowed, hrole, hoff]

theorem ovrAllowed_locked (n : Nat) (d : Dev) : ovrAllowed n true d = false := rfl

theorem ovrAllowed_live_cell {n : Nat} {d : Dev} (lock : Bool) (hmode : d.mode ≠ 2) (hrole : (d.isle n).entry.role = 1)
    (hlive : (d.str (d.isle n).entry.string).sstate ≠ 0) : ovrAllowed n lock d = false := by
  simp [ovrAllowed, hmode, hrole, hlive]

theorem storeOverride_rd (n : Nat) (w : Word) (f : Nat) (d : Dev) :
    (storeOverride n w f d).rd (0x41000030 + 0x1000 * n) = BitVec.ofNat 32 (w.toNat % 2 ^ 30) := by
  rw [storeOverride, islReg_eq]
  exact Dev.rd_wr_same _ _ _

theorem storeOverride_newest (n : Nat) (w : Word) (f : Nat) (d : Dev) :
    ((storeOverride n w f d).isle n).ef.ovrs.head? = some ((d.tide.k * d.tc + f : Int), w.toNat % 2 ^ 30) := by
  rw [storeOverride, Dev.modIsle, Dev.isle_setIsle, if_pos rfl]
  rfl

theorem storeOverride_onlyRegs (n : Nat) (w : Word) (f : Nat) (d : Dev) :
    OnlyRegs [0x41000030 + 0x1000 * n] d { storeOverride n w f { d with out := [] } with isles := d.isles } := by
  have hkept : RegsKept [0x41000030 + 0x1000 * n] d (d.wr (islReg n 0x30) (BitVec.ofNat 32 (w.toNat % 2 ^ 30))) :=
    (RegsKept.refl _ d).wr (by simp [islReg_eq]) _
  exact ⟨hkept, rfl⟩

theorem refuseOverride_flag (n : Nat) (d : Dev) : (refuseOverride n d).f ⟨0x41000034 + 0x1000 * n, 20, 1⟩ = 1 := by
  have hbit : efStat n 20 = ⟨0x41000034 + 0x1000 * n, 20, 1⟩ := by rw [efStat, islReg_eq]
  have haddr : 0x41000034 + 0x1000 * n ≠ (efRejCnt n).addr := by dsimp only [efRejCnt]; rw [islReg_eq]; omega
  rw [refuseOverride, hbit, Dev.f_count_other _ _ _ _ (.inl haddr)]
  exact Dev.f_raise_same _ _ (by dsimp only; omega) Nat.one_pos

theorem refuseOverride_count (n : Nat) (d : Dev) :
    (refuseOverride n d).f ⟨0x41000060 + 0x1000 * n, 16, 16⟩ = min (d.f ⟨0x41000060 + 0x1000 * n, 16, 16⟩ + 1) 65535 := by
  have hcnt : efRejCnt n = ⟨0x41000060 + 0x1000 * n, 16, 16⟩ := by rw [efRejCnt, islReg_eq]
  have haddr : 0x41000060 + 0x1000 * n ≠ (efStat n 20).addr := by dsimp only [efStat]; rw [islReg_eq]; omega
  rw [refuseOverride, hcnt, Dev.f_count_same _ _ _ (by dsimp only; omega), Dev.f_raise_other _ _ _ (.inl haddr)]
  rfl

theorem refuseOverride_onlyRegs (n : Nat) (d : Dev) :
    OnlyRegs [0x41000034 + 0x1000 * n, 0x41000060 + 0x1000 * n] d (refuseOverride n { d with out := [] }) := by
  refine .of_alone ?_ (((RegsAlone.refl _).raise _).count _ 1)
  exact RegsKept.count (RegsKept.raise (fun _ _ => rfl) (by simp [efStat, islReg_eq])) (by simp [efRejCnt, islReg_eq]) 1

/-- 05 R140, R150. -/
theorem efOverrideWrite_taken {s : State} {n : Fin 256} (w : Word) (f : Nat) (hc : s.dev.coreOn = true)
    (h : ovrAllowed n (ovrLock s.dev) s.dev = true) :
    ∃ t, exec (.efOverrideWrite n w f) s = .next t ∧ t.dev = storeOverride n w f { s.dev with out := [] } := by
  rw [exec_efOverrideWrite]
  exact runCore_silent hc ((efOverride_dev n w f _ _).trans (if_pos h)) rfl rfl

/-- 05 R150, R155. -/
theorem efOverrideWrite_refused {s : State} {n : Fin 256} (w : Word) (f : Nat) (hc : s.dev.coreOn = true)
    (h : ovrAllowed n (ovrLock s.dev) s.dev = false) :
    ∃ t, exec (.efOverrideWrite n w f) s = .next t ∧ t.dev = refuseOverride n { s.dev with out := [] } := by
  rw [exec_efOverrideWrite]
  exact runCore_silent hc ((efOverride_dev n w f _ _).trans (if_neg (ne_true_of_eq_false h))) rfl rfl

/-! ### The interlock (05 R149) -/

/-- Not both gates of the pair are on. -/
def GatesApart (u : PairU) : Prop := ¬ (u.up = true ∧ u.lo = true)

theorem gatesApart_of_up {u : PairU} (h : u.up = false) : GatesApart u := fun hon => Bool.false_ne_true (h.symm.trans hon.1)
theorem gatesApart_of_lo {u : PairU} (h : u.lo = false) : GatesApart u := fun hon => Bool.false_ne_true (h.symm.trans hon.2)

theorem blockAt_off (t : Int) (uid : Nat) (u : PairU) : (blockAt t uid u).1.up = false ∧ (blockAt t uid u).1.lo = false := ⟨rfl, rfl⟩
theorem blockAt_apart (t : Int) (uid : Nat) (u : PairU) : GatesApart (blockAt t uid u).1 := gatesApart_of_up (blockAt_off t uid u).1

/-- A move to the levels asked for blocks the pair, or those levels leave a gate off and turn none on while the other is on. -/
theorem driveTo_cases (t td : Int) (uid : Nat) (u : PairU) :
    driveTo t td uid u = blockAt t uid u ∨
    ((driveTo t td uid u).1.up = (desired u).1 ∧ (driveTo t td uid u).1.lo = (desired u).2 ∧
      ¬ ((desired u).1 = true ∧ (desired u).2 = true) ∧
      ((desired u).1 = true → u.up = false → u.lo = false) ∧ ((desired u).2 = true → u.lo = false → u.up = false)) := by
  unfold driveTo
  obtain ⟨du, dl⟩ := desired u
  dsimp only
  split
  · exact .inl rfl
  · next hgood =>
    simp only [Bool.or_eq_true, Bool.and_eq_true, Bool.not_eq_true', not_or, not_and, Bool.not_eq_true] at hgood
    obtain ⟨⟨hboth, hup⟩, hlo⟩ := hgood
    exact .inr ⟨rfl, rfl, fun ⟨hd, hl⟩ => Bool.false_ne_true ((hboth hd).symm.trans hl), fun hd hu => (hup ⟨hd, hu⟩).1, fun hd hl => (hlo ⟨hd, hl⟩).1⟩

theorem driveTo_apart (t td : Int) (uid : Nat) (u : PairU) : GatesApart (driveTo t td uid u).1 := by
  obtain hblock | ⟨hup, hlo, happart, -, -⟩ := driveTo_cases t td uid u
  · exact hblock ▸ blockAt_apart t uid u
  · rwa [GatesApart, hup, hlo]

/-- The lower gate is not turned on while the upper one is on. -/
theorem driveTo_lower_off (t td : Int) (uid : Nat) {u : PairU} (hup : u.up = true) (hlo : u.lo = false) :
    (driveTo t td uid u).1.lo = false := by
  obtain hblock | ⟨-, hdl, -, -, hon⟩ := driveTo_cases t td uid u
  · rw [hblock]
    exact (blockAt_off t uid u).2
  · rw [hdl]
    exact Bool.eq_false_iff.mpr fun hd => absurd (hup.symm.trans (hon hd hlo)) (by decide)

/-- A formed transition that turns a gate on finds the other one off, or blocks. -/
theorem formed_apart (t : Int) (uid : Nat) (lower level : Bool) (td : Int) {u : PairU} (h : GatesApart u) :
    GatesApart (formed t uid lower level td u).1 := by
  unfold formed
  extract_lets v g
  have hv : GatesApart v := by cases lower <;> exact h
  split
  · exact hv
  split
  -- turn-ons of the lower and of the upper gate
  · split
    · split
      · exact blockAt_apart t uid v
      · next hoff => exact gatesApart_of_up (Bool.eq_false_iff.mpr fun hup => hoff (Bool.or_eq_true_iff.mpr (.inl hup)))
    · split
      · exact blockAt_apart t uid v
      · next hoff => exact gatesApart_of_lo (Bool.eq_false_iff.mpr fun hlo => hoff (Bool.or_eq_true_iff.mpr (.inl hlo)))
  -- turn-offs of the lower and of the upper gate
  · split
    · exact gatesApart_of_lo rfl
    · exact gatesApart_of_up rfl

theorem stepItem_apart (it : EfItem) {u : PairU} (h : GatesApart u) : GatesApart (stepItem it u).1 := by
  cases it with
  | bound => exact h
  | off t uid lower => exact formed_apart t uid lower false 0 h
  | on t uid lower td => exact formed_apart t uid lower true td h

/-- 05 R149, over every sequence of boundaries and transitions. -/
theorem physical_apart (tail items : List EfItem) (uid : Nat) {u : PairU} (rs : List EfRec) (h : GatesApart u) :
    GatesApart (physical tail items uid u rs).1 := by
  induction items generalizing uid u rs with
  | nil => exact h
  | cons it rest ih =>
    cases it with
    | off t id lower => exact ih uid _ (stepItem_apart (.off t id lower) h)
    | on t id lower td => exact ih uid _ (stepItem_apart (.on t id lower td) h)
    | bound t reload swap fen f0 f1 td =>
      unfold physical
      extract_lets changed v r
      have hv : GatesApart v := h
      split
      -- the interlock holds the gates, and goes on doing so unless the stretch from a reload point is clean
      · split
        · exact ih _ _ hv
        split
        · exact ih _ _ (driveTo_apart t td uid _)
        · exact ih _ _ hv
      · split
        · exact ih _ _ (driveTo_apart t td uid v)
        · exact ih _ _ hv

/-- Settles O13: a write is stored or refused as `ovrAllowed` says, and every item of a pattern keeps a gate off. -/
theorem edgeFormersNeverOverlap : Obligations.EdgeFormersNeverOverlap := by
  unfold Obligations.EdgeFormersNeverOverlap
  refine ⟨fun s n w f hc hlock h => ?_, fun s n w f hc h => ?_, fun tail items uid u rs h => physical_apart tail items uid rs h,
    fun t td uid u hup hlo hon => ?_⟩
  · obtain ⟨t, ht, hd⟩ := efOverrideWrite_taken w f hc (hlock ▸ ovrAllowed_unlocked h)
    refine ⟨t, ht, ?_⟩
    rw [hd]
    exact ⟨storeOverride_rd n w f _, storeOverride_newest n w f _, storeOverride_onlyRegs n w f _⟩
  · have hrefused : ovrAllowed n (ovrLock s.dev) s.dev = false := by
      rcases h with hlock | ⟨hmode, hrole, hlive⟩
      · rw [hlock]
        exact ovrAllowed_locked n s.dev
      · exact ovrAllowed_live_cell _ hmode hrole hlive
    obtain ⟨t, ht, hd⟩ := efOverrideWrite_refused w f hc hrefused
    refine ⟨t, ht, ?_⟩
    rw [hd]
    exact ⟨refuseOverride_flag n _, refuseOverride_count n _, refuseOverride_onlyRegs n _⟩
  · exact absurd hon (Bool.eq_false_iff.mp (driveTo_lower_off t td uid hup hlo))

end Sys2Proof.Machine
end

section
/-! Halt policies (09 R274): the guards of a write to NRW_HPOL, what it stores (19 R548, 09 Table GDS-9), and POL_REJ. -/
namespace Sys2Proof.Machine

/-! ### The frame of a step of a ring -/

/-- While the ring has power, a meaning of it that moves registers alone leaves the device that it gives. -/
theorem runRing_alone {s : State} {r : Nat} (hr : s.dev.ringOn r = true) {f : Dev → Dev} (hf : ∀ d, RegsAlone d (f d)) :
    ∃ t, runRing r s f = .next t ∧ t.dev = f { s.dev with out := [] } := by
  have hon : ({ s.dev with out := [] } : Dev).ringOn r = true := hr
  refine ⟨finish s (f { s.dev with out := [] }), ?_, finish_silent (hf _).out (hf _).saf⟩
  simp only [runRing, runIn, run, hon, if_true]

/-! ### A store by the access codes (19 R548) -/

theorem fget_congr {v w : Word} {lo n : Nat} (h : ∀ i < n, v.getLsbD (lo + i) = w.getLsbD (lo + i)) : fget v lo n = fget w lo n := by
  refine Nat.eq_of_testBit_eq fun i => ?_
  rw [fget_testBit, fget_testBit]
  by_cases hi : i < n
  · rw [h i hi]
  · simp [hi]

/-- The field lies in the stored bits of the register, and clears none. -/
def storesField (x : RegDef) (lo n : Nat) : Bool :=
  (List.range n).all fun i => (rwMask x).getLsbD (lo + i) && !(accMask x .w1c).getLsbD (lo + i)

theorem store_of_regDef {a : Nat} {l : Loc} {x : RegDef} (hl : decodeAddr a = some l) (hx : regDefAt l = some x) (d : Dev) (v : Word) :
    d.store a v = d.wr a (((d.rd a &&& ~~~ rwMask x) ||| (v &&& rwMask x)) &&& ~~~ (v &&& accMask x .w1c)) := by
  simp only [Dev.store, hl, hx]

/-- A stored field reads what was written. -/
theorem f_store {a lo n : Nat} {l : Loc} {x : RegDef} (hl : decodeAddr a = some l) (hx : regDefAt l = some x)
    (hrw : storesField x lo n = true) (d : Dev) (v : Word) : (d.store a v).f ⟨a, lo, n⟩ = fget v lo n := by
  rw [store_of_regDef hl hx, Dev.f, Dev.rd_wr_same]
  refine fget_congr fun i hi => ?_
  have hbit := List.all_eq_true.mp hrw i (List.mem_range.mpr hi)
  rw [Bool.and_eq_true, Bool.not_eq_true'] at hbit
  obtain ⟨hset, hkeep⟩ := hbit
  have hlt : lo + i < 32 := BitVec.lt_of_getLsbD hset
  simp only [BitVec.getLsbD_and, BitVec.getLsbD_or, BitVec.getLsbD_not, hlt, hset, hkeep, decide_true,
    Bool.not_true, Bool.not_false, Bool.and_false, Bool.false_or, Bool.and_true]

/-- A store writes its register, or moves nothing where the address names none. -/
theorem store_cases (d : Dev) (a : Nat) (v : Word) : d.store a v = d ∨ ∃ w, d.store a v = d.wr a w := by
  unfold Dev.store
  split
  · exact .inl rfl
  · split
    · exact .inl rfl
    · exact .inr ⟨_, rfl⟩

theorem RegsAlone.store {d e : Dev} (h : RegsAlone d e) (a : Nat) (v : Word) : RegsAlone d (e.store a v) := by
  obtain he | ⟨w, he⟩ := store_cases e a v
  · rwa [he]
  · rw [he]
    exact h.wr a w

theorem RegsKept.store {as : List Nat} {d e : Dev} (h : RegsKept as d e) {a : Nat} (ha : a ∈ as) (v : Word) :
    RegsKept as d (e.store a v) := by
  obtain he | ⟨w, he⟩ := store_cases e a v
  · rwa [he]
  · rw [he]
    exact h.wr ha w

/-! ### The registers of a ring's halt matrix (09 Tables GDS-8 to GDS-10) -/

theorem nrwReg_eq (r off : Nat) : nrwReg r off = 0x42000000 + off + 0x1000 * r := by
  simp only [nrwReg, primAddr, blkBase, blkStride]
  omega

theorem hpolAddr_eq (r i : Nat) : 0x42000100 + 0x1000 * r + 4 * i = nrwReg r (0x100 + 4 * i) := by
  rw [nrwReg_eq]
  omega
theorem polRej_eq (r : Nat) : (⟨0x42000150 + 0x1000 * r, 0, 1⟩ : Fld) = haltStat r 0 := by rw [haltStat, nrwReg_eq]

/-- A word of a ring's window decodes to its ring and offset (19 Table REG-4). -/
theorem decodeAddr_nrwReg {r off : Nat} (hr : r < 16) (hoff : off < 0x200) (hword : off % 4 = 0) :
    decodeAddr (nrwReg r off) = some ⟨.nrw, r, off⟩ := by
  have hwin : nrwReg r off / 0x10000 = 0x4200 := by rw [nrwReg_eq]; omega
  have hring : nrwReg r off / 0x1000 % 16 = r := by rw [nrwReg_eq]; omega
  have hplace : abits (nrwReg r off) 8 2 = off := by rw [nrwReg_eq, abits]; omega
  simp [decodeAddr, hwin, hring, hplace]

/-- 09 Table GDS-9: the three actions and the group are the fields of a policy. -/
def hpolDef (i : Nat) : RegDef := ⟨0x100 + 4 * i, 0x1A, [rRw 0 6, rRw 8 4]⟩

theorem regDefAt_hpol : ∀ r i : Fin 16, regDefAt ⟨.nrw, r.val, 0x100 + 4 * i.val⟩ = some (hpolDef i.val) := by decide

theorem rwMask_hpolDef (i : Nat) : rwMask (hpolDef i) = 0xF3F#32 := by simp [rwMask, accMask, hpolDef, rRw, fmask]
theorem w1cMask_hpolDef (i : Nat) : accMask (hpolDef i) .w1c = 0#32 := by simp [accMask, hpolDef, rRw]

theorem hpolDef_storesField (i : Nat) {lo n : Nat} (h : (lo, n) ∈ [(0, 2), (0, 6), (8, 4)]) : storesField (hpolDef i) lo n = true := by
  simp only [List.mem_cons, Prod.mk.injEq, List.not_mem_nil, or_false] at h
  unfold storesField
  rw [rwMask_hpolDef, w1cMask_hpolDef]
  obtain ⟨rfl, rfl⟩ | ⟨rfl, rfl⟩ | ⟨rfl, rfl⟩ := h <;> decide

/-- A field of a policy reads what was stored. -/
theorem f_store_hpol (r i : Fin 16) {lo n : Nat} (h : (lo, n) ∈ [(0, 2), (0, 6), (8, 4)]) (d : Dev) (v : Word) :
    (d.store (nrwReg r (0x100 + 4 * i)) v).f (hpol r i lo n) = fget v lo n :=
  f_store (decodeAddr_nrwReg r.isLt (by omega) (by omega)) (regDefAt_hpol r i) (hpolDef_storesField i h) d v

/-- POL_REJ lies in none of the policies. -/
theorem f_raise_polRej_hpol (r i : Fin 16) (lo n : Nat) (d : Dev) : (d.raise (haltStat r 0)).f (hpol r i lo n) = d.f (hpol r i lo n) :=
  Dev.f_raise_other _ _ _ (.inl (by simp only [hpol, haltStat, nrwReg_eq]; omega))

theorem f_raise_polRej (r : Nat) (d : Dev) : (d.raise (haltStat r 0)).f (haltStat r 0) = 1 :=
  Dev.f_raise_same _ _ (by simp [haltStat]) (by simp [haltStat])

/-! ### A write of a policy (09 R274) -/

section
variable (r i : Nat) (v : Word) {d : Dev}

theorem haltPolicy_locked (hm : d.mode ≠ 2) : (haltPolicy r i v d).2 = d.raise (haltStat r 0) := by
  simp [haltPolicy, hm]

theorem haltPolicy_scActZero (hm : d.mode = 2) (hv : fget v 0 2 = 0) :
    (haltPolicy r i v d).2 =
      (d.store (nrwReg r (0x100 + 4 * i)) (fset v 0 2 (d.f (hpol r i 0 2)))).raise (haltStat r 0) := by
  simp [haltPolicy, hm, hv, Dev.f, hpol]

theorem haltPolicy_stored (hm : d.mode = 2) (hv : fget v 0 2 ≠ 0) :
    (haltPolicy r i v d).2 = d.store (nrwReg r (0x100 + 4 * i)) v := by
  simp [haltPolicy, hm, hv]

theorem haltPolicy_alone (d : Dev) : RegsAlone d (haltPolicy r i v d).2 := by
  by_cases hm : d.mode = 2
  · by_cases hv : fget v 0 2 = 0
    · exact haltPolicy_scActZero r i v hm hv ▸ ((RegsAlone.refl d).store _ _).raise _
    · exact haltPolicy_stored r i v hm hv ▸ (RegsAlone.refl d).store _ _
  · exact haltPolicy_locked r i v hm ▸ (RegsAlone.refl d).raise _

/-- A value that SC_ACT may not take sets POL_REJ, whatever the mode. -/
theorem haltPolicy_scActZero_polRej (hv : fget v 0 2 = 0) : (haltPolicy r i v d).2.f (haltStat r 0) = 1 := by
  by_cases hm : d.mode = 2
  · rw [haltPolicy_scActZero r i v hm hv, f_raise_polRej]
  · rw [haltPolicy_locked r i v hm, f_raise_polRej]

end

theorem fget_mod (w : Word) (lo n : Nat) : fget w lo n % 2 ^ n = fget w lo n := Nat.mod_mod _ _

/-- A value of 0 in SC_ACT leaves SC_ACT, whatever the mode. -/
theorem haltPolicy_scActZero_keeps (r i : Fin 16) {v : Word} (hv : fget v 0 2 = 0) (d : Dev) :
    (haltPolicy r i v d).2.f (hpol r i 0 2) = d.f (hpol r i 0 2) := by
  by_cases hm : d.mode = 2
  · rw [haltPolicy_scActZero r i v hm hv, f_raise_polRej_hpol, f_store_hpol r i (by simp), fget_fset_same _ _ _ _ (by decide)]
    exact fget_mod _ 0 2
  · rw [haltPolicy_locked r i v hm, f_raise_polRej_hpol]

theorem haltPolicyWrite_dev {s : State} (r i : Fin 16) (v : Word) (hr : s.dev.ringOn r = true) :
    ∃ t, exec (.haltPolicyWrite r i v) s = .next t ∧ t.dev = (haltPolicy r i v { s.dev with out := [] }).2 :=
  runRing_alone hr (haltPolicy_alone r i v)

/-- Settles O29: in each of the three cases the device is the one that `haltPolicy` gives, with registers of the halt matrix alone moved. -/
theorem haltPolicyWritesAreGuarded : Obligations.HaltPolicyWritesAreGuarded := by
  unfold Obligations.HaltPolicyWritesAreGuarded
  refine ⟨fun s r i v hr hm hv => ?_, fun s r i v hr hm => ?_, fun s r i v hr hv => ?_⟩
  all_goals
    obtain ⟨t, ht, hd⟩ := haltPolicyWrite_dev r i v hr
    refine ⟨t, ht, ?_⟩
    rw [hd]
  · rw [haltPolicy_stored r i v (d := { s.dev with out := [] }) hm hv, hpolAddr_eq]
    exact ⟨f_store_hpol r i (by simp) _ v, f_store_hpol r i (by simp) _ v,
      .of_alone (RegsKept.store (fun _ _ => rfl) (List.mem_singleton_self _) v) ((RegsAlone.refl _).store _ v)⟩
  · rw [haltPolicy_locked r i v (d := { s.dev with out := [] }) hm, polRej_eq]
    refine ⟨f_raise_polRej r _, .of_alone (RegsKept.raise (fun _ _ => rfl) ?_) ((RegsAlone.refl _).raise _)⟩
    simp [haltStat, nrwReg_eq]
  · rw [polRej_eq, hpolAddr_eq]
    exact ⟨haltPolicy_scActZero_polRej r i v hv, haltPolicy_scActZero_keeps r i hv _⟩

end Sys2Proof.Machine
end
